-- ==== Sys2Proof/Word.lean ====
section
/-! DEFINITION. Word types of the Tolul module: bytes, 32- and 64-bit registers and the operand part of a Photer instruction word. -/

namespace Sys2Proof

/-- A byte of a memory (R6). -/
abbrev Byte := BitVec 8

/-- A 32-bit register or an FP32 bit pattern (R33). -/
abbrev W32 := BitVec 32

/-- A 64-bit register (R89, R449). -/
abbrev W64 := BitVec 64

end Sys2Proof
end

