-- ==== Sys2Proof/Syntax.lean ====
section
/-! DEFINITION. The commands of a Tolul module: the operand types and `Instr`, one constructor per row of the table of operations and
events. CLASS and OP of a Photer row are fixed by the row (R115, R119); everything else of the word is an operand. -/

namespace Sys2Proof

/-- What the detectors on a data path report while an operation reads: the environment's part of a command. -/
inductive Detect where
  /-- a corrected or uncorrectable scratchpad or accumulator word, by its scratchpad address (R100) -/
  | spad (ok : Bool) (addr : Nat)
  /-- a mortar word (R189): corrected, or uncorrectable in a clean line, in a dirty line of an object's block, or in the combine region -/
  | mtrCorr (addr : Nat)
  | mtrClean (addr : Nat)
  | mtrDirty (addr : Nat) (obj : Fin 1048576) (block : Nat)
  | mtrCombine (addr : Nat)
  /-- a one-lane footing error, by its address and lane (R249) -/
  | ftgCorr (lane : Fin 36) (addr : Nat)
  /-- an uncorrectable footing burst: its address, and the object's block whose line it marks poisoned (R249) -/
  | ftgUncorr (addr : Nat) (obj : Fin 1048576) (block : Nat)
  /-- an undercroft error in one byte lane, or an uncorrectable one (R280) -/
  | ucfCorr (addr : Nat)
  | ucfUncorr (addr : Nat) (obj : Fin 1048576) (block : Nat)
  /-- an uncorrectable side-table line (R255): its address, and whether the second read finds it so again -/
  | side (addr : Nat) (stays : Bool)
  /-- a checksum mismatch of an integrity block that the second read does not repeat (R254) -/
  | csum (obj : Fin 1048576) (block : Nat)
  /-- a checksum mismatch that the second read repeats, a bad side-table line among its causes (R254, R255) -/
  | csumTwice (obj : Fin 1048576) (block : Nat)
  /-- a page of the cairn image with sequence number `seq` that cannot be read (R345) -/
  | flash (seq : Nat)
  deriving DecidableEq, Repr

/-- The parts of a Photer instruction word that its row does not fix (R115): PSEL, FLAGS, header bits [103:100] and bits [99:0]; and what
the detectors find in the reads of its fetch (R187, R249, R253). -/
structure Ins where
  psel : BitVec 4 := 0
  flags : BitVec 8 := 0
  rsv : BitVec 4 := 0
  opd : BitVec 100 := 0
  found : List Detect := []
  deriving DecidableEq, Repr

/-- What the SECDED decoder of the scratchpad reports for a read (R100). -/
inductive Ecc where
  | ok
  | corrected
  | uncorrectable
  deriving DecidableEq, Repr

/-- The units of a core that queue long operations, and its outbound port (R87, R96). -/
inductive CoreUnit where
  | farray
  | darray
  | warray
  | vector
  | voussoir
  | move
  | outbound
  deriving DecidableEq, Repr

/-- A row of footing: stack, pseudo-channel, bank and row (R243). -/
structure RowId where
  stack : Fin 8
  pch : Fin 64
  bank : Fin 64
  row : Fin 24576
  deriving DecidableEq, Repr

/-- An operand, and what the detectors find in the reads that the command makes. -/
structure Met (α : Type) where
  of : α
  found : List Detect
  deriving DecidableEq, Repr

/-- A received flit (R289): whether its FEC codeword is good, its header fields, its payload and its CRC. -/
structure Flit where
  fecOk : Bool
  fecCorrected : Bool
  vc : BitVec 2
  typ : BitVec 3
  seq : BitVec 12
  ack : BitVec 12
  rsv : BitVec 3
  payload : List Byte
  crc : W32
  deriving DecidableEq, Repr

/-- A message between modules: the header of R298, the data, and what a collective message carries besides (R303). `op` is the number by
which the sender knows the operation that a completion, a peer request or its data answers. -/
structure Msg where
  src : BitVec 14
  dst : BitVec 14
  kind : Nat
  course : Fin 4
  following : Bool
  bufClass : Bool
  epoch : BitVec 8
  len : Nat
  tag : BitVec 32
  off : Nat
  ctr : Option (BitVec 12)
  data : List Byte
  coll : Nat
  chunk : Nat
  clen : Nat
  efmt : Nat
  dtd : Bool
  hop : Nat
  op : Nat
  deriving DecidableEq, Repr

/-- The outcome of training one port (R291, R292): whether a partner was detected, the lanes that failed, and what the partner reports. -/
structure Training where
  partner : Bool
  failed : BitVec 9
  pgen : Byte
  pfeat : Byte
  pport : Fin 16
  serial : BitVec 48
  deriving DecidableEq, Repr

/-- What a neighbour reports over a course and direction at job start (R295). -/
structure Neighbour where
  course : Fin 4
  following : Bool
  node : BitVec 14
  pos : Vector Nat 4
  deriving DecidableEq, Repr

/-- What another module brings to a capture barrier (R337, R339). -/
structure CaptureInfo where
  taint : Bool
  noSnapshot : Bool
  newest : Nat
  deriving DecidableEq, Repr

/-- The verdict of a module in a replay check (R350). -/
inductive Verdict where
  | matches
  | differs
  | noReference
  deriving DecidableEq, Repr

/-- A lane that fails footing training (R247). `cmd` marks a command or address lane. -/
structure LaneFail where
  stack : Fin 8
  pch : Fin 64
  lane : Fin 38
  cmd : Bool
  deriving DecidableEq, Repr

/-- Who writes a BAR 0 register (R452). -/
inductive Requester where
  | host
  | debugPort
  | mason
  deriving DecidableEq, Repr

/-- Where a W1C register is cleared: at a BAR 0 address by the host, or GGE_ALERT through PLDM (R402). -/
inductive W1cAt where
  | bar0 (addr : Nat)
  | pldm
  deriving DecidableEq, Repr

/-- A keystone counter by the register that shows it (R331). -/
inductive Counter where
  | job (j : Fin 4096)
  | sys (k : Fin 64)
  | ctx (x : Fin 512) (c : Fin 32)
  deriving DecidableEq, Repr

/-- The two management buses (R400). -/
inductive Bus where
  | i3c
  | smbus
  deriving DecidableEq, Repr

/-- The calibration set (R403): an absent part is overwritten or invalid. -/
structure Calibration where
  presets : Option (List Byte)
  memory : Option (List Byte)
  voltage : Option (List Byte)
  trims : Option (List Byte)
  deriving DecidableEq, Repr, Inhabited

/-- Whether the CRC-32C of each calibration slot passes when gauge reads them at a start (R403). -/
structure CalCheck where
  newest : Bool
  older : Bool
  deriving DecidableEq, Repr

/-- The flash areas of the ledger (R432). -/
inductive Area where
  | cornerstone
  | ring
  | tail
  deriving DecidableEq, Repr

/-- What of the flash cannot be read at a start: units of the ledger (R432), and records of either copy of the repair records by position (R260). -/
structure FlashCheck where
  ledger : List (Area × Nat) := []
  repairA : List Nat := []
  repairB : List Nat := []
  deriving DecidableEq, Repr

/-- The numeric sensors of R401, and gauge's own status (R400). -/
inductive SensorId where
  | temp (i : Fin 96)
  | inputVolts
  | inputAmps
  | inputWatts
  | dieVolts (d : Fin 4)
  | dieAmps (d : Fin 4)
  | status
  deriving DecidableEq, Repr

/-- What gauge reads of the rails (R401): the input's power in W and current, and each compute-die rail's voltage and current. -/
structure Rails where
  watts : BitVec 16
  amps : BitVec 16
  dieVolts : Vector (BitVec 16) 4
  dieAmps : Vector (BitVec 16) 4
  deriving DecidableEq, Repr

/-- A memory write request on the PCIe link: its bytes, and whether its EP bit marks it poisoned (R373). -/
structure WriteTlp where
  bytes : List Byte
  poisoned : Bool
  deriving DecidableEq, Repr

/-- An access through the debug port (R399): a BAR 0 register, or a physical device address. -/
inductive PortAccess where
  | readReg (addr : Nat) (size : Nat)
  | writeReg (addr : Nat) (size : Nat) (v : W64)
  | readPhys (addr : W64)
  | writePhys (addr : W64) (v : Byte)
  deriving DecidableEq, Repr

/-- The commands of the module, one constructor per row of the table of operations and events. A Photer row is a context issuing that
instruction; a ring row is mason taking that entry; the others are events that reach the module. -/
inductive Instr where
  | ctlNop (x : Fin 512) (i : Ins)   -- CTL_NOP
  | ctlBr (x : Fin 512) (i : Ins)   -- CTL_BR
  | ctlBrx (x : Fin 512) (i : Ins)   -- CTL_BRX
  | ctlCall (x : Fin 512) (i : Ins)   -- CTL_CALL
  | ctlLoop (x : Fin 512) (i : Ins)   -- CTL_LOOP
  | ctlYield (x : Fin 512) (i : Ins)   -- CTL_YIELD
  | ctlDrain (x : Fin 512) (i : Ins)   -- CTL_DRAIN
  | ctlEnd (x : Fin 512) (i : Ins)   -- CTL_END
  | scaAdd (x : Fin 512) (i : Ins)   -- SCA_ADD
  | scaSub (x : Fin 512) (i : Ins)   -- SCA_SUB
  | scaMul (x : Fin 512) (i : Ins)   -- SCA_MUL
  | scaMaddi (x : Fin 512) (i : Ins)   -- SCA_MADDI
  | scaAnd (x : Fin 512) (i : Ins)   -- SCA_AND
  | scaOr (x : Fin 512) (i : Ins)   -- SCA_OR
  | scaXor (x : Fin 512) (i : Ins)   -- SCA_XOR
  | scaShl (x : Fin 512) (i : Ins)   -- SCA_SHL
  | scaShr (x : Fin 512) (i : Ins)   -- SCA_SHR
  | scaSar (x : Fin 512) (i : Ins)   -- SCA_SAR
  | scaMin (x : Fin 512) (i : Ins)   -- SCA_MIN
  | scaMax (x : Fin 512) (i : Ins)   -- SCA_MAX
  | scaMinu (x : Fin 512) (i : Ins)   -- SCA_MINU
  | scaMaxu (x : Fin 512) (i : Ins)   -- SCA_MAXU
  | scaCmpeq (x : Fin 512) (i : Ins)   -- SCA_CMPEQ
  | scaCmpne (x : Fin 512) (i : Ins)   -- SCA_CMPNE
  | scaCmplt (x : Fin 512) (i : Ins)   -- SCA_CMPLT
  | scaCmple (x : Fin 512) (i : Ins)   -- SCA_CMPLE
  | scaCmpltu (x : Fin 512) (i : Ins)   -- SCA_CMPLTU
  | scaCmpleu (x : Fin 512) (i : Ins)   -- SCA_CMPLEU
  | scaPand (x : Fin 512) (i : Ins)   -- SCA_PAND
  | scaPor (x : Fin 512) (i : Ins)   -- SCA_POR
  | scaPxor (x : Fin 512) (i : Ins)   -- SCA_PXOR
  | scaPnot (x : Fin 512) (i : Ins)   -- SCA_PNOT
  | scaLi (x : Fin 512) (i : Ins)   -- SCA_LI
  | scaId (x : Fin 512) (i : Ins)   -- SCA_ID
  | scaLd (x : Fin 512) (i : Ins) (e : Ecc)   -- SCA_LD
  | scaSt (x : Fin 512) (i : Ins)   -- SCA_ST
  | scaFadd32 (x : Fin 512) (i : Ins)   -- SCA_FADD32
  | scaFmul32 (x : Fin 512) (i : Ins)   -- SCA_FMUL32
  | scaFfma32 (x : Fin 512) (i : Ins)   -- SCA_FFMA32
  | scaI2f32 (x : Fin 512) (i : Ins)   -- SCA_I2F32
  | scaF2i32 (x : Fin 512) (i : Ins)   -- SCA_F2I32
  | scaSetimm (x : Fin 512) (i : Ins)   -- SCA_SETIMM
  | movLdt (x : Fin 512) (i : Ins)   -- MOV_LDT
  | movStt (x : Fin 512) (i : Ins)   -- MOV_STT
  | movLdb (x : Fin 512) (i : Ins)   -- MOV_LDB
  | movStb (x : Fin 512) (i : Ins)   -- MOV_STB
  | movSpcpy (x : Fin 512) (i : Ins)   -- MOV_SPCPY
  | movFill (x : Fin 512) (i : Ins)   -- MOV_FILL
  | movPref (x : Fin 512) (i : Ins)   -- MOV_PREF
  | matFwd (x : Fin 512) (i : Ins)   -- MAT_FWD
  | matDgrad (x : Fin 512) (i : Ins)   -- MAT_DGRAD
  | matWgrad (x : Fin 512) (i : Ins)   -- MAT_WGRAD
  | matWgradm (x : Fin 512) (i : Ins)   -- MAT_WGRADM
  | matDrain (x : Fin 512) (i : Ins)   -- MAT_DRAIN
  | matClear (x : Fin 512) (i : Ins)   -- MAT_CLEAR
  | matPdrain (x : Fin 512) (i : Ins)   -- MAT_PDRAIN
  | matCombine (x : Fin 512) (i : Ins)   -- MAT_COMBINE
  | vecAdd (x : Fin 512) (i : Ins)   -- VEC_ADD
  | vecSub (x : Fin 512) (i : Ins)   -- VEC_SUB
  | vecMul (x : Fin 512) (i : Ins)   -- VEC_MUL
  | vecFma (x : Fin 512) (i : Ins)   -- VEC_FMA
  | vecMax (x : Fin 512) (i : Ins)   -- VEC_MAX
  | vecMin (x : Fin 512) (i : Ins)   -- VEC_MIN
  | vecAbs (x : Fin 512) (i : Ins)   -- VEC_ABS
  | vecMuli (x : Fin 512) (i : Ins)   -- VEC_MULI
  | vecAddi (x : Fin 512) (i : Ins)   -- VEC_ADDI
  | vecSel (x : Fin 512) (i : Ins)   -- VEC_SEL
  | vecExp2 (x : Fin 512) (i : Ins)   -- VEC_EXP2
  | vecLog2 (x : Fin 512) (i : Ins)   -- VEC_LOG2
  | vecRcp (x : Fin 512) (i : Ins)   -- VEC_RCP
  | vecRsqrt (x : Fin 512) (i : Ins)   -- VEC_RSQRT
  | vecRsum (x : Fin 512) (i : Ins)   -- VEC_RSUM
  | vecRmax (x : Fin 512) (i : Ins)   -- VEC_RMAX
  | vecRamax (x : Fin 512) (i : Ins)   -- VEC_RAMAX
  | vecCvt (x : Fin 512) (i : Ins)   -- VEC_CVT
  | vecOptaw (x : Fin 512) (i : Ins)   -- VEC_OPTAW
  | vecOptms (x : Fin 512) (i : Ins)   -- VEC_OPTMS
  | attFwd (x : Fin 512) (i : Ins)   -- ATT_FWD
  | attBwd (x : Fin 512) (i : Ins)   -- ATT_BWD
  | synSignal (x : Fin 512) (i : Ins)   -- SYN_SIGNAL
  | synWait (x : Fin 512) (i : Ins)   -- SYN_WAIT
  | synSet (x : Fin 512) (i : Ins)   -- SYN_SET
  | arcRscat (x : Fin 512) (i : Ins)   -- ARC_RSCAT
  | arcAgath (x : Fin 512) (i : Ins)   -- ARC_AGATH
  | arcAred (x : Fin 512) (i : Ins)   -- ARC_ARED
  | arcSend (x : Fin 512) (i : Ins)   -- ARC_SEND
  | arcRecv (x : Fin 512) (i : Ins)   -- ARC_RECV
  | arcCirc (x : Fin 512) (i : Ins)   -- ARC_CIRC
  | arcOvor (x : Fin 512) (i : Ins)   -- ARC_OVOR
  | hodPin (x : Fin 512) (i : Ins)   -- HOD_PIN
  | hodUnpin (x : Fin 512) (i : Ins)   -- HOD_UNPIN
  | hodPromote (x : Fin 512) (i : Ins)   -- HOD_PROMOTE
  | hodDemote (x : Fin 512) (i : Ins)   -- HOD_DEMOTE
  | hodDrop (x : Fin 512) (i : Ins)   -- HOD_DROP
  | hodAppend (x : Fin 512) (i : Ins)   -- HOD_APPEND
  | hodTrim (x : Fin 512) (i : Ins)   -- HOD_TRIM
  | numRd (x : Fin 512) (i : Ins)   -- NUM_RD
  | numStepupd (x : Fin 512) (i : Ins)   -- NUM_STEPUPD
  | numStepbegin (x : Fin 512) (i : Ins)   -- NUM_STEPBEGIN
  | ingOpen (x : Fin 512) (i : Ins)   -- ING_OPEN
  | ingDecode (x : Fin 512) (i : Ins)   -- ING_DECODE
  | ingClose (x : Fin 512) (i : Ins)   -- ING_CLOSE
  | operationStart (k : Fin 64) (u : Met CoreUnit)   -- OPERATION_START
  | longOpComplete (id : Nat) (ds : List Detect)   -- LONG_OP_COMPLETE
  | contextSwitch (k : Fin 64)   -- CONTEXT_SWITCH
  | contextQuantum (k : Fin 64)   -- CONTEXT_QUANTUM
  | waitDelayExpiry (x : Fin 512)   -- WAIT_DELAY_EXPIRY
  | coreWdog (k : Fin 64)   -- CORE_WDOG
  | pageExhausted (id : Nat)   -- PAGE_EXHAUSTED
  | hodMoveComplete (o : Fin 1048576) (ds : List Detect)   -- HOD_MOVE_COMPLETE
  | recoveryComplete (o : Met (Fin 1048576))   -- RECOVERY_COMPLETE
  | softRepair (row : Met RowId)   -- SOFT_REPAIR
  | regionEmpty (region : Nat)   -- REGION_EMPTY
  | scrub (row : RowId) (ds : List Detect)   -- SCRUB
  | refresh (stack : Fin 8)   -- REFRESH
  | footingTempReading (temps : Vector (BitVec 8) 8)   -- FOOTING_TEMP_READING
  | flitReceive (port : Fin 16) (f : Flit)   -- FLIT_RECEIVE
  | nakReceived (port : Fin 16) (seq : BitVec 12)   -- NAK_RECEIVED
  | linkLossOfLock (port : Fin 16)   -- LINK_LOSS_OF_LOCK
  | linkRetrainDone (port : Fin 16) (r : Training)   -- LINK_RETRAIN_DONE
  | sendArrival (m : Msg)   -- SEND_ARRIVAL
  | circulationArrival (m : Msg)   -- CIRCULATION_ARRIVAL
  | reductionPartialArrival (m : Met Msg)   -- REDUCTION_PARTIAL_ARRIVAL
  | gatherArrival (m : Msg)   -- GATHER_ARRIVAL
  | orContributionArrival (m : Msg)   -- OR_CONTRIBUTION_ARRIVAL
  | orDelivery   -- OR_DELIVERY
  | remoteSignalArrival (m : Msg)   -- REMOTE_SIGNAL_ARRIVAL
  | completionArrival (m : Msg)   -- COMPLETION_ARRIVAL
  | peerReadRequest (m : Met Msg)   -- PEER_READ_REQUEST
  | peerData (m : Msg)   -- PEER_DATA
  | epochMarker (pair : Fin 8) (vc : Fin 4) (epoch : BitVec 8)   -- EPOCH_MARKER
  | decodeStart (e : Fin 8)   -- DECODE_START
  | decodeComplete (e : Fin 8) (ds : List Detect)   -- DECODE_COMPLETE
  | qryWdog (e : Fin 8)   -- QRY_WDOG
  | create (e : BitVec 512)   -- CREATE
  | destroy (e : BitVec 512)   -- DESTROY
  | promote (e : BitVec 512)   -- PROMOTE
  | demote (e : BitVec 512)   -- DEMOTE
  | registerClass (e : BitVec 512)   -- REGISTER
  | codeLoad (e : BitVec 512)   -- CODE_LOAD
  | jobStart (e : BitVec 512) (reports : List Neighbour)   -- JOB_START
  | preempt (e : BitVec 512)   -- PREEMPT
  | resume (e : BitVec 512)   -- RESUME
  | jobStop (e : BitVec 512)   -- JOB_STOP
  /-- RESTORE. A flash page of the manifest that cannot be read is among what its reads find (R345). -/
  | restore (e : Met (BitVec 512))
  | restoreBarrier (others : Met (List (BitVec 512)))   -- RESTORE_BARRIER
  | sourceDone (e : BitVec 512)   -- SOURCE_DONE
  | continueJob (e : BitVec 512)   -- CONTINUE
  | startEntry (r : Fin 32) (e : BitVec 512)   -- START
  | startDispatch (r : Fin 32)   -- START_DISPATCH
  | doorbell (r : Fin 32) (v : W32)   -- DOORBELL
  | ringEnable (r : Fin 32) (v : W32)   -- RING_ENABLE
  | ringDisable (r : Fin 32) (v : W32)   -- RING_DISABLE
  | cqHeadWrite (r : Fin 32) (v : W32)   -- CQ_HEAD_WRITE
  | hodEntrySel (v : W32)   -- HOD_ENTRY_SEL
  | ldgReadSel (v : W64)   -- LDG_READ_SEL
  | injectionArm (v : W64)   -- INJECTION_ARM
  | kstDebugSet (c : Counter) (v : W32)   -- KST_DEBUG_SET
  | w1cClear (at_ : W1cAt) (v : W32) (events : W32)   -- W1C_CLEAR
  | registerWrite (q : Requester) (addr : Nat) (size : Nat) (v : W64)   -- REGISTER_WRITE
  | bar2Read (w : Fin 256) (off : Fin 1073741824) (len : Nat) (ds : List Detect)   -- BAR2_READ
  | bar2Write (w : Fin 256) (off : Fin 1073741824) (data : Met WriteTlp)   -- BAR2_WRITE
  | bar2ReadTimeout (id : Nat)   -- BAR2_READ_TIMEOUT
  | configRequest   -- CONFIG_REQUEST
  | functionLevelReset   -- FUNCTION_LEVEL_RESET
  | perstN   -- PERST_N
  | captureQuiescent   -- CAPTURE_QUIESCENT
  | captureBarrier (others : Met (List CaptureInfo))   -- CAPTURE_BARRIER
  | captureEndBarrier   -- CAPTURE_END_BARRIER
  | prsQuiesceTimeout   -- PRS_QUIESCE_TIMEOUT
  | cairnDrainComplete (readable : Bool)   -- CAIRN_DRAIN_COMPLETE
  | replayVerdict (others : List Verdict)   -- REPLAY_VERDICT
  | msnWdog (m : Fin 4)   -- MSN_WDOG
  | budgetRefill   -- BUDGET_REFILL
  | forcedFlush   -- FORCED_FLUSH
  | ledgerDrop   -- LEDGER_DROP
  /-- POWER_ON, with the calibration slots that pass their CRC (R403) and what fails in flash (R260, R432). -/
  | powerOn (calibration : CalCheck) (unreadable : FlashCheck)   -- POWER_ON
  | sealBoot   -- SEAL_BOOT
  | masonStart   -- MASON_START
  | computeRailUp (failed : List (Fin 68))   -- COMPUTE_RAIL_UP
  | coreGroupEnable   -- CORE_GROUP_ENABLE
  | footingTraining (lanes : List LaneFail) (failedStacks : List (Fin 8))   -- FOOTING_TRAINING
  /-- UNDERCROFT_TRAINING, with the channel that fails to train, if one does. -/
  | undercroftTraining (failed : Option (Fin 64))
  /-- PATTERN_TEST_DONE, with the regions that fail and the channel that finds each. -/
  | patternTestDone (regions : List (Fin 524288 × Fin 64))
  | repairReplay (failing : List RowId)   -- REPAIR_REPLAY
  | linkTraining (r : Vector Training 16)   -- LINK_TRAINING
  | hodInit   -- HOD_INIT
  | moduleReady   -- MODULE_READY
  | supplyWarn (volts : BitVec 16)   -- SUPPLY_WARN
  | warningReleased   -- WARNING_RELEASED
  | supplyRecoveryDone   -- SUPPLY_RECOVERY_DONE
  | supplyFail (volts : BitVec 16)   -- SUPPLY_FAIL
  | alwaysOnLost   -- ALWAYS_ON_LOST
  | plnRailFail (rail : Fin 15)   -- PLN_RAIL_FAIL
  | plnPllUnlock   -- PLN_PLL_UNLOCK
  | droopDetect (g : Fin 8)   -- DROOP_DETECT
  | arrayRampWindow (k : Fin 64) (a : Fin 3)   -- ARRAY_RAMP_WINDOW
  | sensorReading (temps : Vector (Option Int) 96) (vin : BitVec 16) (rails : Rails)   -- SENSOR_READING
  | endpointIdAssign (bus : Bus) (eid : Byte)   -- ENDPOINT_ID_ASSIGN
  | getVersion (bus : Bus)   -- GET_VERSION
  | getCapabilities (bus : Bus)   -- GET_CAPABILITIES
  | negotiateAlgorithms (bus : Bus)   -- NEGOTIATE_ALGORITHMS
  | getDigests (bus : Bus)   -- GET_DIGESTS
  | getCertificate (bus : Bus) (slot : Nat) (off : Nat) (len : Nat)   -- GET_CERTIFICATE
  | challenge (bus : Bus) (nonce : BitVec 256)   -- CHALLENGE
  | getMeasurements (bus : Bus) (index : Nat) (nonce : Option (BitVec 256))   -- GET_MEASUREMENTS
  | keyExchange (bus : Bus)   -- KEY_EXCHANGE
  | pskExchange (bus : Bus)   -- PSK_EXCHANGE
  | spdmSigningDone   -- SPDM_SIGNING_DONE
  | firmwareUpdateWrite (component : Fin 6) (image : List Byte)   -- FIRMWARE_UPDATE_WRITE
  | verifyComplete   -- VERIFY_COMPLETE
  | activateFirmware   -- ACTIVATE_FIRMWARE
  | pldmSensorRead (bus : Bus) (i : SensorId) (reading : Bool)   -- PLDM_SENSOR_READ
  | nonceRequest (bus : Bus)   -- NONCE_REQUEST
  | debugToken (bus : Bus) (token : List Byte)   -- DEBUG_TOKEN
  | calibrationRead (bus : Bus)   -- CALIBRATION_READ
  | calibrationWrite (bus : Bus) (c : Calibration)   -- CALIBRATION_WRITE
  | ledgerReadMessage (bus : Bus) (seq : W64)   -- LEDGER_READ_MESSAGE
  | debugPortAccess (a : PortAccess)   -- DEBUG_PORT_ACCESS
  | warningWindowExpiry   -- WARNING_WINDOW_EXPIRY
  | ledgerFlashProgramDone (ok : Bool)   -- LEDGER_FLASH_PROGRAM_DONE
  | pcieLinkTraining (width : BitVec 4) (speed : BitVec 4)   -- PCIE_LINK_TRAINING
  deriving DecidableEq, Repr

end Sys2Proof
end

