-- ==== Sys2Proof/Decode.lean ====
section
/-! DEFINITION. Instruction words. The table of operations gives its rows no bits, so no word spells a command by that table; a Photer instruction
has its 128-bit word all the same (R115, R118, R119), read and written here. -/

namespace Sys2Proof

/-- The command that a word of the table's bits spells: no row gives bits. -/
def decodeTableWord (_nbits _w : Nat) : Option Instr := none

namespace Photer

/-- A 128-bit instruction word from CLASS, OP and the rest (R115). -/
def pack (cls : BitVec 4) (op : BitVec 8) (i : Ins) : BitVec 128 := cls ++ op ++ i.psel ++ i.flags ++ i.rsv ++ i.opd

/-- CLASS, OP and the rest of an instruction word. -/
def clsOf (w : BitVec 128) : BitVec 4 := w.extractLsb' 124 4
def opOf (w : BitVec 128) : BitVec 8 := w.extractLsb' 116 8
def insOf (w : BitVec 128) : Ins :=
  { psel := w.extractLsb' 112 4, flags := w.extractLsb' 104 8, rsv := w.extractLsb' 100 4, opd := w.extractLsb' 0 100 }

/-- The operations of class CTL (R119). -/
def ctlOp (x : Fin 512) (_e : Ecc) (i : Ins) (op : Nat) : Option Instr :=
  match op with
  | 0x00 => some (.ctlNop x i)
  | 0x01 => some (.ctlBr x i)
  | 0x02 => some (.ctlBrx x i)
  | 0x03 => some (.ctlCall x i)
  | 0x04 => some (.ctlLoop x i)
  | 0x05 => some (.ctlYield x i)
  | 0x06 => some (.ctlDrain x i)
  | 0x07 => some (.ctlEnd x i)
  | _ => none

/-- The operations of class SCA (R119). -/
def scaOp (x : Fin 512) (e : Ecc) (i : Ins) (op : Nat) : Option Instr :=
  match op with
  | 0x00 => some (.scaAdd x i)
  | 0x01 => some (.scaSub x i)
  | 0x02 => some (.scaMul x i)
  | 0x03 => some (.scaMaddi x i)
  | 0x04 => some (.scaAnd x i)
  | 0x05 => some (.scaOr x i)
  | 0x06 => some (.scaXor x i)
  | 0x07 => some (.scaShl x i)
  | 0x08 => some (.scaShr x i)
  | 0x09 => some (.scaSar x i)
  | 0x0A => some (.scaMin x i)
  | 0x0B => some (.scaMax x i)
  | 0x0C => some (.scaMinu x i)
  | 0x0D => some (.scaMaxu x i)
  | 0x10 => some (.scaCmpeq x i)
  | 0x11 => some (.scaCmpne x i)
  | 0x12 => some (.scaCmplt x i)
  | 0x13 => some (.scaCmple x i)
  | 0x14 => some (.scaCmpltu x i)
  | 0x15 => some (.scaCmpleu x i)
  | 0x18 => some (.scaPand x i)
  | 0x19 => some (.scaPor x i)
  | 0x1A => some (.scaPxor x i)
  | 0x1B => some (.scaPnot x i)
  | 0x20 => some (.scaLi x i)
  | 0x21 => some (.scaId x i)
  | 0x28 => some (.scaLd x i e)
  | 0x29 => some (.scaSt x i)
  | 0x30 => some (.scaFadd32 x i)
  | 0x31 => some (.scaFmul32 x i)
  | 0x32 => some (.scaFfma32 x i)
  | 0x33 => some (.scaI2f32 x i)
  | 0x34 => some (.scaF2i32 x i)
  | 0x38 => some (.scaSetimm x i)
  | _ => none

/-- The operations of class MOV (R119). -/
def movOp (x : Fin 512) (_e : Ecc) (i : Ins) (op : Nat) : Option Instr :=
  match op with
  | 0x00 => some (.movLdt x i)
  | 0x01 => some (.movStt x i)
  | 0x02 => some (.movLdb x i)
  | 0x03 => some (.movStb x i)
  | 0x04 => some (.movSpcpy x i)
  | 0x05 => some (.movFill x i)
  | 0x06 => some (.movPref x i)
  | _ => none

/-- The operations of class MAT (R119). -/
def matOp (x : Fin 512) (_e : Ecc) (i : Ins) (op : Nat) : Option Instr :=
  match op with
  | 0x00 => some (.matFwd x i)
  | 0x01 => some (.matDgrad x i)
  | 0x02 => some (.matWgrad x i)
  | 0x03 => some (.matWgradm x i)
  | 0x08 => some (.matDrain x i)
  | 0x09 => some (.matClear x i)
  | 0x0A => some (.matPdrain x i)
  | 0x0B => some (.matCombine x i)
  | _ => none

/-- The operations of class VEC (R119). -/
def vecOp (x : Fin 512) (_e : Ecc) (i : Ins) (op : Nat) : Option Instr :=
  match op with
  | 0x00 => some (.vecAdd x i)
  | 0x01 => some (.vecSub x i)
  | 0x02 => some (.vecMul x i)
  | 0x03 => some (.vecFma x i)
  | 0x04 => some (.vecMax x i)
  | 0x05 => some (.vecMin x i)
  | 0x06 => some (.vecAbs x i)
  | 0x07 => some (.vecMuli x i)
  | 0x08 => some (.vecAddi x i)
  | 0x09 => some (.vecSel x i)
  | 0x10 => some (.vecExp2 x i)
  | 0x11 => some (.vecLog2 x i)
  | 0x12 => some (.vecRcp x i)
  | 0x13 => some (.vecRsqrt x i)
  | 0x18 => some (.vecRsum x i)
  | 0x19 => some (.vecRmax x i)
  | 0x1A => some (.vecRamax x i)
  | 0x20 => some (.vecCvt x i)
  | 0x28 => some (.vecOptaw x i)
  | 0x29 => some (.vecOptms x i)
  | _ => none

/-- The operations of class ATT (R119). -/
def attOp (x : Fin 512) (_e : Ecc) (i : Ins) (op : Nat) : Option Instr :=
  match op with
  | 0x00 => some (.attFwd x i)
  | 0x01 => some (.attBwd x i)
  | _ => none

/-- The operations of class SYN (R119). -/
def synOp (x : Fin 512) (_e : Ecc) (i : Ins) (op : Nat) : Option Instr :=
  match op with
  | 0x00 => some (.synSignal x i)
  | 0x01 => some (.synWait x i)
  | 0x02 => some (.synSet x i)
  | _ => none

/-- The operations of class ARC (R119). -/
def arcOp (x : Fin 512) (_e : Ecc) (i : Ins) (op : Nat) : Option Instr :=
  match op with
  | 0x00 => some (.arcRscat x i)
  | 0x01 => some (.arcAgath x i)
  | 0x02 => some (.arcAred x i)
  | 0x08 => some (.arcSend x i)
  | 0x09 => some (.arcRecv x i)
  | 0x10 => some (.arcCirc x i)
  | 0x18 => some (.arcOvor x i)
  | _ => none

/-- The operations of class HOD (R119). -/
def hodOp (x : Fin 512) (_e : Ecc) (i : Ins) (op : Nat) : Option Instr :=
  match op with
  | 0x00 => some (.hodPin x i)
  | 0x01 => some (.hodUnpin x i)
  | 0x02 => some (.hodPromote x i)
  | 0x03 => some (.hodDemote x i)
  | 0x04 => some (.hodDrop x i)
  | 0x08 => some (.hodAppend x i)
  | 0x09 => some (.hodTrim x i)
  | _ => none

/-- The operations of class NUM (R119). -/
def numOp (x : Fin 512) (_e : Ecc) (i : Ins) (op : Nat) : Option Instr :=
  match op with
  | 0x00 => some (.numRd x i)
  | 0x01 => some (.numStepupd x i)
  | 0x02 => some (.numStepbegin x i)
  | _ => none

/-- The operations of class ING (R119). -/
def ingOp (x : Fin 512) (_e : Ecc) (i : Ins) (op : Nat) : Option Instr :=
  match op with
  | 0x00 => some (.ingOpen x i)
  | 0x01 => some (.ingDecode x i)
  | 0x02 => some (.ingClose x i)
  | _ => none

/-- The instruction of a CLASS and OP; CLASS 0xB to 0xF is reserved (R118). -/
def instrOf (x : Fin 512) (e : Ecc) (i : Ins) (cls op : Nat) : Option Instr :=
  match cls with
  | 0x0 => ctlOp x e i op
  | 0x1 => scaOp x e i op
  | 0x2 => movOp x e i op
  | 0x3 => matOp x e i op
  | 0x4 => vecOp x e i op
  | 0x5 => attOp x e i op
  | 0x6 => synOp x e i op
  | 0x7 => arcOp x e i op
  | 0x8 => hodOp x e i op
  | 0x9 => numOp x e i op
  | 0xA => ingOp x e i op
  | _ => none

/-- The instruction that a word spells when context `x` issues it; none for an undefined CLASS or OP, which raises ILLEGAL_ENCODING (R117). `e` is what
the scratchpad's SECDED decoder will report to an SCA.LD. -/
def decode (x : Fin 512) (e : Ecc) (w : BitVec 128) : Option Instr := instrOf x e (insOf w) (clsOf w).toNat (opOf w).toNat

/-- The issuing context and the word of a Photer instruction; none for any other command. -/
def encode (c : Instr) : Option (Fin 512 × BitVec 128) :=
  match c with
  | .ctlNop x i => some (x, pack 0x0 0x00 i)
  | .ctlBr x i => some (x, pack 0x0 0x01 i)
  | .ctlBrx x i => some (x, pack 0x0 0x02 i)
  | .ctlCall x i => some (x, pack 0x0 0x03 i)
  | .ctlLoop x i => some (x, pack 0x0 0x04 i)
  | .ctlYield x i => some (x, pack 0x0 0x05 i)
  | .ctlDrain x i => some (x, pack 0x0 0x06 i)
  | .ctlEnd x i => some (x, pack 0x0 0x07 i)
  | .scaAdd x i => some (x, pack 0x1 0x00 i)
  | .scaSub x i => some (x, pack 0x1 0x01 i)
  | .scaMul x i => some (x, pack 0x1 0x02 i)
  | .scaMaddi x i => some (x, pack 0x1 0x03 i)
  | .scaAnd x i => some (x, pack 0x1 0x04 i)
  | .scaOr x i => some (x, pack 0x1 0x05 i)
  | .scaXor x i => some (x, pack 0x1 0x06 i)
  | .scaShl x i => some (x, pack 0x1 0x07 i)
  | .scaShr x i => some (x, pack 0x1 0x08 i)
  | .scaSar x i => some (x, pack 0x1 0x09 i)
  | .scaMin x i => some (x, pack 0x1 0x0A i)
  | .scaMax x i => some (x, pack 0x1 0x0B i)
  | .scaMinu x i => some (x, pack 0x1 0x0C i)
  | .scaMaxu x i => some (x, pack 0x1 0x0D i)
  | .scaCmpeq x i => some (x, pack 0x1 0x10 i)
  | .scaCmpne x i => some (x, pack 0x1 0x11 i)
  | .scaCmplt x i => some (x, pack 0x1 0x12 i)
  | .scaCmple x i => some (x, pack 0x1 0x13 i)
  | .scaCmpltu x i => some (x, pack 0x1 0x14 i)
  | .scaCmpleu x i => some (x, pack 0x1 0x15 i)
  | .scaPand x i => some (x, pack 0x1 0x18 i)
  | .scaPor x i => some (x, pack 0x1 0x19 i)
  | .scaPxor x i => some (x, pack 0x1 0x1A i)
  | .scaPnot x i => some (x, pack 0x1 0x1B i)
  | .scaLi x i => some (x, pack 0x1 0x20 i)
  | .scaId x i => some (x, pack 0x1 0x21 i)
  | .scaLd x i _ => some (x, pack 0x1 0x28 i)
  | .scaSt x i => some (x, pack 0x1 0x29 i)
  | .scaFadd32 x i => some (x, pack 0x1 0x30 i)
  | .scaFmul32 x i => some (x, pack 0x1 0x31 i)
  | .scaFfma32 x i => some (x, pack 0x1 0x32 i)
  | .scaI2f32 x i => some (x, pack 0x1 0x33 i)
  | .scaF2i32 x i => some (x, pack 0x1 0x34 i)
  | .scaSetimm x i => some (x, pack 0x1 0x38 i)
  | .movLdt x i => some (x, pack 0x2 0x00 i)
  | .movStt x i => some (x, pack 0x2 0x01 i)
  | .movLdb x i => some (x, pack 0x2 0x02 i)
  | .movStb x i => some (x, pack 0x2 0x03 i)
  | .movSpcpy x i => some (x, pack 0x2 0x04 i)
  | .movFill x i => some (x, pack 0x2 0x05 i)
  | .movPref x i => some (x, pack 0x2 0x06 i)
  | .matFwd x i => some (x, pack 0x3 0x00 i)
  | .matDgrad x i => some (x, pack 0x3 0x01 i)
  | .matWgrad x i => some (x, pack 0x3 0x02 i)
  | .matWgradm x i => some (x, pack 0x3 0x03 i)
  | .matDrain x i => some (x, pack 0x3 0x08 i)
  | .matClear x i => some (x, pack 0x3 0x09 i)
  | .matPdrain x i => some (x, pack 0x3 0x0A i)
  | .matCombine x i => some (x, pack 0x3 0x0B i)
  | .vecAdd x i => some (x, pack 0x4 0x00 i)
  | .vecSub x i => some (x, pack 0x4 0x01 i)
  | .vecMul x i => some (x, pack 0x4 0x02 i)
  | .vecFma x i => some (x, pack 0x4 0x03 i)
  | .vecMax x i => some (x, pack 0x4 0x04 i)
  | .vecMin x i => some (x, pack 0x4 0x05 i)
  | .vecAbs x i => some (x, pack 0x4 0x06 i)
  | .vecMuli x i => some (x, pack 0x4 0x07 i)
  | .vecAddi x i => some (x, pack 0x4 0x08 i)
  | .vecSel x i => some (x, pack 0x4 0x09 i)
  | .vecExp2 x i => some (x, pack 0x4 0x10 i)
  | .vecLog2 x i => some (x, pack 0x4 0x11 i)
  | .vecRcp x i => some (x, pack 0x4 0x12 i)
  | .vecRsqrt x i => some (x, pack 0x4 0x13 i)
  | .vecRsum x i => some (x, pack 0x4 0x18 i)
  | .vecRmax x i => some (x, pack 0x4 0x19 i)
  | .vecRamax x i => some (x, pack 0x4 0x1A i)
  | .vecCvt x i => some (x, pack 0x4 0x20 i)
  | .vecOptaw x i => some (x, pack 0x4 0x28 i)
  | .vecOptms x i => some (x, pack 0x4 0x29 i)
  | .attFwd x i => some (x, pack 0x5 0x00 i)
  | .attBwd x i => some (x, pack 0x5 0x01 i)
  | .synSignal x i => some (x, pack 0x6 0x00 i)
  | .synWait x i => some (x, pack 0x6 0x01 i)
  | .synSet x i => some (x, pack 0x6 0x02 i)
  | .arcRscat x i => some (x, pack 0x7 0x00 i)
  | .arcAgath x i => some (x, pack 0x7 0x01 i)
  | .arcAred x i => some (x, pack 0x7 0x02 i)
  | .arcSend x i => some (x, pack 0x7 0x08 i)
  | .arcRecv x i => some (x, pack 0x7 0x09 i)
  | .arcCirc x i => some (x, pack 0x7 0x10 i)
  | .arcOvor x i => some (x, pack 0x7 0x18 i)
  | .hodPin x i => some (x, pack 0x8 0x00 i)
  | .hodUnpin x i => some (x, pack 0x8 0x01 i)
  | .hodPromote x i => some (x, pack 0x8 0x02 i)
  | .hodDemote x i => some (x, pack 0x8 0x03 i)
  | .hodDrop x i => some (x, pack 0x8 0x04 i)
  | .hodAppend x i => some (x, pack 0x8 0x08 i)
  | .hodTrim x i => some (x, pack 0x8 0x09 i)
  | .numRd x i => some (x, pack 0x9 0x00 i)
  | .numStepupd x i => some (x, pack 0x9 0x01 i)
  | .numStepbegin x i => some (x, pack 0x9 0x02 i)
  | .ingOpen x i => some (x, pack 0xA 0x00 i)
  | .ingDecode x i => some (x, pack 0xA 0x01 i)
  | .ingClose x i => some (x, pack 0xA 0x02 i)
  | .operationStart .. => none
  | .longOpComplete .. => none
  | .contextSwitch .. => none
  | .contextQuantum .. => none
  | .waitDelayExpiry .. => none
  | .coreWdog .. => none
  | .pageExhausted .. => none
  | .hodMoveComplete .. => none
  | .recoveryComplete .. => none
  | .softRepair .. => none
  | .regionEmpty .. => none
  | .scrub .. => none
  | .refresh .. => none
  | .footingTempReading .. => none
  | .flitReceive .. => none
  | .nakReceived .. => none
  | .linkLossOfLock .. => none
  | .linkRetrainDone .. => none
  | .sendArrival .. => none
  | .circulationArrival .. => none
  | .reductionPartialArrival .. => none
  | .gatherArrival .. => none
  | .orContributionArrival .. => none
  | .orDelivery .. => none
  | .remoteSignalArrival .. => none
  | .completionArrival .. => none
  | .peerReadRequest .. => none
  | .peerData .. => none
  | .epochMarker .. => none
  | .decodeStart .. => none
  | .decodeComplete .. => none
  | .qryWdog .. => none
  | .create .. => none
  | .destroy .. => none
  | .promote .. => none
  | .demote .. => none
  | .registerClass .. => none
  | .codeLoad .. => none
  | .jobStart .. => none
  | .preempt .. => none
  | .resume .. => none
  | .jobStop .. => none
  | .restore .. => none
  | .restoreBarrier .. => none
  | .sourceDone .. => none
  | .continueJob .. => none
  | .startEntry .. => none
  | .startDispatch .. => none
  | .doorbell .. => none
  | .ringEnable .. => none
  | .ringDisable .. => none
  | .cqHeadWrite .. => none
  | .hodEntrySel .. => none
  | .ldgReadSel .. => none
  | .injectionArm .. => none
  | .kstDebugSet .. => none
  | .w1cClear .. => none
  | .registerWrite .. => none
  | .bar2Read .. => none
  | .bar2Write .. => none
  | .bar2ReadTimeout .. => none
  | .configRequest .. => none
  | .functionLevelReset .. => none
  | .perstN .. => none
  | .captureQuiescent .. => none
  | .captureBarrier .. => none
  | .captureEndBarrier => none
  | .prsQuiesceTimeout .. => none
  | .cairnDrainComplete .. => none
  | .replayVerdict .. => none
  | .msnWdog .. => none
  | .budgetRefill .. => none
  | .forcedFlush .. => none
  | .ledgerDrop .. => none
  | .powerOn .. => none
  | .sealBoot .. => none
  | .masonStart .. => none
  | .computeRailUp .. => none
  | .coreGroupEnable .. => none
  | .footingTraining .. => none
  | .undercroftTraining .. => none
  | .patternTestDone .. => none
  | .repairReplay .. => none
  | .linkTraining .. => none
  | .hodInit .. => none
  | .moduleReady .. => none
  | .supplyWarn .. => none
  | .warningReleased .. => none
  | .supplyRecoveryDone .. => none
  | .supplyFail .. => none
  | .alwaysOnLost .. => none
  | .plnRailFail .. => none
  | .plnPllUnlock .. => none
  | .droopDetect .. => none
  | .arrayRampWindow .. => none
  | .sensorReading .. => none
  | .endpointIdAssign .. => none
  | .getVersion .. => none
  | .getCapabilities .. => none
  | .negotiateAlgorithms .. => none
  | .getDigests .. => none
  | .getCertificate .. => none
  | .challenge .. => none
  | .getMeasurements .. => none
  | .keyExchange .. => none
  | .pskExchange .. => none
  | .spdmSigningDone .. => none
  | .firmwareUpdateWrite .. => none
  | .verifyComplete .. => none
  | .activateFirmware .. => none
  | .pldmSensorRead .. => none
  | .nonceRequest .. => none
  | .debugToken .. => none
  | .calibrationRead .. => none
  | .calibrationWrite .. => none
  | .ledgerReadMessage .. => none
  | .debugPortAccess .. => none
  | .warningWindowExpiry .. => none
  | .ledgerFlashProgramDone .. => none
  | .pcieLinkTraining .. => none

end Photer

end Sys2Proof
end

