-- ==== Sys2Proof/Machine/Tab.lean ====
section
/-! DEFINITION. Sparse tables: a list of (key, value) pairs in one canonical form, keys strictly rising and no value equal to the
one an unlisted key reads as. Register files, object tables and memories are all held this way. -/

namespace Sys2Proof

/-- A sparse table; the value an unlisted key reads as is given by each reader. -/
abbrev Tab (α : Type) := List (Nat × α)

/-- The value at a key, `d` where the key is not listed. -/
def Tab.get {α : Type} (d : α) : Tab α → Nat → α
  | [], _ => d
  | (a, v) :: r, k => if a = k then v else Tab.get d r k

/-- The table with keys `base` to `base + vs.length - 1` holding `vs`; values equal to the default are not listed. -/
def Tab.enc {α : Type} [DecidableEq α] (d : α) : Nat → List α → Tab α
  | _, [] => []
  | b, v :: vs => if v = d then Tab.enc d (b + 1) vs else (b, v) :: Tab.enc d (b + 1) vs

/-- Writes consecutive keys from `base`, keeping the canonical form. -/
def Tab.setRange {α : Type} [DecidableEq α] (d : α) (t : Tab α) (base : Nat) (vs : List α) : Tab α :=
  t.filter (fun p => p.1 < base) ++ Tab.enc d base vs ++ t.filter (fun p => base + vs.length ≤ p.1)

/-- Writes one key. -/
def Tab.set {α : Type} [DecidableEq α] (d : α) (t : Tab α) (k : Nat) (v : α) : Tab α :=
  Tab.setRange d t k [v]

/-- Drops every key of a range, so that it reads as unlisted. -/
def Tab.clearRange {α : Type} (t : Tab α) (base n : Nat) : Tab α :=
  t.filter (fun p => p.1 < base) ++ t.filter (fun p => base + n ≤ p.1)

/-- `n` consecutive values from `base`, from a table whose keys lie at or above it. -/
def Tab.take {α : Type} (d : α) : Tab α → Nat → Nat → List α
  | _, _, 0 => []
  | [], b, n + 1 => d :: Tab.take d [] (b + 1) n
  | (a, v) :: r, b, n + 1 => if a = b then v :: Tab.take d r (b + 1) n else d :: Tab.take d ((a, v) :: r) (b + 1) n

/-- `n` consecutive values from `base`. -/
def Tab.range {α : Type} (d : α) (t : Tab α) (base n : Nat) : List α :=
  Tab.take d (t.filter (fun p => base ≤ p.1)) base n

/-- The canonical form: keys strictly rising, no value equal to the default. -/
def Tab.wf {α : Type} [DecidableEq α] (d : α) (t : Tab α) : Bool :=
  decide (t.Pairwise (fun p q => p.1 < q.1)) && t.all (fun p => decide (p.2 ≠ d))

end Sys2Proof
end

