-- ==== Sys2Proof/Machine/Crypto.lean ====
section
/-! DEFINITION. CRC-32C (R252), the CRC-32 of flits (R289) and SHA-256 (FIPS 180-4; R138, R347, R390). -/

namespace Sys2Proof.Machine

/-- Bit steps of a reflected CRC with the reflected polynomial `p`. -/
def crcBit (p : Nat) : Nat → Nat → Nat
  | 0, c => c
  | n + 1, c => crcBit p n (if c % 2 = 1 then (c / 2) ^^^ p else c / 2)

/-- A reflected CRC over bytes from a running value. -/
def crcFrom (p c : Nat) : List Byte → Nat
  | [] => c
  | b :: r => crcFrom p (crcBit p 8 (c ^^^ b.toNat)) r

/-- CRC-32C (R252): polynomial 0x1EDC_6F41, reflected, with initial value and final XOR 0xFFFF_FFFF. -/
def crc32c (bs : List Byte) : Nat := crcFrom 0x82F63B78 0xFFFFFFFF bs ^^^ 0xFFFFFFFF

/-- The CRC-32 of IEEE 802.3 (R289): polynomial 0x04C1_1DB7, reflected, with initial value and final XOR 0xFFFF_FFFF. -/
def crc32 (bs : List Byte) : Nat := crcFrom 0xEDB88320 0xFFFFFFFF bs ^^^ 0xFFFFFFFF

/-- The first 64 primes, 2 to 311. -/
def shaPrimes : List Nat := (List.range 312).filter (fun n => 2 ≤ n && [2, 3, 5, 7, 11, 13, 17].all (fun d => n == d || n % d != 0))

/-- The greatest number `r + x` with `x < 2 ^ n` whose `k`-th power does not exceed `m`. -/
def rootBits (k m : Nat) : Nat → Nat → Nat
  | 0, r => r
  | n + 1, r => rootBits k m n (if (r + 2 ^ n) ^ k ≤ m then r + 2 ^ n else r)

/-- The first 32 bits of the fractional part of the `k`-th root of `p`, from which FIPS 180-4 takes its constants. -/
def rootFraction (k p : Nat) : Nat := rootBits k (p * 2 ^ (32 * k)) 36 0 % 2 ^ 32

/-- The 64 round constants: cube roots of the primes. -/
def shaRoundConstants : List Nat := shaPrimes.map (rootFraction 3)

/-- The eight initial words: square roots of the first eight primes. -/
def shaInitial : List Nat := (shaPrimes.take 8).map (rootFraction 2)

/-- Rotation right of a 32-bit word. -/
def rotr (x n : Nat) : Nat := (x / 2 ^ n) ||| (x * 2 ^ (32 - n) % 2 ^ 32)

/-- The message schedule: `w` holds the words so far, newest first. -/
def shaExpand : Nat → List Nat → List Nat
  | 0, w => w.reverse
  | n + 1, w =>
    let a := w.getD 14 0
    let b := w.getD 1 0
    let s0 := rotr a 7 ^^^ rotr a 18 ^^^ (a / 8)
    let s1 := rotr b 17 ^^^ rotr b 19 ^^^ (b / 1024)
    shaExpand n ((w.getD 15 0 + s0 + w.getD 6 0 + s1) % 2 ^ 32 :: w)

/-- The eight working variables. -/
structure Sha where
  a : Nat
  b : Nat
  c : Nat
  d : Nat
  e : Nat
  f : Nat
  g : Nat
  h : Nat
  deriving DecidableEq, Repr

/-- One compression round. -/
def shaRound (s : Sha) (kw : Nat) : Sha :=
  let s1 := rotr s.e 6 ^^^ rotr s.e 11 ^^^ rotr s.e 25
  let ch := (s.e &&& s.f) ^^^ ((2 ^ 32 - 1 - s.e) &&& s.g)
  let t1 := s.h + s1 + ch + kw
  let s0 := rotr s.a 2 ^^^ rotr s.a 13 ^^^ rotr s.a 22
  let mj := (s.a &&& s.b) ^^^ (s.a &&& s.c) ^^^ (s.b &&& s.c)
  { a := (t1 + s0 + mj) % 2 ^ 32, b := s.a, c := s.b, d := s.c, e := (s.d + t1) % 2 ^ 32, f := s.e, g := s.f, h := s.g }

/-- One block of 64 bytes. -/
def shaBlock (s : Sha) (blk : List Byte) : Sha :=
  let w := (List.range 16).map (fun i => ofBytes ((blk.drop (4 * i)).take 4).reverse)
  let kw := List.zipWith (fun k v => k + v) shaRoundConstants (shaExpand 48 w.reverse)
  let t := kw.foldl shaRound s
  { a := (s.a + t.a) % 2 ^ 32, b := (s.b + t.b) % 2 ^ 32, c := (s.c + t.c) % 2 ^ 32, d := (s.d + t.d) % 2 ^ 32,
    e := (s.e + t.e) % 2 ^ 32, f := (s.f + t.f) % 2 ^ 32, g := (s.g + t.g) % 2 ^ 32, h := (s.h + t.h) % 2 ^ 32 }

/-- Blocks of a padded message. -/
def shaBlocks : Nat → Sha → List Byte → Sha
  | 0, s, _ => s
  | n + 1, s, bs => shaBlocks n (shaBlock s (bs.take 64)) (bs.drop 64)

/-- The SHA-256 digest, as its 32 bytes in order. -/
def sha256 (msg : List Byte) : List Byte :=
  let l := msg.length
  let zeros := (119 - l % 64) % 64
  let padded := msg ++ (0x80#8 :: List.replicate zeros 0) ++ (toBytes 8 (8 * l)).reverse
  let h (n : Nat) : Nat := shaInitial.getD n 0
  let s := shaBlocks (padded.length / 64) ⟨h 0, h 1, h 2, h 3, h 4, h 5, h 6, h 7⟩ padded
  [s.a, s.b, s.c, s.d, s.e, s.f, s.g, s.h].flatMap (fun v => (toBytes 4 v).reverse)

end Sys2Proof.Machine
end

