-- ==== Sys2Proof/Config.lean ====
section
/-! DEFINITION. What one module or implementation fixes, and the free values: constants without a body, so that no proof can rest on what they
are. Those applied to a count are free afresh each time the model counts `State.free` on. -/

namespace Sys2Proof.Config

/-- A byte that the spec leaves undefined: an invalid result (R100, R189), padding of a tile (R199, R202). -/
opaque freeByte : Nat → Byte

/-- A word that the spec leaves undefined: a combine unit that no part has been written to (R190). -/
opaque freeWord : Nat → W32

/-- A choice that the spec calls not architected: a candidate among equals (R224, R273), mortar replacement (R185), a port with room (R288). -/
opaque choose : Nat → Nat

/-- The manufactured spare slot of each die, as an offset in the die (R14). -/
opaque spareSlot : Nat → Fin 17

/-- The module serial number (R388). -/
opaque serial : BitVec 48

/-- The fused hashes of the primary and the backup root key (R388). -/
opaque root0 : BitVec 256
opaque root1 : BitVec 256

/-- The private half of the identity key, made at manufacture and never readable (R388): 64 bytes, little-endian here. -/
opaque idKey : BitVec 512

/-- The identity public key: PK.seed and PK.root are the last 32 bytes of an SLH-DSA private key (FIPS 205). PRESUMED (126). -/
def identityKey : BitVec 256 := idKey.extractLsb' 256 256

/-- The firmware image of each type that the module ships with, in bank A and in bank B: both are written with one release (R389, R467). -/
opaque factoryImage : Nat → List Byte

/-- SLH-DSA-SHA2-128s signing of a message with a private key (R395): 7,856 bytes. -/
opaque slhSign : BitVec 512 → List Byte → BitVec 62848

/-- The certificate chain of slot 0 (R395), whose last certificate names a serial number and holds an identity public key. -/
opaque chainOf : BitVec 48 → BitVec 256 → List Byte

/-- The module's certificate chain. -/
def certChain : List Byte := chainOf serial identityKey

/-- The geographic address that the board straps on GA2 to GA0 (R465). -/
opaque strapGA : Fin 8

/-- Gauge's SMBus address and I3C static address (R465). -/
def gaugeAddress : Nat := 0x40 + strapGA.val

/-- The n-th nonce of seal (R398). -/
opaque nonce : Nat → BitVec 256

/-- The parts of the factory calibration set (R403): SerDes presets, memory training results, voltage-frequency table, sensor trims. -/
opaque factoryPart : Nat → List Byte

/-- The factory calibration set, whole (R467). -/
def factoryCalibration : Calibration := ⟨some (factoryPart 0), some (factoryPart 1), some (factoryPart 2), some (factoryPart 3)⟩

/-- The bodies of the SPDM answers that DSP0274 fixes and the spec does not, by request: 0 GET_VERSION, 1 GET_CAPABILITIES,
2 NEGOTIATE_ALGORITHMS but for its algorithms, 3 CHALLENGE, 4 GET_MEASUREMENTS. -/
opaque spdmBody : Nat → List Byte

/-- The bytes of a calibration set in gauge's vendor message (R400), whose encoding the spec does not give. -/
opaque calBytes : Calibration → List Byte

/-- Regenerated parts of the calibration set (R403): SerDes presets, memory training results, voltage-frequency table, by start. -/
opaque regenerated : Nat → Nat → List Byte

/-- The bytes of a data-parallel replica (R352), by the number of the free value that its use takes, and offset. -/
opaque replica : Nat → Nat → Byte

/-- Where the hod places a page, by the number of the free value that the allocation takes, and page, before it is brought into the page's home and aligned (R266):
the placement is not architected. -/
opaque place : Nat → Nat → Nat

/-- What the cairn store of a module holds at shipment beyond its least size of 15 TiB, in units of 64 KiB, before it is bounded (R16, R354). -/
opaque flashBeyond : Nat

/-- The cairn store at shipment, in units of 64 KiB: at least 15 TiB, and less than the 16 TiB of NAND (R16, R25, R354). -/
def flashTotal : Nat := 15 * 2 ^ 24 + flashBeyond % 2 ^ 24

/-- The units of cairn flash retired as worn by a power-on number, before they are bounded by what is free (R354). -/
opaque flashWorn : Nat → Nat

/-- A decoded picture: its size, bit depth and order count, whether it is an AV1 key frame, its samples row by row, chroma at half the size, and the flags of its 8 × 8
blocks row by row (R364). -/
structure Frame where
  width : Nat
  height : Nat
  bitDepth : Nat
  order : Int
  key : Bool := false
  y : List Nat
  cb : List Nat
  cr : List Nat
  flags : List Nat
  deriving DecidableEq, Repr, Inhabited

/-- What the parameter sets and the header of a picture say by ITU-T H.265 and the AV1 specification: profile (H.265), level (in tenths), chroma format, tools beyond
R355; size, bit depth, order count, whether it is not for output; the slots it refers to, fills and empties; and from which blocks each block is predicted (slot, column,
row; from slot 16 on, of the picture itself). -/
structure Coded where
  profile : Nat
  level : Nat
  chroma : Nat
  otherTools : Bool
  bitDepth : Nat
  width : Nat
  height : Nat
  order : Int
  noOutput : Bool
  slots : List Nat
  stores : List Nat
  empties : List Nat
  preds : Nat → Nat → List (Nat × Nat × Nat)
  deriving Inhabited

/-- What a slice segment or tile group holds: the 8 × 8 blocks in decoding order, after how many of them the decoder detects a syntax error, and the bytes that it parses. -/
structure Blocks where
  blocks : List (Nat × Nat)
  stop : Option Nat
  parsed : Nat
  deriving Inhabited

/-- The syntax of the n-th picture of an input range, given the descriptor and the inputs of the earlier decodes of the context (R355, R357). Each input carries 1 where
an injection made the decoder detect a syntax error in it, else 0. -/
opaque coded : List Byte → List (Nat × List Byte) → Nat × List Byte → Nat → Coded

/-- The blocks of the n-th unit of an input range (R365). -/
opaque unitBlocks : List Byte → List (Nat × List Byte) → Nat × List Byte → Nat → Blocks

/-- OperatingPointIdc of an operating point, from a sequence header of AV1 (R355). -/
opaque operatingIdc : List Byte → Nat → Nat

/-- The reconstruction of the two standards, before film grain: a sample of component 0, 1 or 2 of the n-th picture at a position, from the pictures in the reference
slots. -/
opaque sample : List Byte → List (Nat × List Byte) → Nat × List Byte → Nat → List Frame → Nat × Nat × Nat → Nat

/-- Whether an engine that decodes an input range would write outside its window (R368). -/
opaque outside : List Byte → List (Nat × List Byte) → Nat × List Byte → Bool

/-- The reference slot whose picture and flags a byte of WORK belongs to, by its offset, none for the rest; the byte that a picture puts there; and the rest after a decode.
The spec gives WORK no layout (R359). -/
opaque workSlot : List Byte → Nat → Option (Fin 16)
opaque workByte : List Byte → Frame → Nat → Byte
opaque workRest : List Byte → List (Nat × List Byte) → Nat → Byte

end Sys2Proof.Config
end

