-- ==== Sys2Proof/Machine/State.lean ====
section
/-! DEFINITION. The state of one Tolul module as plain data, block by block, the reasons a step can stop, and the state right after
reset. Every sparse table is a `Tab`: an unlisted key reads as the default value of its record. -/

namespace Sys2Proof.Machine

/-- Faults. The module ends no command in one: every error that the spec describes is an event of the module (R107, R429) after which it
goes on, so this type has no constructor. Safe: nothing stops. -/
inductive Fault where
  deriving DecidableEq, Repr

/-- Refusals. -/
inductive Refusal where
  /-- The command has no meaning in this model. Raised by `exec`'s arm of a row that is not modelled. Safe: it stops. -/
  | notModelled (mnemonic : String)
  deriving DecidableEq, Repr

/-! ## Ledger (R426 to R444) -/

/-- An event as a detector reports it (R427, R428): bytes 36 to 43 (the key), 44 to 47 and 48 to 62 of the payload. -/
structure Ev where
  src : Nat
  code : Nat
  cls : Nat
  key : Nat := 0
  w44 : Nat := 0
  rest : List Byte := []
  inj : Bool := false
  deriving DecidableEq, Repr

/-- A ledger record (R426), without its valid mark, which every stored record carries. -/
structure Rec where
  seq : W64
  power : W32
  step : W64
  cclk : W64
  src : BitVec 16
  code : BitVec 16
  sev : Nat
  coal : Bool
  inj : Bool
  rep : BitVec 16
  pay : List Byte
  deriving DecidableEq, Repr

/-- The pools of staging slots (R431). -/
inductive Pool where
  | general
  | alarm
  | stepRec
  deriving DecidableEq, Repr

/-- An occupied staging slot: `written` once a write of the record to any area has begun (R433). -/
structure Staged where
  rcd : Rec
  pool : Pool
  written : Bool
  deriving DecidableEq, Repr

/-- A 4-KiB unit of ledger flash, at its running unit number. -/
structure FlashUnit where
  area : Area
  unit : Nat
  recs : List Rec
  deriving DecidableEq, Repr

/-- The ledger block. Staging, flash and the power count lie on the always-on island or in flash. -/
structure Ldg where
  ready : Bool := false
  fault : W32 := 0
  next : Nat := 0
  power : W32 := 0
  drop : W32 := 0
  readSel : W64 := 0
  readData : List Byte := []
  traceCfg : W64 := 0
  traceNext : W32 := 0
  traceFull : Bool := false
  traceSeq : Nat := 0
  traceDrop : W32 := 0
  injCtl : W64 := 0
  injArg : W64 := 0
  injLeft : Nat := 0
  injHeld : Bool := false
  staged : List Staged := []
  cornerstone : List FlashUnit := []
  ring : List FlashUnit := []
  tail : List FlashUnit := []
  ringUnit : Nat := 0
  tailUnit : Nat := 0
  programs : List FlashUnit := []
  budgets : Tab Nat := []
  dropC : W32 := 0
  dropP : W32 := 0
  dropN : W32 := 0
  dropFirst : Option (Nat × Nat) := none
  /-- an injection is among the causes of those drops (R441) -/
  dropInj : Bool := false
  /-- the trace staging memory, oldest first (R439) -/
  traceStaged : List Rec := []
  deriving DecidableEq, Repr

/-! ## Cores and contexts (R89 to R113) -/

/-- The states of a context (R90). -/
inductive CtxSt where
  | idle
  | ready
  | running
  | waiting
  | stopped
  | faulted
  deriving DecidableEq, Repr

/-- What a WAITING context waits on (R92). -/
inductive Wait where
  | none
  /-- SYN.WAIT on a counter below its threshold. -/
  | counter (c : Counter) (thresh : W32)
  /-- the 48-CCLK hold of a SYN.WAIT already met (R324) -/
  | delay (c : Counter) (thresh : W32)
  /-- sixteen long operations outstanding (R96) -/
  | outstanding
  /-- the unit's queue is full (R96) -/
  | queue (unit : CoreUnit)
  /-- CTL.DRAIN -/
  | drain
  /-- CTL.END with long operations outstanding -/
  | ended
  /-- an optimiser update or a NUM.STEPUPD held on the step outcome (R77, R181) -/
  | outcome
  /-- a NUM.STEPBEGIN held until the step's update is applied (R77) -/
  | applied
  /-- a NUM.STEPBEGIN held on a capture or on the replay check (R337, R350) -/
  | stepBegin
  /-- 1,024 unacknowledged remote signals (R325) -/
  | remoteLimit
  /-- no free posted-receive entry (R306) -/
  | recvLimit
  /-- the code object is held by the hod (R140) -/
  | fetch
  /-- an operation of the context's that the hod or mason holds on a condition: a page-free counter, an object, the step outcome -/
  | held
  /-- released while issue was held (R409), from the SYN.WAIT `on` where it was one: READY with its program counter moved on by `adv` bytes, or IDLE for a context held at CTL.END, when
  its group resumes -/
  | released (ended : Bool) (adv : Nat) (on : Option (Counter × W32))
  deriving DecidableEq, Repr

/-- A hardware context (R89). Bit 0 of `preds` is not used: p0 reads 1. -/
structure Ctx where
  pc : W64 := 0
  code : W32 := 0
  sr : Tab W64 := []
  preds : BitVec 8 := 0
  ctr : Tab W32 := []
  sticky : W32 := 0
  prio : BitVec 2 := 0
  latch : W32 := 0
  latchValid : Bool := false
  st : CtxSt := .idle
  priorWaiting : Bool := false
  wait : Wait := .none
  issued : Nat := 0
  asyncFlt : Option (Nat × Nat) := none
  deriving DecidableEq, Repr

/-- A logical core: the context that issued last, the context selected while its switch runs (R92), and whether the RUNNING context
is due for replacement by a context of equal priority (R91). -/
structure Core where
  last : Option Nat := none
  turn : Nat := 7
  switching : Option Nat := none
  quantum : Bool := false
  /-- instructions fetched since mortar's line accesses were last counted (R192) -/
  fetched : Nat := 0
  deriving DecidableEq, Repr

/-- A physical core slot and its CORE registers (R109, R113). -/
structure Slot where
  logical : Option Nat := none
  failed : Bool := false
  fault : W32 := 0
  spadCorr : W32 := 0
  flt : Tab W64 := []
  /-- the addresses with an uncorrectable error since the last restore, and before it (R108) -/
  errs : List Nat := []
  oldErrs : List Nat := []
  /-- an injection marked it failed (R441) -/
  failInj : Bool := false
  deriving DecidableEq, Repr

/-- A tensor descriptor as read at issue (R102). Extents and strides are the field values. -/
structure Td where
  handle : Nat
  off : Nat
  soff : Nat
  fmt : Nat
  kind : Nat
  ndim : Nat
  bdim : Nat
  pres : Nat
  upd : Nat
  updn : Nat
  srid : Nat
  ext : List Nat
  pext : List Nat
  stride : List Nat
  rsvd : Bool
  deriving DecidableEq, Repr

/-- The long operations (R93), and what takes its place with the hod beside them: the ring 0 commands, the move of a page out of a region (R258), a recovery that
waits for capacity (R273), and accesses of the host (R375). -/
inductive LKind where
  | movLdt | movStt | movLdb | movStb | movSpcpy | movFill | movPref
  | matFwd | matDgrad | matWgrad | matWgradm | matDrain | matClear | matPdrain | matCombine
  | vecAdd | vecSub | vecMul | vecFma | vecMax | vecMin | vecAbs | vecMuli | vecAddi | vecSel
  | vecExp2 | vecLog2 | vecRcp | vecRsqrt | vecRsum | vecRmax | vecRamax | vecCvt | vecOptaw | vecOptms
  | attFwd | attBwd
  | arcRscat | arcAgath | arcAred | arcSend | arcRecv | arcCirc | arcOvor
  | hodPin | hodUnpin | hodPromote | hodDemote | hodDrop | hodAppend | hodTrim
  | numStepupd | numStepbegin
  | ingOpen | ingDecode | ingClose
  | create | destroy | promote | demote
  | leave | recover | hostRead | hostWrite
  deriving DecidableEq, Repr

/-- Who issued an operation: a context, a ring entry by ring, count, tag and flags, the hod itself, or the host through BAR 2. -/
inductive OpSrc where
  | ctx (x : Nat)
  | ring (r count tag flags : Nat)
  | hod
  | host
  deriving DecidableEq, Repr

/-- Where an operation stands: in its unit's queue, in execution, held on an object's entry (R270), held on the page-free
counter since a CCLK count (R273), moving its object, waiting for another module, or waiting in quarry or as a posted receive. -/
inductive OpSt where
  | queued
  | started
  | heldObj (idx : Nat) (arrival : Nat)
  | heldCap (since : Nat) (prio : Nat) (arrival : Nat)
  | moving
  | remote
  | waiting
  deriving DecidableEq, Repr

/-- A long operation from issue to completion, with everything it read at issue (R94): the values of the registers SA, SB, SC
and SD, its descriptors, its area or command words and its immediate. `snap` holds the slots that a MAT.DRAIN has read at its start (R163). -/
structure Op where
  id : Nat
  src : OpSrc
  kind : LKind
  unit : CoreUnit := .outbound
  ins : Ins
  core : Nat
  off : Nat
  regs : List W64 := []
  tds : List Td := []
  words : List Nat := []
  imm : W32 := 0
  lstep : Int := 0
  snap : List (List W32) := []
  sig : Option Nat := none
  st : OpSt := .queued
  pinned : List Nat := []
  refused : Bool := false
  inj : Bool := false
  /-- what the detectors find in the reads of a held access of the host -/
  found : List Detect := []
  deriving DecidableEq, Repr

/-! ## Numeric state block (R81) -/

/-- The NSB, with the module's step overflow flag (R65) and the flag that an OR action of the step was delivered (R77). -/
structure Nsb where
  step : W64 := 0
  key : W64 := 0
  cursor : W64 := 0
  stride : W32 := 0
  clean : BitVec 16 := 0
  interval : BitVec 16 := 0
  lstep : BitVec 8 := 0
  lnext : BitVec 8 := 0
  taint : Bool := false
  outcome : Nat := 0
  applied : Bool := false
  version : BitVec 16 := 0
  deriving DecidableEq, Repr

/-! ## Keystone (R314 to R331) -/

/-- Job and system counters and the KST registers, the epoch markers that have arrived, and those that the last restore sent, as port, virtual channel and epoch. -/
structure Kst where
  ctr : Tab W32 := []
  sys : Tab W32 := []
  jsat : Tab Bool := []
  syssat : Tab Bool := []
  active : Bool := false
  quiesce : Bool := false
  epoch : BitVec 8 := 0
  fault : W32 := 0
  sat : W32 := 0
  out : Nat := 0
  discard : BitVec 16 := 0
  markers : List (Nat × Nat × Nat) := []
  sent : List (Nat × Nat × Nat) := []
  deriving DecidableEq, Repr

/-! ## Hod and undercroft (R263 to R286) -/

/-- Object states (R264). -/
inductive ObjSt where
  | fast | slow | up | down | dropped | poisoned | free
  deriving DecidableEq, Repr

/-- Object kinds (R265). -/
inductive ObjKind where
  | data | code | page | image
  deriving DecidableEq, Repr

/-- Why an object is moving (R267, R269): for an operation, an eviction, or because of a region that goes out of use, which moves one page;
with the target home and node, and the operation it serves. Footing regions count from 0, undercroft regions from 2^20. -/
structure Move where
  toHome : Nat
  toNode : Nat := 0
  op : Option Nat := none
  evict : Bool := false
  region : Option Nat := none
  page : Nat := 0
  deriving DecidableEq, Repr

/-- An entry of the object table (R264) with its page descriptor (R223) as eight words, and what the hod keeps beside it: the load
pin, the registration in force and the next one (R332), the move in progress, the recovery in progress and the delta bitmap (R343). -/
structure Obj where
  handle : BitVec 24 := 0
  st : ObjSt := .free
  kind : ObjKind := .data
  home : Nat := 0
  pins : BitVec 16 := 0
  pg : Nat := 0
  evict : Bool := false
  eprio : Nat := 0
  succ : Bool := false
  hosted : Bool := false
  size : Nat := 0
  hnode : Nat := 0
  hhandle : Nat := 0
  rnode : Nat := 0
  rhandle : Nat := 0
  rvalid : Bool := false
  wstep : W64 := BitVec.allOnes 64
  epoch : BitVec 16 := 0
  page : List W64 := []
  loadPin : Bool := false
  codeText : Option (Nat × Nat) := none
  reg : Option (Nat × Nat × Nat) := none
  regNext : Option (Nat × Nat × Nat) := none
  move : Option Move := none
  recover : Option Nat := none
  recompute : Option Nat := none
  delta : List Nat := []
  inj : Bool := false
  /-- the free value that its pages were placed with, and those of pages that have moved since (R266) -/
  place : Nat := 0
  moved : List (Nat × Nat) := []
  deriving DecidableEq, Repr

/-- Hod registers and capacity in units of 64 KiB (R285). -/
structure Hod where
  ready : Bool := false
  dropEn : Bool := false
  fault : W32 := 0
  freeFast : Nat := 0
  allocFast : Nat := 0
  freeSlow : Nat := 0
  allocSlow : Nat := 0
  pageFree : W32 := 0
  limit : W64 := 0x7D2B7500
  poisoned : W32 := 0
  sel : W32 := 0
  entryData : List W64 := []
  /-- recomputes waiting for their reserved context, in arrival order: page index and context (R225) -/
  recomputes : List (Nat × Nat) := []
  deriving DecidableEq, Repr

/-- Undercroft registers and quarantined regions (R280, R286), with the count of uncorrectable errors per region of this start. -/
structure Ucf where
  train : Nat := 0
  test : Bool := false
  fault : W32 := 0
  corr : W32 := 0
  uncorr : W32 := 0
  errs : Tab Nat := []
  quarantined : List Nat := []
  deriving DecidableEq, Repr

/-! ## Footing (R247 to R262) -/

/-- A repair record (R260). For a spared lane, `row` gives stack and pseudo-channel, `spare` the failed lane, and `lane` the spare lane. -/
structure Repair where
  typ : Nat
  row : Option RowId := none
  spare : Nat := 0
  lane : Nat := 0
  region : Nat := 0
  slot : Nat := 0
  seq : Nat := 0
  deriving DecidableEq, Repr

/-- A failed row that waits for its repair (R257), or in a bank with no spare row for what step 1 of R258 does in place. -/
structure PendingRow where
  row : RowId
  inj : Bool
  inPlace : Bool := false
  deriving DecidableEq, Repr

/-- One stack: registers, lanes (per pseudo-channel, one more than the lane replaced by spare 36 and by spare 37), corrected errors per lane, the table
of rows with corrected errors, the spare rows used in each bank (64 × pseudo-channel + bank), and the rows whose repair is pending. -/
structure Stack where
  train : Nat := 0
  rmult : Nat := 0
  scrub : Bool := false
  fault : W32 := 0
  corr : W32 := 0
  uncorr : W32 := 0
  temp : BitVec 8 := 0
  tmax : BitVec 8 := 0
  laneA : Tab Nat := []
  laneB : Tab Nat := []
  laneErr : Tab Nat := []
  rowErr : List (RowId × Nat) := []
  spares : Tab Nat := []
  pendingRows : List PendingRow := []
  soft : Nat := 0
  hard : Nat := 0
  /-- rows with an injected correction, and with an injected soft repair, in this start (R443) -/
  rowInj : List RowId := []
  softInj : List RowId := []
  deriving DecidableEq, Repr

/-- Footing as a whole: regions retired for good, regions being retired with the row that failed, the repair records, and their area of flash: two copies of
32-byte records (R260), each with the CCLK count at which it was made, negative for one made before the last module reset. -/
structure Ftg where
  loaded : Bool := false
  retired : List Nat := []
  retiring : List (Nat × RowId × Bool) := []
  repairs : List Repair := []
  copyA : List (Int × List Byte) := []
  copyB : List (Int × List Byte) := []
  refreshes : Nat := 0
  deriving DecidableEq, Repr

/-! ## Mortar (R185 to R192) -/

/-- Mortar registers and the combine units that hold a part; a unit not listed holds no defined contents (R190). -/
structure Mtr where
  caWays : Nat := 0
  fault : W32 := 0
  corr : W32 := 0
  uncorr : W32 := 0
  hit : W64 := 0
  miss : W64 := 0
  combine : Tab (List W32) := []
  deriving DecidableEq, Repr

/-! ## Links and arch (R287 to R313) -/

/-- A link port (R312). -/
structure Port where
  state : Nat := 0
  spare : Bool := false
  pgen : Byte := 0
  pfeat : Byte := 0
  pport : Nat := 0
  fault : W32 := 0
  failed : BitVec 9 := 0
  spared : Nat := 0xF
  width : Nat := 0
  fecCorr : W64 := 0
  fecUncorr : W32 := 0
  replay : W32 := 0
  serial : BitVec 48 := 0
  tx : W64 := 0
  rx : W64 := 0
  deriving DecidableEq, Repr

/-- One pair of ports (R288, R290): the SEQ expected, whether a NAK is outstanding, the next SEQ to send, the oldest unacknowledged one, the flits that wait for room
in the replay buffer, the flits that have come ahead of their turn (SEQ, port, whether their payload counts), and the flit being resent with its count. -/
structure Pair where
  expect : BitVec 12 := 0
  nak : Bool := false
  next : BitVec 12 := 0
  acked : BitVec 12 := 0
  backlog : Nat := 0
  early : List (BitVec 12 × Nat × Bool) := []
  resent : Option (BitVec 12 × Nat) := none
  deriving DecidableEq, Repr

/-- The running collective of a course (R303, R309): its operation, its number, the halves of the own chunk that are final, the
halves (chunk, following) gathered here, and the messages not yet acknowledged. -/
structure Coll where
  op : Nat
  k : Nat
  reduced : List Bool := []
  gathered : List (Nat × Bool) := []
  unacked : Nat := 0
  deriving DecidableEq, Repr

/-- The arch units and the ARC registers (R313), with what they hold between commands. `hold`: mason holds ARC.OVOR of the step in force (R241); `holdNext`: of the
step that begins (R329). -/
structure Arc where
  node : BitVec 14 := 0
  valid : Bool := false
  ring : List Nat := [0, 0, 0, 0]
  pos : List Nat := [0, 0, 0, 0]
  fault : W32 := 0
  sent : Bool := false
  delivered : Bool := false
  result : Bool := false
  orIn : Bool := false
  orGot : List (Nat × Nat × Bool) := []
  orEarly : List Msg := []
  issued : List W32 := [0, 0, 0, 0]
  done : List W32 := [0, 0, 0, 0]
  colls : List (Nat × Coll) := []
  posted : List Nat := []
  hold : Bool := false
  holdNext : Bool := false
  outbox : List Msg := []
  /-- arrivals that wait on their object, oldest first (R270, R297) -/
  heldIn : List Msg := []
  deriving DecidableEq, Repr

/-! ## Preservation (R332 to R354) -/

/-- An object as an image or a mirror generation holds it (R348): the table entry at capture, its resolved class, its form, the image its
bytes come from, the 64-KiB units stored here, their bytes by offset in the object, and the digest of the whole object. -/
structure Saved where
  obj : Obj
  idx : Nat
  cls : Nat
  form : Nat
  src : Nat
  units : List Nat
  bytes : List Host.Cell
  digest : Nat
  deriving DecidableEq, Repr

/-- A manifest with its data (R347): of a cairn image, or of a mirror generation with sequence 0. `ctxs` holds the context images (R112) that are not that of a
context in its reset state, `head` the header's 256 bytes as they were written. -/
structure Image where
  /-- the serial number of the module that made it -/
  serial : BitVec 48 := 0
  jobId : W64 := 0
  seq : Nat := 0
  step : W64 := 0
  node : BitVec 14 := 0
  nsb : Nsb := {}
  ring : List Nat := []
  pos : List Nat := []
  jobCtr : Tab W32 := []
  jobSat : Tab Bool := []
  ctxs : Tab (List Byte) := []
  spBase : Nat := 0
  spLen : Nat := 0
  spad : List Host.Cell := []
  objs : List Saved := []
  head : List Byte := []
  complete : Bool := false
  usable : Bool := true
  /-- an injected flash error made it unusable (R443) -/
  flashInj : Bool := false
  deriving DecidableEq, Repr

/-- A mirror slot on the following neighbour (R340): its generation, the serial number of the neighbour that holds it, whether it is valid, and whether its role is
ANCHOR. -/
structure MirrorSlot where
  image : Option Image := none
  host : BitVec 48 := 0
  valid : Bool := false
  anchor : Bool := false
  deriving DecidableEq, Repr

/-- The steps of a capture at a boundary (R337). -/
inductive Capture where
  | none
  /-- order 1: waiting for quiescence at boundary `b` -/
  | quiesce (b : Nat)
  /-- order 2: the capture barrier -/
  | barrier (b : Nat)
  /-- orders 3 and 4, with what the barrier decided -/
  | saving (b : Nat) (mirror : Bool) (snap : Bool)
  deriving DecidableEq, Repr

/-- Where a restore stands (R351): after step 3 waiting for its barrier, in step 5 waiting for capacity, waiting for the runtime as a source of the listed objects, or
after step 8. `own` says that the image is the module's own, not a mirror's. -/
inductive Restore where
  | none
  | nsbBarrier (img : Image) (own : Bool)
  /-- step 5, while evictions make room for the listed objects `left` that are to be created -/
  | table (img : Image) (own : Bool) (left : List Saved)
  | sources (img : Image) (wanted : List Nat)
  | lastBarrier
  deriving DecidableEq, Repr

/-- The replay check (R350): the step replayed, this module's verdict once its NUM.STEPUPD has made it, whether the barrier left the job held, and
whether CONTINUE may resume it. -/
structure Replay where
  step : W64
  verdict : Option Verdict := none
  inj : Bool := false
  held : Bool := false
  noref : Bool := false
  deriving DecidableEq, Repr

/-- The preservation engine: settings (R336), registers (R354), slots, staging and flash images. -/
structure Prs where
  fault : W32 := 0
  jobId : W64 := 0
  sint : Nat := 0
  mint : Nat := 0
  bcourse : Nat := 0
  bvalid : Bool := false
  dchain : Nat := 0
  bres : Nat := 0
  stage : Nat := 0
  spBase : Nat := 0
  spLen : Nat := 0
  loss : Option (Nat × Nat) := none
  qlimit : Nat := 0
  capture : Capture := .none
  captured : Option Nat := none
  /-- the boundary whose capture was given up (R338) -/
  gaveUp : Option Nat := none
  /-- what the capture in progress reads, as handle, offset and length; it holds one internal pin on each of these objects (R337) -/
  reads : List (Nat × Nat × Nat) := []
  /-- the module holds no image of the job and has captured nothing of it: to a restore it is a replacement (R351) -/
  replaced : Bool := false
  warned : Bool := false
  restore : Restore := .none
  replay : Option Replay := none
  pendingSnap : Option (Nat × Nat) := none
  slots : List MirrorSlot := [{}, {}]
  staged : Option Image := none
  drain : W64 := 0
  images : List Image := []
  nextSeq : Nat := 1
  flashFree : Nat := 0
  flashTotal : Nat := 0
  loaded : Bool := false
  hosted : List Nat := []
  deriving DecidableEq, Repr

/-! ## Quarry (R355 to R372) -/

/-- A stream context (R356): its descriptor, its mode, the inputs it has decoded, each with 1 where a syntax error was injected, its reference slots with their pictures and
block flags, the most recent correctly decoded picture of each layer (R365), and the ING.CLOSE that waits. -/
structure Stream where
  desc : List Byte
  guarded : Bool
  history : List (Nat × List Byte) := []
  slots : List (Option Config.Frame) := []
  last : Tab (Option Config.Frame) := []
  closing : Option Nat := none
  deriving DecidableEq, Repr

/-- Quarry: open contexts, queued decodes in order, and what each engine decodes, by operation number. -/
structure Qry where
  fault : W32 := 0
  pics : W64 := 0
  flagged : W32 := 0
  streams : Tab (Option Stream) := []
  queue : List Nat := []
  engines : Tab (Option Nat) := []
  deriving DecidableEq, Repr

/-! ## Host interface and mason (R373 to R387) -/

/-- A completion still to be written, in ring order: the entry's count, tag and flags, and its status and result once known (R379). -/
structure Fetched where
  count : Nat
  tag : Nat
  flags : Nat
  answer : Option (Nat × Nat) := none
  deriving DecidableEq, Repr

/-- A START entry in service: its ring count, and the context it started, none while it waits (R383). -/
structure Started where
  ring : Nat
  count : Nat
  entry : BitVec 512
  ctx : Option Nat
  deriving DecidableEq, Repr

/-- A ring (R377 to R380). Head, tail and completion counts are free-running. -/
structure Ring where
  base : W32 := 0
  log2 : Nat := 0
  en : Bool := false
  drain : Bool := false
  head : BitVec 16 := 0
  tail : BitVec 16 := 0
  cqAddr : W64 := 0
  cqHead : BitVec 16 := 0
  posted : Nat := 0
  consumed : Nat := 0
  fetched : List Fetched := []
  deriving DecidableEq, Repr

/-- The last answer on the PCIe link: what a completer returns; `held` for a read that is answered later. -/
inductive HostRsp where
  | none
  | data (bs : List Byte)
  /-- a configuration request completes: the vendor and the device of the one function -/
  | config (vendor device : BitVec 16)
  | unsupported
  | poisoned (len : Nat)
  | retry
  | held (id : Nat)
  deriving DecidableEq, Repr

/-- The HIF block. -/
structure Hif where
  width : Nat := 0
  speed : Nat := 0
  fault : W32 := 0
  note : Bool := false
  rings : Tab Ring := []
  win : Tab W64 := []
  msix : Tab Byte := []
  pending : List Nat := []
  sent : List Nat := []
  starts : List Started := []
  rsp : HostRsp := .none
  /-- the answers to reads that were held, by number -/
  late : List (Nat × HostRsp) := []
  /-- the AER uncorrectable error status: poisoned TLP received, unsupported request (R373) -/
  aer : W32 := 0
  /-- the accesses that wait on the link while a hold stalls it, oldest first (R375) -/
  waiting : List Instr := []
  nextId : Nat := 0
  down : Bool := false
  deriving DecidableEq, Repr

/-- Mason: the MSN registers and what it is doing for ring 0. -/
structure Msn where
  fw : Bool := false
  job : Bool := false
  fault : W32 := 0
  dead : Bool := false
  /-- a ring 0 command that has started and not finished: its count, tag and flags, and its opcode -/
  busy : Option (Nat × Nat × Nat × Nat) := none
  /-- a PREEMPT that waits behind a capture or replay hold -/
  preempt : Bool := false
  /-- the ring that mason served last with a START entry -/
  served : Nat := 0
  deriving DecidableEq, Repr

/-! ## Seal, gauge, plinth (R388 to R425) -/

/-- Seal: fuses, boot, unlock. An image slot of the boot area is keyed 8 × bank + type; a slot not listed holds what manufacture left. -/
structure Seal where
  loaded : Bool := false
  booted : Bool := false
  bank : Nat := 0
  active : Nat := 0
  revoked : Bool := false
  svn : List Nat := [0, 0, 0, 0]
  debug : Bool := false
  scope : BitVec 16 := 0
  fault : W32 := 0
  nonce : Option Nat := none
  nonces : Nat := 0
  boot : Tab (Option (List Byte)) := []
  updated : List Nat := []
  verified : Bool := false
  bootFail : Bool := false
  /-- an injection decided this boot, so it blows no fuse (R443) -/
  injected : Bool := false
  /-- the signature in progress, as the bus that asked and the response to be signed -/
  signing : Option (Bus × List Byte) := none
  deriving DecidableEq, Repr

/-- An answer of gauge on a management bus. -/
inductive MgmtRsp where
  | none
  | bytes (bus : Bus) (bs : List Byte)
  | error (bus : Bus) (code : Nat)
  | done (bus : Bus)
  /-- ALGORITHMS (R396): the hash, the registry, vendor and algorithm of ExtAsym, and the rest of the answer -/
  | algorithms (bus : Bus) (hash registry vendor algorithm : Nat) (rest : List Byte)
  /-- a phase of a PLDM firmware update is done, refused, or reports VerifyFailed (R392, R394) -/
  | updateDone
  | updateRefused
  | verifyFailed
  deriving DecidableEq, Repr

/-- A stored calibration slot: its sequence number and whether its CRC passes (R403). -/
structure CalSlot where
  seq : Nat
  good : Bool
  cal : Calibration
  deriving DecidableEq, Repr

/-- Gauge. -/
structure Gge where
  calValid : Bool := false
  calRegen : Bool := false
  fault : W32 := 0
  alert : W32 := 0
  vin : BitVec 16 := 0
  watts : BitVec 16 := 0
  amps : BitVec 16 := 0
  dieVolts : List (BitVec 16) := [0, 0, 0, 0]
  dieAmps : List (BitVec 16) := [0, 0, 0, 0]
  temps : Tab (BitVec 16 × Bool) := []
  failed : List Nat := []
  eid : Option Byte := none
  slots : Option (CalSlot × CalSlot) := none
  inUse : Calibration := ⟨none, none, none, none⟩
  /-- an injection made both slots fail at this start, so nothing is written back (R443) -/
  calInj : Bool := false
  rsp : MgmtRsp := .none
  /-- the last answer on the debug port -/
  port : List Byte := []
  /-- the sensors at or above their warning threshold, and those whose crossing gauge has reported by a platform event message -/
  above : List Nat := []
  events : List Nat := []
  /-- the sensors whose last reading an injection made (R441) -/
  injTemps : List Nat := []
  deriving DecidableEq, Repr

/-- Plinth. -/
structure Pln where
  stage : Nat := 0
  power : Bool := false
  warn : Bool := false
  hold : Bool := false
  lock : Bool := false
  released : Bool := false
  recent : Nat := 0
  fault : W32 := 0
  fail : Bool := false
  trip : Bool := false
  railf : Bool := false
  /-- the SUPPLY_FAIL that FAIL stands for was injected -/
  failInj : Bool := false
  /-- every rail but VAUX is low until the next power-on (R408) -/
  off : Bool := false
  vmin : BitVec 16 := 0xFFFF
  duty : List Nat := [8, 8, 8, 8]
  pduty : List Nat := [8, 8, 8, 8]
  memcap : BitVec 4 := 0
  plim : Bool := false
  cclk : W64 := 0
  droop : Tab W32 := []
  crit : List Nat := []
  groups : Nat := 0
  resuming : Bool := false
  /-- by array, 3 × core + array: the eighths of its cycles that it may use, and one more than the CCLK count of its last start (R415) -/
  ramp : Tab Nat := []
  lastStart : Tab Nat := []
  /-- the sensors at or above their trip threshold (R421) -/
  tripped : List Nat := []
  /-- class M: issue stopped, and no job start until reset, or until power-on (R429) -/
  stopped : Bool := false
  noJob : Bool := false
  noJobPower : Bool := false
  deriving DecidableEq, Repr

/-! ## The module -/

/-- The state of a module. `pending` is the queue of commands waiting, first in first out. `free` counts the free values used. -/
structure State where
  pending : List Instr := []
  free : Nat := 0
  ctxs : Tab Ctx := []
  cores : Tab Core := []
  slots : Tab Slot := []
  acc : Tab (List W32) := []
  spad : List Host.Cell := []
  ops : List Op := []
  nextOp : Nat := 0
  arrivals : Nat := 0
  nsb : Nsb := {}
  overflow : Bool := false
  kst : Kst := {}
  hod : Hod := {}
  objs : Tab Obj := []
  objMem : List Host.Cell := []
  bad : Tab Nat := []
  phys : List Host.Cell := []
  hostMem : List Host.Cell := []
  mtr : Mtr := {}
  ftgStacks : Tab Stack := []
  ftg : Ftg := {}
  ucf : Ucf := {}
  ports : Tab Port := []
  pairs : Tab Pair := []
  arc : Arc := {}
  prs : Prs := {}
  qry : Qry := {}
  hif : Hif := {}
  msn : Msn := {}
  sealBlk : Seal := {}
  gge : Gge := {}
  pln : Pln := {}
  ldg : Ldg := {}
  deriving DecidableEq, Repr

/-- The module before its first power-on: every register at its reset value (R447). Nothing is listed in memory. -/
def State.reset : State := {}

end Sys2Proof.Machine
end

