-- ==== Sys2Proof/Machine/Ops.lean ====
section
/-! DEFINITION. The named operations over registers and memory that every command is written with: contexts and their registers, cores, slots,
objects, and the memories of the module. -/

namespace Sys2Proof

/-- Bits [hi:lo] of the instruction word, below bit 100. -/
def Ins.at (i : Ins) (hi lo : Nat) : Nat := Machine.fld i.opd.toNat hi lo

/-- Whether bits [hi:lo] of the word are zero. -/
def Ins.zero (i : Ins) (hi lo : Nat) : Bool := i.at hi lo == 0

/-- Whether FLAGS holds no bit at or above `n`. -/
def Ins.flagsBelow (i : Ins) (n : Nat) : Bool := i.flags.toNat < 2 ^ n

/-- FLAGS bit `n`, word bit 104 + n. -/
def Ins.flag (i : Ins) (n : Nat) : Bool := i.flags.getLsbD n

/-- Register fields SA, SB, SC and SD at their usual places. -/
def Ins.sa (i : Ins) : Nat := i.at 99 95
def Ins.sb (i : Ins) : Nat := i.at 94 90

end Sys2Proof

namespace Sys2Proof.Machine

/-! ## Tables of the state -/

def State.ctx (s : State) (x : Nat) : Ctx := Tab.get {} s.ctxs x
def State.setCtx (s : State) (x : Nat) (c : Ctx) : State := { s with ctxs := Tab.set {} s.ctxs x c }
def State.core (s : State) (k : Nat) : Core := Tab.get {} s.cores k
def State.setCore (s : State) (k : Nat) (c : Core) : State := { s with cores := Tab.set {} s.cores k c }
def State.slot (s : State) (p : Nat) : Slot := Tab.get {} s.slots p
def State.setSlot (s : State) (p : Nat) (c : Slot) : State := { s with slots := Tab.set {} s.slots p c }
def State.obj (s : State) (i : Nat) : Obj := Tab.get {} s.objs i
def State.setObj (s : State) (i : Nat) (o : Obj) : State := { s with objs := Tab.set {} s.objs i o }
def State.stack (s : State) (i : Nat) : Stack := Tab.get {} s.ftgStacks i
def State.setStack (s : State) (i : Nat) (o : Stack) : State := { s with ftgStacks := Tab.set {} s.ftgStacks i o }
def State.port (s : State) (i : Nat) : Port := Tab.get {} s.ports i
def State.setPort (s : State) (i : Nat) (o : Port) : State := { s with ports := Tab.set {} s.ports i o }
def State.pair (s : State) (i : Nat) : Pair := Tab.get {} s.pairs i
def State.setPair (s : State) (i : Nat) (o : Pair) : State := { s with pairs := Tab.set {} s.pairs i o }
def State.ring (s : State) (r : Nat) : Ring := Tab.get {} s.hif.rings r
def State.setRing (s : State) (r : Nat) (o : Ring) : State := { s with hif := { s.hif with rings := Tab.set {} s.hif.rings r o } }

/-- Uses one free value: the count it is taken at, and the state after. -/
def State.fresh (s : State) : Nat × State := (s.free, { s with free := s.free + 1 })

/-! ## Context registers (R89) -/

/-- Scalar register `n`; s0 reads 0. -/
def Ctx.sreg (c : Ctx) (n : Nat) : W64 := if n = 0 then 0 else Tab.get 0 c.sr n

/-- Writes scalar register `n`; a write to s0 is discarded. -/
def Ctx.setSreg (c : Ctx) (n : Nat) (v : W64) : Ctx := if n = 0 then c else { c with sr := Tab.set 0 c.sr n v }

/-- Predicate `n`; p0 reads 1. -/
def Ctx.pred (c : Ctx) (n : Nat) : Bool := n == 0 || c.preds.getLsbD n

/-- Writes predicate `n`; a write to p0 is discarded. -/
def Ctx.setPred (c : Ctx) (n : Nat) (v : Bool) : Ctx :=
  if n = 0 then c else { c with preds := if v then c.preds ||| BitVec.ofNat 8 (2 ^ n) else c.preds &&& ~~~(BitVec.ofNat 8 (2 ^ n)) }

/-- Context counter `n` (R314). -/
def Ctx.counter (c : Ctx) (n : Nat) : W32 := Tab.get 0 c.ctr n

/-- Sets bit `n` of a flag word to `v`. -/
def setBit {w : Nat} (f : BitVec w) (n : Nat) (v : Bool) : BitVec w :=
  if v then f ||| BitVec.ofNat w (2 ^ n) else f &&& ~~~(BitVec.ofNat w (2 ^ n))

/-- The logical core of a chip-wide context number. -/
def coreOf (x : Nat) : Nat := x / 8

/-- The physical slot that carries a logical core, if one does (R109). -/
def State.slotOf (s : State) (k : Nat) : Option Nat :=
  (List.range 68).find? (fun p => (s.slot p).logical == some k)

/-- Changes the physical slot of a logical core. -/
def State.modSlot (s : State) (k : Nat) (f : Slot → Slot) : State :=
  match s.slotOf k with
  | some p => s.setSlot p (f (s.slot p))
  | none => s

/-! ## Memories -/

/-- A memory: cells in canonical form, an unlisted byte reading 0. -/
abbrev Mem := List Host.Cell

/-- The canonical form of a memory. -/
abbrev Mem.wf (m : Mem) : Bool := Tab.wf (0 : Byte) m

def Mem.read (m : Mem) (a n : Nat) : List Byte := Tab.range (0 : Byte) m a n
def Mem.write (m : Mem) (a : Nat) (bs : List Byte) : Mem := Tab.setRange (0 : Byte) m a bs
def Mem.clear (m : Mem) (a n : Nat) : Mem := Tab.clearRange m a n

/-- The key of byte `off` of the object at index `i`. -/
def objKey (i off : Nat) : Nat := i * 2 ^ 40 + off

/-- The key of a scratchpad byte of logical core `k` (R98). -/
def spadKey (k a : Nat) : Nat := k * 2 ^ 23 + a

/-- The first address beyond the scratchpad (R98). -/
def spadEnd : Nat := 0x600000

def State.spadRead (s : State) (k a n : Nat) : List Byte := Mem.read s.spad (spadKey k a) n
def State.spadWrite (s : State) (k a : Nat) (bs : List Byte) : State :=
  { s with spad := Mem.write s.spad (spadKey k a) bs }

/-- The bytes of an object, wherever its home is (R20, R23). -/
def State.objRead (s : State) (i off n : Nat) : List Byte := Mem.read s.objMem (objKey i off) n

/-- The table index of a handle (R263). -/
def hIdx (h : Nat) : Nat := h % 2 ^ 20

/-- Whether a handle names an object: its entry is not FREE and holds that handle (R263). -/
def State.named (s : State) (h : Nat) : Bool :=
  (s.obj (hIdx h)).st != .free && (s.obj (hIdx h)).handle == BitVec.ofNat 24 h && h < 2 ^ 24

/-- An object's size in bytes (R264). -/
def Obj.bytes (o : Obj) : Nat := o.size * 65536

/-- The 4-KiB blocks that a range covers whole. -/
def wholeBlocks (off n : Nat) : List Nat :=
  (List.range ((off + n) / 4096 - ceilDiv off 4096)).map (fun j => ceilDiv off 4096 + j)

/-- The 64-KiB units that a range touches. -/
def touchedUnits (off n : Nat) : List Nat :=
  if n = 0 then [] else (List.range ((off + n - 1) / 65536 + 1 - off / 65536)).map (fun j => off / 65536 + j)

/-- The key of a block's entry in the table of blocks with poisoned lines. -/
def badKey (i blk : Nat) : Nat := i * 2 ^ 28 + blk

/-- The poisoned lines of a block, one bit each, bit 16 for a block lost with a dirty mortar line, bit 17 for a side-table line that stays
uncorrectable (R189, R249, R254, R255). -/
def State.badBlock (s : State) (i blk : Nat) : Nat := Tab.get 0 s.bad (badKey i blk)

/-- A write that an object accepts: the bytes, WSTEP (R265), the units written (R343), and the whole blocks it makes sound (R254). -/
def State.objWrite (s : State) (i off : Nat) (bs : List Byte) : State :=
  { s with
    objMem := Mem.write s.objMem (objKey i off) bs
    bad := (wholeBlocks off bs.length).foldl (fun t b => Tab.set 0 t (badKey i b) 0) s.bad
    objs := Tab.set {} s.objs i
      { s.obj i with
        wstep := if (s.obj i).recompute.isSome then (s.obj i).wstep else s.nsb.step
        delta := (touchedUnits off bs.length).foldl (fun l u => if u ∈ l then l else l ++ [u]) (s.obj i).delta } }

/-- Bytes as in R266: an object's whole range zero and sound. -/
def State.objZero (s : State) (i : Nat) : State :=
  { s with
    objMem := Mem.clear s.objMem (objKey i 0) (2 ^ 40)
    bad := Tab.clearRange s.bad (badKey i 0) (2 ^ 28) }

/-- The bytes of an object range as they stand for a reader that could not be given them: free values. -/
def State.freeBytes (s : State) (n : Nat) : List Byte × State :=
  ((List.range n).map (fun j => Config.freeByte (s.free + j)), { s with free := s.free + n })

/-! ## Accumulator slots (R101) -/

/-- The key of slot `j` of array `a` (0 F, 1 D, 2 W) of logical core `k`. -/
def accKey (k a j : Nat) : Nat := k * 24 + a * 8 + j

/-- A slot as 16,384 FP32 words in row order; an unlisted slot is +0 throughout. -/
def State.accSlot (s : State) (k a j : Nat) : List W32 := Tab.get [] s.acc (accKey k a j)

/-- Element (row, col) of a slot's words; beyond what is listed it is +0. -/
def accAt (t : List W32) (r c : Nat) : W32 := t.getD (128 * r + c) 0

def State.setAccSlot (s : State) (k a j : Nat) (t : List W32) : State :=
  { s with acc := Tab.set [] s.acc (accKey k a j) t }

/-! ## Operations in flight -/

/-- Whether an operation was issued by context `x`. -/
def Op.ofCtx (o : Op) (x : Nat) : Bool := o.src == .ctx x

/-- The long operations of a context that are outstanding (R96). -/
def State.outstanding (s : State) (x : Nat) : Nat := (s.ops.filter (fun o => o.ofCtx x)).length

def State.findOp (s : State) (id : Nat) : Option Op := s.ops.find? (fun o => o.id == id)
def State.setOp (s : State) (o : Op) : State := { s with ops := s.ops.map (fun q => if q.id = o.id then o else q) }
def State.dropOp (s : State) (id : Nat) : State := { s with ops := s.ops.filter (fun q => q.id != id) }

end Sys2Proof.Machine
end

