-- ==== Sys2Proof/Machine/Ledger.lean ====
section
/-! DEFINITION. The ledger: event codes, staging, coalescing, budgets and drops (R426 to R440), the trace buffer, the consequences of an event's
class (R429), MSI-X vectors (R376), and injection points (R441). -/

namespace Sys2Proof.Machine

/-! ## Codes and classes (R440) -/

def evIllegalEncoding : Nat := 0x0101
def evBoundsFault : Nat := 0x0102
def evAccOvercommit : Nat := 0x0103
def evAccRepass : Nat := 0x0104
def evSpadCorr : Nat := 0x0105
def evSpadUncorr : Nat := 0x0106
def evCoreWdog : Nat := 0x0107
def evCoreSpared : Nat := 0x0108
def evMtrCorr : Nat := 0x0201
def evMtrUncorr : Nat := 0x0202
def evLaneSpared : Nat := 0x0301
def evFtgCorr : Nat := 0x0302
def evFtgUncorr : Nat := 0x0303
def evRowRepaired : Nat := 0x0304
def evRowRetired : Nat := 0x0305
def evFtgTrainFail : Nat := 0x0306
def evFtgTableLost : Nat := 0x0307
def evUcfCorr : Nat := 0x0401
def evUcfUncorr : Nat := 0x0402
def evUcfQuarantined : Nat := 0x0403
def evUcfTrainFail : Nat := 0x0404
def evCsumMismatch : Nat := 0x0501
def evObjPoisoned : Nat := 0x0502
def evHodRecovered : Nat := 0x0503
def evHodNocopy : Nat := 0x0504
def evHodRefused : Nat := 0x0505
def evPageExhausted : Nat := 0x0506
def evLnkReplay : Nat := 0x0601
def evPortDegraded : Nat := 0x0602
def evLnkPortOut : Nat := 0x0603
def evLnkNopeer : Nat := 0x0604
def evLnkMiscabled : Nat := 0x0605
def evCourseBroken : Nat := 0x0701
def evArcTopoMismatch : Nat := 0x0702
def evArcMismatch : Nat := 0x0703
def evArcNorecv : Nat := 0x0704
def evStepOverflow : Nat := 0x0705
def evKeySat : Nat := 0x0801
def evKstDebugSet : Nat := 0x0802
def evKstSysDrift : Nat := 0x0803
def evMsnWdog : Nat := 0x0901
def evPrsSnapSkip : Nat := 0x0A01
def evPrsMirrorSkip : Nat := 0x0A02
def evPrsFlashErr : Nat := 0x0A03
def evPrsQuiesceTimeout : Nat := 0x0A04
def evPrsLoss : Nat := 0x0A05
def evPrsReplayOk : Nat := 0x0A06
def evReplayNoref : Nat := 0x0A07
def evReplayMismatch : Nat := 0x0A08
def evPrsRestoreFail : Nat := 0x0A09
def evPrsNsbDiff : Nat := 0x0A0A
def evQryResync : Nat := 0x0B01
def evQryRefmissing : Nat := 0x0B02
def evQryUnsupported : Nat := 0x0B03
def evQryBudget : Nat := 0x0B04
def evQryWindow : Nat := 0x0B05
def evQryWdog : Nat := 0x0B06
def evHifRingErr : Nat := 0x0C01
def evLedgerDrop : Nat := 0x0D01
def evSealImgReject : Nat := 0x0E01
def evSealBankFallback : Nat := 0x0E02
def evSealBootFail : Nat := 0x0E03
def evSealDebugUnlock : Nat := 0x0E04
def evSealTokenReject : Nat := 0x0E05
def evSupplyWarn : Nat := 0x0F01
def evSupplyStop : Nat := 0x0F02
def evSupplyFail : Nat := 0x0F03
def evThermThrottle : Nat := 0x0F04
def evThermCrit : Nat := 0x0F05
def evThermTrip : Nat := 0x0F06
def evPwrLimit : Nat := 0x0F07
def evPlnRailFail : Nat := 0x0F08
def evPlnPllUnlock : Nat := 0x0F09
def evGgeCalInvalid : Nat := 0x1001
def evGgeSensorFail : Nat := 0x1002

/-- The class of an event code (R440): 0 none, 1 C, 2 P, 3 S, 4 M. UCF and mortar events whose class depends on the case carry it themselves. -/
def classOf (c : Nat) : Nat :=
  if c ∈ [0x0101, 0x0102, 0x0103, 0x0106, 0x0107, 0x0504, 0x0506, 0x0701, 0x0703, 0x0704, 0x0802, 0x0803, 0x0A04, 0x0A08, 0x0A09, 0x0A0A, 0x0B06] then 3
  else if c ∈ [0x0306, 0x0307, 0x0404, 0x0901, 0x0E03, 0x0F02, 0x0F03, 0x0F06, 0x0F08, 0x0F09] then 4
  else if c ∈ [0x0502] then 2
  else if c ∈ [0x0105, 0x0108, 0x0201, 0x0202, 0x0301, 0x0302, 0x0303, 0x0304, 0x0305, 0x0401, 0x0402, 0x0403, 0x0501, 0x0503, 0x0602, 0x0603, 0x0604, 0x0605, 0x0702, 0x0801, 0x0A01, 0x0A02, 0x0A03, 0x0A06, 0x0A07, 0x0B01, 0x0B02, 0x0B03, 0x0B04, 0x0B05, 0x0C01, 0x0D01, 0x0E01, 0x0E02, 0x0E04, 0x0E05, 0x0F01, 0x0F05, 0x1001, 0x1002] then 1
  else 0

/-- The codes that have an injection point (R440). -/
def injectable : List Nat :=
  [0x0101, 0x0102, 0x0103, 0x0105, 0x0106, 0x0107, 0x0201, 0x0202, 0x0301, 0x0302, 0x0303, 0x0306, 0x0307, 0x0401, 0x0402, 0x0404, 0x0501, 0x0504, 0x0506, 0x0601, 0x0602, 0x0603, 0x0604, 0x0605, 0x0702, 0x0703, 0x0704, 0x0705, 0x0801, 0x0803, 0x0901, 0x0A01, 0x0A03, 0x0A04, 0x0A08, 0x0A09, 0x0A0A, 0x0B01, 0x0B02, 0x0B03, 0x0B04, 0x0B05, 0x0B06, 0x0C01, 0x0D01, 0x0E01, 0x0E05, 0x0F01, 0x0F03, 0x0F05, 0x0F06, 0x0F07, 0x0F08, 0x0F09, 0x1001, 0x1002]

/-! ## Interrupt vectors (R376) -/

/-- A byte of the MSI-X table; at reset every entry's mask bit is 1, as PCIe has it. PRESUMED. -/
def State.msixByte (s : State) (a : Nat) : Byte := Tab.get (if a % 16 = 12 then 1 else 0) s.hif.msix a

/-- Signals a vector: sent when its table entry is not masked, pending otherwise. -/
def State.signalVector (s : State) (v : Nat) : State :=
  if (s.msixByte (16 * v + 12)).getLsbD 0 then
    if v ∈ s.hif.pending then s else { s with hif := { s.hif with pending := s.hif.pending ++ [v] } }
  else { s with hif := { s.hif with sent := s.hif.sent ++ [v] } }

/-! ## Records -/

/-- The payload of an event (R428), bytes 36 to 62. -/
def Ev.payload (e : Ev) : List Byte :=
  toBytes 8 e.key ++ toBytes 4 e.w44 ++ (e.rest ++ List.replicate 15 0).take 15

/-- The step number in force, all ones when no job is started (R426). -/
def State.recStep (s : State) : W64 := if s.msn.job then s.nsb.step else BitVec.allOnes 64

/-- The record of an event accepted now, at the next sequence number. -/
def State.mkRec (s : State) (e : Ev) : Rec where
  seq := BitVec.ofNat 64 s.ldg.next
  power := s.ldg.power
  step := s.recStep
  cclk := s.pln.cclk
  src := BitVec.ofNat 16 e.src
  code := BitVec.ofNat 16 e.code
  sev := e.cls
  coal := false
  inj := e.inj
  rep := 0
  pay := e.payload

/-- The 64 bytes of a record (R426). -/
def Rec.bytes (r : Rec) : List Byte :=
  toBytes 8 r.seq.toNat ++ toBytes 4 r.power.toNat ++ toBytes 8 r.step.toNat ++ toBytes 8 r.cclk.toNat
    ++ toBytes 2 r.src.toNat ++ toBytes 2 r.code.toNat
    ++ [BitVec.ofNat 8 r.sev, BitVec.ofNat 8 ((if r.coal then 1 else 0) + (if r.inj then 2 else 0))]
    ++ toBytes 2 r.rep.toNat ++ r.pay ++ [0xA5]

/-- Slots of a pool that are free (R431). -/
def Ldg.room (l : Ldg) (p : Pool) : Bool :=
  (l.staged.filter (fun q => q.pool == p)).length <
    match p with
    | .general => 4096
    | .alarm => 256
    | .stepRec => 16

/-- Counts a dropped event of class `c` (R435, R437). -/
def Ldg.dropEv (l : Ldg) (c code src : Nat) (inj : Bool) : Ldg :=
  { l with
    dropInj := l.dropInj || inj
    drop := satInc l.drop
    fault := setBit l.fault 0 true
    dropC := if c = 1 then satInc l.dropC else l.dropC
    dropP := if c = 2 then satInc l.dropP else l.dropP
    dropN := if c = 0 then satInc l.dropN else l.dropN
    dropFirst := if l.dropFirst = none then some (code, src) else l.dropFirst }

/-- The step records (R433, R436). -/
def isStepCode (c : Nat) : Bool := c == evPrsLoss || c == evStepOverflow

/-- A step record or an alarm: no budget, and never dropped (R436). -/
def Ev.kept (e : Ev) : Bool := isStepCode e.code || 3 ≤ e.cls

/-- A staged record as one further occurrence leaves it. -/
def Staged.again (q : Staged) : Staged := { q with rcd := { q.rcd with coal := true, rep := q.rcd.rep + 1 } }

/-- Replaces the first staged record that meets `p` by `f` of it. -/
def updFirst (p : Staged → Bool) (f : Staged → Staged) : List Staged → List Staged
  | [] => []
  | q :: r => if p q then f q :: r else q :: updFirst p f r

/-- Replaces the newest staged record that meets `p`. -/
def updLast (p : Staged → Bool) (f : Staged → Staged) (l : List Staged) : List Staged :=
  (updFirst p f l.reverse).reverse

/-- Whether a staged record takes an event as a repeat (R435): same source, code and key, and not yet in flash. -/
def Staged.same (q : Staged) (e : Ev) : Bool :=
  !q.written && q.rcd.src == BitVec.ofNat 16 e.src && q.rcd.code == BitVec.ofNat 16 e.code && q.rcd.pay.take 8 == toBytes 8 e.key

/-- The staged records whose write to the ring has not begun. -/
def Ldg.unwrittenRing (l : Ldg) : List Staged :=
  l.staged.filter (fun q => !(l.programs.any (fun u => u.area == .ring && u.recs.any (fun r => r.seq == q.rcd.seq))))

/-- The programs that write a unit's records: to the ring, and the first 65,536 records of the module's life to the cornerstone too (R432). -/
def unitPrograms (unit : Nat) (rs : List Rec) : List FlashUnit :=
  let first := (rs.head?.map (fun r => r.seq.toNat)).getD 0
  { area := .ring, unit := unit, recs := rs }
    :: (if first < 65536 then [{ area := .cornerstone, unit := first / 64, recs := rs.filter (fun r => r.seq.toNat < 65536) }] else [])

/-- A full unit begins its write (R433). -/
def Ldg.fullUnit (l : Ldg) : Ldg :=
  if 64 ≤ l.unwrittenRing.length then
    let us := l.unwrittenRing.take 64
    let rs := us.map Staged.rcd
    { l with
      staged := l.staged.map (fun q => if rs.any (fun r => r.seq == q.rcd.seq) then { q with written := true } else q)
      programs := l.programs ++ unitPrograms l.ringUnit rs
      ringUnit := l.ringUnit + 1 }
  else l

/-- Adds a record to staging and advances the sequence number; the 64th record of a unit begins the unit's write. -/
def State.stageIn (s : State) (e : Ev) (p : Pool) : State :=
  { s with ldg := Ldg.fullUnit { s.ldg with
      staged := s.ldg.staged ++ [{ rcd := s.mkRec e, pool := p, written := false }]
      next := s.ldg.next + 1 } }

/-- Cuts a list into parts of at most 64, `n` of them at most. -/
def units64 : Nat → List Rec → List (List Rec)
  | 0, _ => []
  | _, [] => []
  | n + 1, l => l.take 64 :: units64 n (l.drop 64)

/-- Begins the write of every record not yet in flash to the tail. -/
def Ldg.flushTail (l : Ldg) : Ldg :=
  let rs := (l.staged.filter (fun q => !q.written)).map Staged.rcd
  let us := units64 rs.length rs
  { l with
    staged := l.staged.map (fun q => { q with written := true })
    programs := l.programs ++ us.zipIdx.map (fun p => { area := .tail, unit := l.tailUnit + p.2, recs := p.1 })
    tailUnit := l.tailUnit + us.length }

/-- The consequences of an event's class (R429), which every occurrence has (R430). -/
def State.consequence (s : State) (e : Ev) : State :=
  if e.cls = 0 then s
  else if e.cls < 3 then (if s.hif.note then s.signalVector 33 else s)
  else
    let t := s.signalVector 0
    { t with
      arc := { t.arc with hold := true }
      gge := { t.gge with alert := setBit t.gge.alert 0 true }
      pln := if e.cls = 4 then { t.pln with stopped := true, noJob := true } else t.pln }

/-- The LEDGER_DROP event that counts the drops since the last one, of which the first had this code and source (R437). -/
def Ldg.dropEvent (l : Ldg) (code src : Nat) : Ev :=
  { src := 0x3400, code := evLedgerDrop, cls := 1, key := l.dropC.toNat + l.dropP.toNat * 2 ^ 32, w44 := l.dropN.toNat
    rest := toBytes 2 code ++ toBytes 2 src, inj := l.dropInj }

/-- Stages the LEDGER_DROP record, with the consequence of its class. -/
def State.stageDrop (s : State) : State :=
  match s.ldg.dropFirst with
  | none => s
  | some (code, src) =>
    if s.ldg.room .general || s.ldg.room .alarm then
      let t := s.stageIn (s.ldg.dropEvent code src) (if s.ldg.room .general then .general else .alarm)
      ({ t with ldg := { t.ldg with dropC := 0, dropP := 0, dropN := 0, dropFirst := none, dropInj := false } }).consequence (s.ldg.dropEvent code src)
    else s

/-- A forced flush (R433, R437). -/
def State.flush (s : State) : State :=
  let t := s.stageDrop
  { t with ldg := t.ldg.flushTail }

/-- The budget left to a pair of source block and code (R435). -/
def Ldg.budget (l : Ldg) (e : Ev) : Nat := Tab.get 1024 l.budgets (e.src / 1024 * 65536 + e.code)

/-- Stages an event of class C, P or none (R435). `empty` is an injected empty budget. -/
def State.stageLimited (s : State) (e : Ev) (empty : Bool) : State :=
  match s.ldg.staged.find? (fun q => q.same e) with
  | some q =>
    if q.rcd.rep = BitVec.allOnes 16 then { s with ldg := s.ldg.dropEv e.cls e.code e.src (e.inj || empty) }
    else { s with ldg := { s.ldg with staged := updFirst (fun q => q.same e) Staged.again s.ldg.staged } }
  | none =>
    if s.ldg.room .general && 0 < s.ldg.budget e && !empty then
      let t := s.stageIn e .general
      { t with ldg := { t.ldg with
          budgets := Tab.set 1024 t.ldg.budgets (e.src / 1024 * 65536 + e.code) (s.ldg.budget e - 1) } }
    else { s with ldg := s.ldg.dropEv e.cls e.code e.src (e.inj || empty) }

/-- The record that an alarm replaces: the newest one of class C, P or none that is not yet in flash (R436). -/
def Staged.yields (q : Staged) : Bool := !q.written && q.rcd.sev < 3 && !(isStepCode q.rcd.code.toNat)

/-- One more repeat of the newest staged record that meets `p`, and of its copies in the programs that wait, so that the count reaches the record that flash
keeps. DESIGN CHOICE (129). -/
def Ldg.repeatLast (l : Ldg) (p : Staged → Bool) : Ldg :=
  match l.staged.reverse.find? p with
  | none => l
  | some q =>
    { l with
      staged := updLast p Staged.again l.staged
      programs := l.programs.map (fun u => { u with recs := u.recs.map (fun r => if r.seq = q.rcd.seq then q.again.rcd else r) }) }

/-- Where an alarm merges when staging holds only alarms and step records, in the order of R436. -/
def Ldg.mergeAlarm (l : Ldg) (e : Ev) : Ldg :=
  let free (q : Staged) : Bool := q.rcd.rep != BitVec.allOnes 16
  let src (q : Staged) : Bool := q.rcd.src == BitVec.ofNat 16 e.src
  let code (q : Staged) : Bool := q.rcd.code == BitVec.ofNat 16 e.code
  let alarm (q : Staged) : Bool := 3 ≤ q.rcd.sev
  let step (q : Staged) : Bool := isStepCode q.rcd.code.toNat
  if l.staged.any (fun q => free q && src q && code q) then l.repeatLast (fun q => free q && src q && code q)
  else if l.staged.any (fun q => free q && code q) then l.repeatLast (fun q => free q && code q)
  else if l.staged.any (fun q => free q && alarm q) then l.repeatLast (fun q => free q && alarm q)
  else l.repeatLast (fun q => free q && step q)

/-- Stages an alarm or a step record, and begins the forced flush that its staging calls for (R433, R436). -/
def State.stageKept (s : State) (e : Ev) : State :=
  let own : Pool := if isStepCode e.code then .stepRec else .alarm
  match s.ldg.staged.find? (fun q => q.same e && q.rcd.rep != BitVec.allOnes 16) with
  | some _ =>
    { s with ldg := { s.ldg with
        staged := updFirst (fun q => q.same e && q.rcd.rep != BitVec.allOnes 16) Staged.again s.ldg.staged } }
  | none =>
    if s.ldg.room own then (s.stageIn e own).flush
    else if s.ldg.room .general then (s.stageIn e .general).flush
    else
      match s.ldg.staged.reverse.find? Staged.yields with
      | some q =>
        let l := { s.ldg with staged := s.ldg.staged.filter (fun r => r.rcd.seq != q.rcd.seq) }
        ({ s with ldg := l.dropEv q.rcd.sev q.rcd.code.toNat q.rcd.src.toNat q.rcd.inj }.stageIn e q.pool).flush
      | none => { s with ldg := s.ldg.mergeAlarm e }

/-! ## Trace buffer (R439) -/

/-- The trace events. -/
def isTraceCode (c : Nat) : Bool := c == evAccRepass || c == evHodRefused || c == evLnkReplay

/-- The number of records the trace buffer holds. -/
def Ldg.traceSize (l : Ldg) : Nat := fld l.traceCfg.toNat 63 32 * 1024

/-- Whether the trace buffer has been filled in stop mode. -/
def Ldg.traceStopped (l : Ldg) : Bool := bitOf l.traceCfg.toNat 25 && l.traceFull

/-- Whether the next trace record can be written now: the buffer is a DATA object that no move or poison holds, and has room for it. -/
def State.traceWritable (s : State) : Bool :=
  let l := s.ldg
  let h := fld l.traceCfg.toNat 23 0
  let o := s.obj (hIdx h)
  bitOf l.traceCfg.toNat 24 && s.named h && o.kind == .data && (o.st == .fast || o.st == .slow) && 64 * l.traceNext.toNat + 64 ≤ o.bytes
    && 0 < l.traceSize && !l.traceStopped

/-- Writes a trace record at the next place of the buffer. -/
def State.traceWrite (s : State) (r : Rec) : State :=
  let l := s.ldg
  let t := s.objWrite (hIdx (fld l.traceCfg.toNat 23 0)) (64 * l.traceNext.toNat) r.bytes
  let n := l.traceNext.toNat + 1
  { t with ldg := { t.ldg with
      traceNext := if l.traceSize ≤ n then 0 else BitVec.ofNat 32 n
      traceFull := l.traceFull || decide (l.traceSize ≤ n) } }

/-- Writes the oldest `n` staged trace records at most, as far as the buffer takes them. -/
def State.traceDrain : Nat → State → State
  | 0, s => s
  | n + 1, s =>
    match s.ldg.traceStaged with
    | [] => s
    | r :: rest => if s.traceWritable then State.traceDrain n (({ s with ldg := { s.ldg with traceStaged := rest } }).traceWrite r) else s

/-- Stages a trace record and writes what the buffer takes; drops it where staging is full, EN is 0, or the buffer is full in stop mode. -/
def State.trace (s : State) (e : Ev) : State :=
  let l := s.ldg
  if bitOf l.traceCfg.toNat 24 && !l.traceStopped && l.traceStaged.length < 64 then
    State.traceDrain 64 { s with ldg := { l with
      traceStaged := l.traceStaged ++ [{ s.mkRec e with seq := BitVec.ofNat 64 l.traceSeq }]
      traceSeq := l.traceSeq + 1 } }
  else { s with ldg := { l with traceDrop := satInc l.traceDrop } }

/-! ## Injection (R441) -/

/-- Whether the armed point is that of `code` at the instance `src`, with an argument that `ok` accepts. -/
def State.injArmed (s : State) (code src : Nat) (ok : Nat → Bool := fun _ => true) : Bool :=
  let c := s.ldg.injCtl.toNat
  bitOf c 40 && !s.ldg.injHeld && fld c 15 0 == code && fld c 31 16 == src && ok s.ldg.injArg.toNat && 0 < s.ldg.injLeft

/-- One report of the armed point: the count falls, ARM reads 0 after the last, and LDG_FAULT INJ is set. -/
def State.injReport (s : State) : State :=
  { s with ldg := { s.ldg with
      injLeft := s.ldg.injLeft - 1
      injCtl := if s.ldg.injLeft ≤ 1 then setBit s.ldg.injCtl 40 false else s.ldg.injCtl
      fault := setBit s.ldg.fault 2 true } }

/-- A check of a detector: whether its armed point reports, and the state after. -/
def State.injCheck (s : State) (code src : Nat) (ok : Nat → Bool := fun _ => true) : Bool × State :=
  if s.injArmed code src ok then (true, s.injReport) else (false, s)

/-! ## Posting an event -/

/-- Whether an injected empty budget applies to an event (R440, LEDGER_DROP): ARG names its code in [15:0] and its source in [31:16]. DEDUCED. -/
def State.injBudget (s : State) (e : Ev) : Bool :=
  !e.kept && s.injArmed evLedgerDrop 0x3400 (fun a => fld a 15 0 == e.code && fld a 31 16 == e.src)

/-- Records an event and applies the consequences of its class. -/
def State.post (s : State) (e : Ev) : State :=
  if isTraceCode e.code then s.trace e
  else if e.kept then (s.stageKept e).consequence e
  else if s.injBudget e then (s.injReport.stageLimited e true).consequence e
  else (s.stageLimited e false).consequence e

/-- An event of a code's own class. -/
def evOf (src code : Nat) (key : Nat := 0) (w44 : Nat := 0) (rest : List Byte := []) (inj : Bool := false) : Ev :=
  { src := src, code := code, cls := classOf code, key := key, w44 := w44, rest := rest, inj := inj }

/-- Records one. -/
def State.ev (s : State) (src code : Nat) (key : Nat := 0) (w44 : Nat := 0) (rest : List Byte := []) (inj : Bool := false) : State :=
  s.post (evOf src code key w44 rest inj)

/-- Whether an event takes its sequence number before another of the same ICLK: by descending severity, then ascending source, then ascending code (R431). -/
def Ev.first (a b : Ev) : Bool := b.cls < a.cls || (a.cls == b.cls && (a.src < b.src || (a.src == b.src && a.code < b.code)))

/-- Puts an event in its place among events in the order of R431. -/
def Ev.into (e : Ev) : List Ev → List Ev
  | [] => [e]
  | f :: r => if e.first f then e :: f :: r else f :: e.into r

/-- Records events of one ICLK. -/
def State.evs (s : State) (l : List Ev) : State := (l.foldl (fun r e => e.into r) []).foldl State.post s

/-- The source of a block's instance (R427). -/
def srcOf (block inst : Nat) : Nat := block * 1024 + inst

end Sys2Proof.Machine
end

