-- ==== Sys2Proof/Machine/Rings.lean ====
section
/-! DEFINITION. Rings: sizes, enabling and disabling, the fetch of an entry and the posting of completions (R377 to R380). -/

namespace Sys2Proof.Machine

/-- LOG2 of a ring; ring 0 reads 12 (R387). -/
def State.ringLog2 (s : State) (r : Nat) : Nat := if r = 0 then 12 else (s.ring r).log2

/-- The number of entries of a ring. -/
def State.ringSize (s : State) (r : Nat) : Nat := 2 ^ s.ringLog2 r

/-- The handle of a ring's object; ring 0 is object 1, generation 1 (R377). -/
def State.ringHandle (s : State) (r : Nat) : Nat := if r = 0 then 0x100001 else fld (s.ring r).base.toNat 23 0

/-- Completion statuses (R379). -/
def stOk : Nat := 0
def stRefused : Nat := 1
def stFault : Nat := 2
def stAborted : Nat := 3
def stNojob : Nat := 4
def stMalformed : Nat := 5

/-- The 16 bytes of a completion entry. -/
def complBytes (status phase tag result : Nat) : List Byte :=
  toBytes 2 status ++ [BitVec.ofNat 8 phase, 0] ++ toBytes 4 tag ++ toBytes 8 result

/-- Posts the completions at the front of a ring that are known, in ring order. -/
def State.postFront (s : State) (r : Nat) : Nat → State
  | 0 => s
  | n + 1 =>
    match (s.ring r).fetched with
    | f :: rest =>
      match f.answer with
      | some (status, result) =>
        let g := s.ring r
        let size := s.ringSize r
        let phase := if g.posted / size % 2 = 0 then 1 else 0
        let t := { s with hostMem := Mem.write s.hostMem (g.cqAddr.toNat + 16 * (f.count % size)) (complBytes status phase f.tag result) }
        let t := t.setRing r { g with fetched := rest, posted := g.posted + 1, drain := g.drain && !rest.isEmpty }
        (if f.flags % 2 = 1 then t.signalVector (r + 1) else t).postFront r n
      | none => s
    | [] => s

/-- Answers the fetched entry of count `c`, and posts what is then at the front. After MSN_WDOG no completion is written (R382). -/
def State.answer (s : State) (r c status result : Nat) : State :=
  if s.msn.dead then s
  else
    let g := s.ring r
    let l := g.fetched.map (fun f => if f.count = c && f.answer = none then { f with answer := some (status, result) } else f)
    (s.setRing r { g with fetched := l }).postFront r l.length

/-- The bytes of the entry in slot `c mod size` of a ring's object, none where the object cannot be reached. -/
def State.entryAt (s : State) (r c : Nat) : Option (List Byte) :=
  let h := s.ringHandle r
  let o := s.obj (hIdx h)
  if s.named h && (o.st == .fast || o.st == .slow) then some (s.objRead (hIdx h) (64 * (c % s.ringSize r)) 64) else none

/-- Whether mason may fetch the next entry of a ring: it is enabled, an entry is pending, the completion ring keeps a place for it,
and mason runs (R379, R382). -/
def State.canFetch (s : State) (r : Nat) : Bool :=
  let g := s.ring r
  g.en && g.head != g.tail && decide (g.posted + g.fetched.length < g.consumed + s.ringSize r) && s.msn.fw && !s.msn.dead

/-- The fetch of an entry: the head advances and the entry's completion is owed. -/
def State.fetch (s : State) (r : Nat) (tag flags : Nat) : State :=
  let g := s.ring r
  s.setRing r { g with head := g.head + 1, fetched := g.fetched ++ [{ count := g.head.toNat, tag := tag, flags := flags }] }

/-- Disables a ring (R380): nothing further is fetched, what was fetched still completes. -/
def State.disableRing (s : State) (r : Nat) : State :=
  let g := s.ring r
  s.setRing r { g with en := false, drain := !g.fetched.isEmpty }

/-- Records HIF_RING_ERR. -/
def State.ringErr (s : State) (r : Nat) (v : Nat := 0) (inj : Bool := false) : State :=
  ({ s with hif := { s.hif with fault := setBit s.hif.fault 0 true } }).ev (srcOf 0x0C r) evHifRingErr v 0 [] inj

end Sys2Proof.Machine
end

