-- ==== Sys2Proof/Machine/Sched.lean ====
section
/-! DEFINITION. Contexts: selection and replacement, waiting and release, faults and endings (R90 to R92, R107). -/

namespace Sys2Proof.Machine

/-- Whether a supply warning holds the module: what has started runs on, and nothing new starts (R409). -/
def State.warned (s : State) : Bool := s.pln.hold && !s.pln.resuming

/-- Whether plinth and mason let a core issue: no class M stop, and its group enabled (R409, R414, R429). -/
def State.canIssue (s : State) (k : Nat) : Bool := !s.pln.stopped && decide (k / 8 < s.pln.groups) && !s.warned

/-- The contexts of a core. -/
def ctxsOf (k : Nat) : List Nat := (List.range 8).map (fun c => 8 * k + c)

/-- The contexts of a core in round-robin order, beginning after context `t` of the core. -/
def rrFrom (k t : Nat) : List Nat := (List.range 8).map (fun c => 8 * k + (t + 1 + c) % 8)

/-- The READY context that selection takes: of highest priority, in round-robin order among equals (R91). -/
def State.best (s : State) (k : Nat) : Option Nat :=
  (rrFrom k (s.core k).turn).foldl (fun b x =>
    if (s.ctx x).st = .ready then
      match b with
      | none => some x
      | some y => if (s.ctx y).prio < (s.ctx x).prio then some x else some y
    else b) none

/-- Selects a context for a core that runs none and may issue: at once the one that issued last, else its switch begins (R92). -/
def State.select (s : State) (k : Nat) : State :=
  if (ctxsOf k).any (fun x => (s.ctx x).st = .running) || !s.canIssue k then s
  else if (s.core k).switching.any (fun x => (s.ctx x).st = .ready) then s
  else
    match s.best k with
    | none => s.setCore k { s.core k with switching := none }
    | some x =>
      let c := { s.core k with turn := x % 8, switching := none, quantum := false }
      if (s.core k).last = some x then (s.setCore k c).setCtx x { s.ctx x with st := .running, issued := 0 }
      else s.setCore k { c with switching := some x }

/-- Puts a context into a state other than RUNNING, and lets its core select again. -/
def State.leave (s : State) (x : Nat) (c : Ctx) : State := (s.setCtx x c).select (coreOf x)

/-- A context becomes WAITING (R92). -/
def State.wait (s : State) (x : Nat) (w : Wait) : State := s.leave x { s.ctx x with st := .waiting, wait := w }

/-- The counter and threshold of a SYN.WAIT that a context waits on (R331). -/
def Wait.syn : Wait → Option (Counter × W32)
  | .counter c t | .delay c t => some (c, t)
  | .released _ _ on => on
  | _ => Option.none

/-- A WAITING context is released, with its program counter moved on by `adv` bytes; while issue is held no context changes state (R409),
and the release waits. -/
def State.wake (s : State) (x : Nat) (adv : Nat) : State :=
  let c := s.ctx x
  if s.canIssue (coreOf x) then s.leave x { c with pc := c.pc + BitVec.ofNat 64 adv, st := .ready, wait := .none }
  else s.setCtx x { c with wait := .released false adv c.wait.syn }

/-- Whether the kind is a HOD operation. -/
def LKind.hodOp : LKind → Bool
  | .hodPin | .hodUnpin | .hodPromote | .hodDemote | .hodDrop | .hodAppend | .hodTrim => true
  | _ => false

/-- Whether a context issues nothing after an operation of the kind until its port or the hod has taken it: a HOD operation, NUM.STEPUPD or NUM.STEPBEGIN, which R92
may hold. DESIGN CHOICE (111): only timing depends on it. -/
def LKind.inTurn (k : LKind) : Bool := k.hodOp || k == .numStepupd || k == .numStepbegin

/-- Whether the hod or mason holds an operation so that its context is WAITING (R92): a HOD operation on an object or on the page-free counter (R228), or
a NUM operation on the step outcome (R77). A held MOV, arch or quarry operation lets its context issue on until the next issue depends on it (R135, R271),
which only an instruction that waits does. -/
def State.holds (s : State) (o : Op) : Bool :=
  match o.st with
  | .heldObj _ _ | .heldCap _ _ _ => o.kind.hodOp
  | .started => (o.kind == .numStepupd && s.nsb.outcome == 0) || (o.kind == .numStepbegin && s.nsb.outcome != 0 && !s.nsb.applied)
  | _ => false

/-- Whether an operation of context `x` is held. -/
def State.opHeld (s : State) (x : Nat) : Bool := s.ops.any (fun o => o.src == .ctx x && s.holds o)

/-- Whether an operation of context `x` still stands in the queue that it must leave before the next issue. -/
def State.opWaits (s : State) (x : Nat) : Bool := s.ops.any (fun o => o.src == .ctx x && o.st == .queued && o.kind.inTurn)

/-- A context waits at the operation that is held: its program counter is at that instruction (R90). -/
def State.waitHeld (s : State) (x : Nat) : State :=
  match s.ops.find? (fun o => o.src == .ctx x && s.holds o) with
  | some o => s.leave x { s.ctx x with pc := BitVec.ofNat 64 (16 * o.off), st := .waiting, wait := .held }
  | none => s

/-- What a context does about its held operation (R92): it is WAITING at it while it is held, and goes on past it. -/
def State.parkCtx (s : State) (x : Nat) : State :=
  if (s.ctx x).st = .running && s.opHeld x && s.canIssue (coreOf x) then s.waitHeld x
  else if (s.ctx x).st = .waiting && (s.ctx x).wait = .held && !s.opHeld x then s.wake x 16
  else s

/-- After an instruction of the RUNNING context `x`: it is replaced when a context of higher priority is READY, or of equal priority once
its quantum is used (R91). -/
def State.afterIssue (s : State) (x : Nat) : State :=
  let k := coreOf x
  let c := s.ctx x
  let s := (s.setCtx x { c with issued := c.issued + 1 }).setCore k { s.core k with last := some x, fetched := (s.core k).fetched + 1 }
  match s.best k with
  | some y =>
    if c.prio < (s.ctx y).prio || ((s.core k).quantum && c.prio = (s.ctx y).prio) then
      (s.setCtx x { s.ctx x with st := .ready }).select k
    else s
  | none => s

/-- The START entry that runs on a context. -/
def State.startOf (s : State) (x : Nat) : Option Started := s.hif.starts.find? (fun t => t.ctx == some x)

/-- Answers the START entry of a context and takes it out of service. -/
def State.endStart (s : State) (x status result : Nat) : State :=
  match s.startOf x with
  | some t =>
    let s := { s with hif := { s.hif with starts := s.hif.starts.filter (fun u => !(u.ring == t.ring && u.count == t.count)) } }
    s.answer t.ring t.count status result
  | none => s

/-- CORE_CTX_FLT and the bit of CORE_FAULT show a fault of a context (R113). -/
def State.showFault (s : State) (x code off : Nat) : State :=
  s.modSlot (coreOf x) (fun p =>
    { p with fault := setBit p.fault (x % 8) true, flt := Tab.set 0 p.flt (x % 8) (BitVec.ofNat 64 (code + off * 2 ^ 16)) })

/-- A context fault (R107): FAULTED at its program counter, CORE_CTX_FLT and CORE_FAULT written, and the entry that started the context answered
FAULT. `off` is the offset of the faulting instruction ÷ 16. The event is recorded here when `rec` says so: that of an asynchronous fault was
recorded at its detection. DESIGN CHOICE (112): CORE_CTX_FLT and the bit of CORE_FAULT are written when the context becomes FAULTED, for an asynchronous
fault too; R107 and R113 do not say whether its detection writes them. -/
def State.faultCtx (s : State) (x code off : Nat) (rec : Bool) (inj : Bool := false) : State :=
  let c := s.ctx x
  let s := (s.setCtx x { c with st := .faulted, wait := .none, asyncFlt := none }).showFault x code off
  let s := if rec then s.ev (srcOf 0x01 x) code off c.code.toNat [] inj else s
  (s.endStart x stFault (code + off * 2 ^ 16)).select (coreOf x)

/-- A context becomes IDLE by CTL.END: its registers stay as they are until it is started again, and its entry is answered OK. -/
def State.endCtx (s : State) (x : Nat) : State :=
  let s := s.setCtx x { s.ctx x with st := .idle, wait := .none }
  (s.endStart x stOk 0).select (coreOf x)

/-- Whether an operation is a context's. -/
def Op.ofAnyCtx (o : Op) : Bool :=
  match o.src with
  | .ctx _ => true
  | _ => false

/-- A PREEMPT completes once no long operation is outstanding on the module (R382). -/
def State.preemptDone (s : State) : State :=
  match s.msn.busy with
  | some (c, _, _, op) =>
    if op = 0x11 && !s.msn.preempt && !s.ops.any Op.ofAnyCtx then { s with msn := { s.msn with busy := none } }.answer 0 c stOk 0 else s
  | none => s

/-- A context held at CTL.END whose long operations have all ended: IDLE, or FAULTED when one of them faulted (R90). -/
def State.endHeld (s : State) (x : Nat) : State :=
  match (s.ctx x).asyncFlt with
  | some (code, off) => s.faultCtx x code off false
  | none => s.endCtx x

/-- What a context goes on with once an operation of it has completed or been dropped (R90, R92, R96, R107): when it was held at CTL.END, at
CTL.DRAIN or by the limit of outstanding operations. -/
def State.ctxGone (s : State) (x : Nat) : State :=
  let c := s.ctx x
  if c.st ≠ .waiting then s
  else
    match c.wait with
    | .ended =>
      if s.outstanding x = 0 then (if s.canIssue (coreOf x) then s.endHeld x else s.setCtx x { c with wait := .released true 0 none })
      else s
    | .drain => if s.outstanding x = 0 then s.wake x 16 else s
    | .outstanding => s.wake x 0
    | .held => if s.opHeld x then s else s.wake x 16
    | _ => s

/-- What a completed or dropped operation of a context lets go on. -/
def State.opGone (s : State) (x : Nat) : State := (s.ctxGone x).preemptDone

/-- A queue entry of a unit frees: contexts held on that queue issue again (R96). -/
def State.queueFreed (s : State) (k : Nat) (u : CoreUnit) : State :=
  (ctxsOf k).foldl (fun s x => if (s.ctx x).st = .waiting && (s.ctx x).wait = .queue u then s.wake x 0 else s) s

/-- Mason stops a context (R90). -/
def State.stopCtx (s : State) (x : Nat) : State :=
  let c := s.ctx x
  if c.st = .ready || c.st = .running then s.leave x { c with st := .stopped, priorWaiting := false, wait := .none }
  else if c.st = .waiting then
    s.setCtx x { c with st := .stopped, priorWaiting := true, wait := .none
                        asyncFlt := c.asyncFlt }
  else s

/-- Mason resumes a STOPPED context (R90). -/
def State.resumeCtx (s : State) (x : Nat) : State :=
  let c := s.ctx x
  if c.st = .stopped then s.leave x { c with st := .ready, wait := .none } else s

/-- The contexts that have left their reset state, in number order: every other one is IDLE. -/
def State.ctxKeys (s : State) : List Nat := s.ctxs.map Prod.fst

/-- Every context waits on its held operations, and goes on without them. -/
def State.park (s : State) : State := s.ctxKeys.foldl State.parkCtx s

/-- Mason discards a context (R90): IDLE; keystone keeps its counters and their sticky flags, which only a job start or a restore clears (R328). -/
def State.discardCtx (s : State) (x : Nat) : State := (s.setCtx x { ctr := (s.ctx x).ctr, sticky := (s.ctx x).sticky }).select (coreOf x)

end Sys2Proof.Machine
end

