-- ==== Sys2Proof/Machine/Keystone.lean ====
section
/-! DEFINITION. Keystone counters: names, signals with saturation, SET, and the release of waiters (R314 to R323). -/

namespace Sys2Proof.Machine

/-- The counter of a full name, for code on logical core `k`; none in space 3 or where a bit that R316 marks zero is set. -/
def fullName (k n : Nat) : Option Counter :=
  match fld n 15 14 with
  | 0 => if fld n 13 8 = 0 then some (.ctx (Fin.ofNat 512 (8 * k + fld n 7 5)) (Fin.ofNat 32 (fld n 4 0))) else none
  | 1 => if fld n 13 12 = 0 then some (.job (Fin.ofNat 4096 (fld n 11 0))) else none
  | 2 => if fld n 13 6 = 0 then some (.sys (Fin.ofNat 64 (fld n 5 0))) else none
  | _ => none

/-- The full name of a counter (R316). -/
def nameOf : Counter → Nat
  | .ctx x c => x.val % 8 * 32 + c.val
  | .job j => 0x4000 + j.val
  | .sys k => 0x8000 + k.val

/-- The counter of a short form, for code on logical core `k`; none where it is reserved (R317). -/
def shortName (k n : Nat) : Option Counter :=
  if n < 0x100 then fullName k n
  else if n < 0x140 then some (.sys (Fin.ofNat 64 (n - 0x100)))
  else if n < 0x400 then none
  else some (.job (Fin.ofNat 4096 (n - 0x400)))

/-- A counter's value. -/
def State.counter (s : State) : Counter → W32
  | .ctx x c => (s.ctx x).counter c
  | .job j => Tab.get 0 s.kst.ctr j.val
  | .sys k => Tab.get 0 s.kst.sys k.val

/-- A counter's sticky saturation flag. -/
def State.sticky (s : State) : Counter → Bool
  | .ctx x c => (s.ctx x).sticky.getLsbD c
  | .job j => Tab.get false s.kst.jsat j.val
  | .sys k => Tab.get false s.kst.syssat k.val

/-- Writes a counter's value and flag. -/
def State.putCounter (s : State) (c : Counter) (v : W32) (f : Bool) : State :=
  match c with
  | .ctx x n => s.setCtx x { s.ctx x with ctr := Tab.set 0 (s.ctx x).ctr n.val v, sticky := setBit (s.ctx x).sticky n.val f }
  | .job j => { s with kst := { s.kst with ctr := Tab.set 0 s.kst.ctr j.val v, jsat := Tab.set false s.kst.jsat j.val f } }
  | .sys k => { s with kst := { s.kst with sys := Tab.set 0 s.kst.sys k.val v, syssat := Tab.set false s.kst.syssat k.val f } }

/-- Releases every context whose SYN.WAIT on the counter is met by its value (R320). -/
def State.release (s : State) (c : Counter) : State :=
  s.ctxKeys.foldl (fun s x =>
    if (s.ctx x).st = .waiting then
      match (s.ctx x).wait with
      | .counter d t => if d = c && t ≤ s.counter c then s.wake x 16 else s
      | _ => s
    else s) s

/-- The source of KEY_SAT (R427). -/
def satSource : Counter → Nat
  | .ctx x _ => srcOf 0x01 x.val
  | _ => srcOf 0x08 0

/-- A counter after an amount is added, saturating, and whether it saturated (R315). -/
def addSat (v : W32) (amt : Int) : W32 × Bool :=
  let r := (v.toNat : Int) + amt
  if 0xFFFFFFFF < r then (0xFFFFFFFF, true) else if r < 0 then (0, true) else (BitVec.ofNat 32 r.toNat, false)

/-- The saturation of a counter: counted always, recorded when its flag was clear (R315). -/
def State.saturated (s : State) (c : Counter) (amt : Int) (inj : Bool) : State :=
  let was := s.sticky c
  let s := { s with kst := { s.kst with sat := satInc s.kst.sat } }
  let s := s.putCounter c (s.counter c) true
  if was then s
  else ({ s with kst := { s.kst with fault := setBit s.kst.fault 0 true } }).ev (satSource c) evKeySat (nameOf c)
    ((amt % 2 ^ 32).toNat) [] inj

/-- A signal (R315, R320). -/
def State.signal (s : State) (c : Counter) (amt : Int) : State :=
  let (i, s) := s.injCheck evKeySat (satSource c) (fun a => a == nameOf c)
  let r := addSat (s.counter c) amt
  let s := s.putCounter c r.1 (s.sticky c)
  let s := if r.2 || i then s.saturated c amt i else s
  s.release c

/-- A SET (R319, R320): the value, the flag cleared, and the waiters it meets released. -/
def State.setCounter (s : State) (c : Counter) (v : W32) : State := (s.putCounter c v false).release c

/-- The completion signal of an operation on core `k` (R120). -/
def State.signalShort (s : State) (k : Nat) (sig : Option Nat) : State :=
  match sig with
  | some n =>
    match shortName k n with
    | some c => s.signal c 1
    | none => s
  | none => s

end Sys2Proof.Machine
end

