-- ==== Sys2Proof/Machine/Links.lean ====
section
/-! DEFINITION. Node identifiers, routing and the messages that the module sends (R294, R296, R298). What is sent is kept in `Arc.outbox`, in
order; ports count the payload that a pair carries. -/

namespace Sys2Proof.Machine

/-- The ring length of a course. -/
def Arc.n (a : Arc) (c : Nat) : Nat := a.ring.getD c 0

/-- ARC_TOPO and ARC_POS (R313). -/
def Arc.topo (a : Arc) : Nat := ((List.range 4).map (fun c => a.ring.getD c 0 * 2 ^ (11 * c))).foldl (· + ·) 0
def Arc.posWord (a : Arc) : Nat := ((List.range 4).map (fun c => a.pos.getD c 0 * 2 ^ (16 * c))).foldl (· + ·) 0

/-- The modules of the job. -/
def Arc.nodes (a : Arc) : Nat := a.ring.foldl (· * ·) 1

/-- Whether a node belongs to the job (R294). -/
def Arc.inJob (a : Arc) (n : Nat) : Bool := a.valid && n < a.nodes

/-- Whether a node is another node of the job. -/
def Arc.other (a : Arc) (n : Nat) : Bool := a.inJob n && n != a.node.toNat

/-- The product of the ring lengths below course `d`. -/
def Arc.below (a : Arc) (d : Nat) : Nat := (a.ring.take d).foldl (· * ·) 1

/-- The ring position of a node in course `d`. -/
def Arc.posOf (a : Arc) (n d : Nat) : Nat := n / a.below d % max 1 (a.n d)

/-- The module's own position in course `d`. -/
def Arc.at (a : Arc) (d : Nat) : Nat := a.pos.getD d 0

/-- The node at given positions (R294). -/
def Arc.nodeAt (a : Arc) (pos : List Nat) : Nat :=
  ((List.range 4).map (fun d => pos.getD d 0 * a.below d)).foldl (· + ·) 0

/-- The neighbour in course `d`. -/
def Arc.neighbour (a : Arc) (d : Nat) (following : Bool) : Nat :=
  let n := max 1 (a.n d)
  a.nodeAt (a.pos.set d ((a.at d + (if following then 1 else n - 1)) % n))

/-- The course and direction of the next link towards a node: the lowest course whose positions differ, the shorter way round, the following
way on a tie. -/
def Arc.route (a : Arc) (dst : Nat) : Option (Nat × Bool) :=
  match (List.range 4).find? (fun d => a.posOf dst d != a.at d) with
  | none => none
  | some d =>
    let n := a.n d
    let f := (a.posOf dst d + n - a.at d) % n
    some (d, f ≤ n - f)

/-- Whether the next link of a course crosses from position N − 1 to 0 or back (R296). -/
def Arc.crosses (a : Arc) (d : Nat) (following : Bool) : Bool :=
  if following then a.at d + 1 == a.n d else a.at d == 0

/-- The virtual channel of a message (R297). -/
def msgVc (m : Msg) : Nat :=
  match m.kind with
  | 1 => 1
  | 2 | 3 | 4 => 2
  | 5 | 8 => 3
  | _ => 0

/-- The 32-byte header of a message (R298). -/
def msgHeader (m : Msg) : List Byte :=
  toBytes 2 m.src.toNat ++ toBytes 2 m.dst.toNat ++ toBytes 1 m.kind ++ toBytes 1 (m.course.val + (if m.following then 4 else 0) + (if m.bufClass then 8 else 0))
    ++ [m.epoch, 0] ++ toBytes 8 m.len ++ toBytes 4 m.tag.toNat ++ toBytes 8 m.off
    ++ toBytes 2 (match m.ctr with | some c => c.toNat + 2 ^ 15 | none => 0) ++ [0, 0]

/-- The bytes of a message: its header, and its data with the CRC-32C of each integrity block behind it (R298). -/
def msgStream (m : Msg) : List Byte :=
  msgHeader m ++ (List.range (ceilDiv m.data.length 4096)).flatMap (fun j =>
    let b := (m.data.drop (4096 * j)).take 4096
    b ++ toBytes 4 (crc32c b))

/-- The payloads of a message's flits; the last is padded with zeros. -/
def msgPayloads (m : Msg) : List (List Byte) :=
  (List.range (ceilDiv (msgStream m).length 248)).map (fun j =>
    let b := ((msgStream m).drop (248 * j)).take 248
    b ++ List.replicate (248 - b.length) 0)

/-- The flits of a message, counted: a 32-byte header, the data, and 4 bytes of checksum per integrity block (R289, R298). -/
def msgFlits (m : Msg) : Nat := ceilDiv (32 + m.data.length + 4 * ceilDiv m.data.length 4096) 248

/-- The ports of the pair that faces a neighbour (R288). -/
def pairPorts (course : Nat) (following : Bool) : Nat × Nat :=
  if following then (4 * course, 4 * course + 1) else (4 * course + 2, 4 * course + 3)

/-- The pair of a port: 2 × course, plus 1 towards the preceding neighbour. -/
def pairOf (port : Nat) : Nat := port / 2

/-- Whether a port carries its pair's stream. -/
def Port.inUse (p : Port) : Bool := p.state == 2 || p.state == 3

/-- Counts flits that a pair sends, over its ports in use in proportion to their widths (R288); which port takes what does not divide is a free value. -/
def State.putFlits (s : State) (k n : Nat) : State :=
  let p := 2 * k
  let q := 2 * k + 1
  let add (s : State) (p n : Nat) : State := s.setPort p { s.port p with tx := (s.port p).tx + BitVec.ofNat 64 (248 * n) }
  if (s.port p).inUse && (s.port q).inUse then
    let w := (s.port p).width
    let v := (s.port q).width
    let (c, s) := s.fresh
    let a := n * w / (w + v) + (if n * w % (w + v) = 0 then 0 else Config.choose c % 2)
    add (add s p a) q (n - a)
  else if (s.port p).inUse then add s p n
  else add s q n

/-- A pair sends what waits, as far as its replay buffer of 2,048 flits has room (R290) and a port of it is in use. -/
def State.pump (s : State) (k : Nat) : State :=
  let r := s.pair k
  let n := if (s.port (2 * k)).inUse || (s.port (2 * k + 1)).inUse then min r.backlog (2048 - (r.next - r.acked).toNat) else 0
  if n = 0 then s else (s.setPair k { r with next := r.next + BitVec.ofNat 12 n, backlog := r.backlog - n }).putFlits k n

/-- Puts flits on a pair. -/
def State.countTx (s : State) (course : Nat) (following : Bool) (flits : Nat) : State :=
  let k := pairOf (pairPorts course following).1
  (s.setPair k { s.pair k with backlog := (s.pair k).backlog + flits }).pump k

/-- An empty message to a node. -/
def State.newMsg (s : State) (dst kind : Nat) : Msg :=
  { src := s.arc.node, dst := BitVec.ofNat 14 dst, kind := kind, course := 0, following := false, bufClass := false, epoch := s.kst.epoch
    len := 0, tag := 0, off := 0, ctr := none, data := [], coll := 0, chunk := 0, clen := 0, efmt := 0, dtd := false, hop := 0, op := 0 }

/-- Puts a message on its next link. -/
def State.link (s : State) (m : Msg) (course : Nat) (following : Bool) : State :=
  let m := { m with course := Fin.ofNat 4 course, following := following, bufClass := m.bufClass || s.arc.crosses course following }
  let s := s.countTx course following (msgFlits m)
  { s with arc := { s.arc with outbox := s.arc.outbox ++ [m] } }

/-- Sends a message towards its destination. -/
def State.sendMsg (s : State) (m : Msg) : State :=
  match s.arc.route m.dst.toNat with
  | some (d, f) => s.link m d f
  | none => s

/-- Returns a completion for a message (R302, R325): it names the operation that the message carried, and the kind of the
message. -/
def State.complete (s : State) (m : Msg) (refused : Bool := false) : State :=
  s.sendMsg { s.newMsg m.src.toNat 8 with tag := m.tag, op := m.op, coll := m.kind, dtd := refused }

/-- A message stays on its link, behind those that wait there already. -/
def State.waitIn (s : State) (m : Msg) : State := { s with arc := { s.arc with heldIn := s.arc.heldIn ++ [m] } }

/-- What is common to every arriving message: one of another epoch is discarded and counted (R326), one for another module is forwarded
(R296), and one for this module is handled by `f`. -/
def State.arrive (s : State) (m : Msg) (f : State → State) : State :=
  if m.epoch ≠ s.kst.epoch then { s with kst := { s.kst with discard := satInc s.kst.discard } }
  else if m.dst ≠ s.arc.node then s.sendMsg m
  else f s

end Sys2Proof.Machine
end

