-- ==== Sys2Proof/Machine/Fp.lean ====
section
/-! DEFINITION. Number formats, exact values, rounding and FP32 arithmetic (R33 to R63, R126, R170, R171). Every finite value is an
exact dyadic number, and each operation is computed exactly and rounded once. -/

namespace Sys2Proof.Machine

/-- The element formats of R33. -/
inductive Fmt where
  | fp4 | e4m3 | e5m2 | ge3 | bf16 | fp32
  deriving DecidableEq, Repr

/-- An exact value: NaN, an infinity, or (−1)^neg × m × 2^e. -/
inductive FVal where
  | nan
  | inf (neg : Bool)
  | fin (neg : Bool) (m : Nat) (e : Int)
  deriving DecidableEq, Repr

/-- Rounding modes (R49, R50); `sr` carries the random word of R51. -/
inductive Rm where
  | rne
  | rtz
  | sr (r : Nat)
  deriving DecidableEq, Repr

/-- Fraction bits of a format (R33). -/
def fracBits : Fmt → Nat
  | .fp4 => 1 | .e4m3 => 3 | .e5m2 => 2 | .ge3 => 0 | .bf16 => 7 | .fp32 => 23

/-- Exponent bits of a format (R33). -/
def expBits : Fmt → Nat
  | .fp4 => 2 | .e4m3 => 4 | .e5m2 => 5 | .ge3 => 3 | .bf16 => 8 | .fp32 => 8

/-- Exponent bias (R33; for GE3 the exponent field e has value 2^(e − 4), R35). -/
def expBias : Fmt → Int
  | .fp4 => 1 | .e4m3 => 7 | .e5m2 => 15 | .ge3 => 4 | .bf16 => 127 | .fp32 => 127

/-- Element width in bits (R33). -/
def fmtBits : Fmt → Nat
  | .fp4 => 4 | .ge3 => 4 | .e4m3 => 8 | .e5m2 => 8 | .bf16 => 16 | .fp32 => 32

/-- Block length L of a block-scaled format; 0 where a format carries no scales (R40). -/
def blockLen : Fmt → Nat
  | .fp4 => 32 | .e4m3 => 32 | .e5m2 => 32 | .ge3 => 16 | .bf16 => 0 | .fp32 => 0

/-- Whether a format is stored with block scales (R40). -/
def scaledFmt (f : Fmt) : Bool := blockLen f != 0

/-- The exponent of the smallest non-zero magnitude's last place: 2^(1 − bias − M), or 2^−3 in GE3. -/
def minExp : Fmt → Int
  | .ge3 => -3
  | f => 1 - expBias f - (fracBits f : Int)

/-- The largest finite magnitude as (m, e): m × 2^e (R33). -/
def maxMag : Fmt → Nat × Int
  | .fp4 => (3, 1)
  | .e4m3 => (7, 6)
  | .e5m2 => (7, 13)
  | .ge3 => (1, 3)
  | .bf16 => (255, 120)
  | .fp32 => (16777215, 104)

/-- The number of bits of a natural number. -/
def bitLen (n : Nat) : Nat := if n = 0 then 0 else Nat.log2 n + 1

/-- m × 2^e as an integer multiple of 2^q, for q ≤ e. -/
def scaleTo (m : Nat) (e q : Int) : Nat := m * 2 ^ (e - q).toNat

/-- Compares m₁ × 2^e₁ ≤ m₂ × 2^e₂ exactly. -/
def magLe (m1 : Nat) (e1 : Int) (m2 : Nat) (e2 : Int) : Bool :=
  scaleTo m1 e1 (min e1 e2) ≤ scaleTo m2 e2 (min e1 e2)

/-- The value of a code (R33 to R36). GE3 codes 0x0 and 0x8 are both read as +0 (R35). -/
def decodeFmt (f : Fmt) (c : Nat) : FVal :=
  let mB := fracBits f
  let eB := expBits f
  let fr := fld c (mB - 1) 0
  let fr := if mB = 0 then 0 else fr
  let ex := fld c (mB + eB - 1) mB
  let s := bitOf c (mB + eB)
  let top := ex = 2 ^ eB - 1
  let num : FVal := if ex = 0 then .fin s fr (minExp f) else .fin s (2 ^ mB + fr) ((ex : Int) - expBias f - (mB : Int))
  match f with
  | .fp4 => num
  | .e4m3 => if top ∧ fr = 7 then .nan else num
  | .ge3 => if ex = 0 then .fin false 0 0 else .fin s 1 ((ex : Int) - 4)
  | _ => if top then (if fr = 0 then .inf s else .nan) else num

/-- The canonical NaN code (R39); the scale marks a block in FP4 and GE3, whose elements are 0x0 (R47). -/
def nanCode : Fmt → Nat
  | .fp4 => 0 | .ge3 => 0 | .e4m3 => 0x7F | .e5m2 => 0x7E | .bf16 => 0x7FC0 | .fp32 => 0x7FC00000

/-- The code of n × 2^q, a value of the format not above its largest finite magnitude. -/
def encodeMag (f : Fmt) (neg : Bool) (n : Nat) (q : Int) : Nat :=
  let mB := fracBits f
  let sgn := if neg then 2 ^ (mB + expBits f) else 0
  if n = 0 then (match f with | .fp4 => 0 | .ge3 => 0 | _ => sgn)
  else
    let top : Int := q + (bitLen n : Int) - 1
    if top < 1 - expBias f ∧ f ≠ .ge3 then sgn + scaleTo n q (minExp f)
    else sgn + (top + expBias f).toNat * 2 ^ mB + (n * 2 ^ mB / 2 ^ (bitLen n - 1) - 2 ^ mB)

/-- Rounds m × 2^e at the precision of its own binade, as though the format had no largest exponent (R47, R49, R50): the result
n × 2^q. In GE3 a tie goes to the even exponent field, and a tie below 0.125 to zero. -/
def roundMag (f : Fmt) (rm : Rm) (m : Nat) (e : Int) : Nat × Int :=
  let q : Int := max (e + (bitLen m : Int) - 1 - (fracBits f : Int)) (minExp f)
  if q ≤ e then (scaleTo m e q, q)
  else
    let sh := (q - e).toNat
    let n := m / 2 ^ sh
    let rem := m % 2 ^ sh
    let half := 2 ^ (sh - 1)
    let up : Bool := match rm with
      | .rtz => false
      | .sr r => decide (r < rem * 2 ^ 32 / 2 ^ sh)
      | .rne =>
        if rem < half then false
        else if half < rem then true
        else if f = .ge3 then (if n = 0 then false else decide ((q + 4) % 2 ≠ 0))
        else decide (n % 2 = 1)
    (if up then n + 1 else n, q)

/-- Whether a finite magnitude saturates (R47): under SR when the exact magnitude lies above max, otherwise when the rounded one does. -/
def saturates (f : Fmt) (rm : Rm) (m : Nat) (e : Int) : Bool :=
  let mx := maxMag f
  match rm with
  | .sr _ => !(magLe m e mx.1 mx.2)
  | _ => let r := roundMag f rm m e; !(magLe r.1 r.2 mx.1 mx.2)

/-- The code of an exact value narrowed into a format (R47), with whether the element saturated or was not finite (R65). -/
def narrowVal (f : Fmt) (rm : Rm) : FVal → Nat × Bool
  | .nan => (nanCode f, true)
  | .inf neg =>
    (match f with
     | .bf16 => if neg then 0xFF80 else 0x7F80
     | .fp32 => if neg then 0xFF800000 else 0x7F800000
     | _ => nanCode f, true)
  | .fin neg m e =>
    if saturates f rm m e then
      match f, rm with
      | .bf16, .rne => (if neg then 0xFF80 else 0x7F80, true)
      | .fp32, .rne => (if neg then 0xFF800000 else 0x7F800000, true)
      | _, _ => (encodeMag f neg (maxMag f).1 (maxMag f).2, true)
    else
      let r := roundMag f rm m e
      (encodeMag f neg r.1 r.2, false)

/-- The value of a binary32 bit pattern. -/
def val32 (w : W32) : FVal := decodeFmt .fp32 w.toNat

/-- One FP32 rounding (R62): overflow gives ±Inf under RNE and the largest finite value under RTZ. -/
def round32 (rm : Rm) (v : FVal) : W32 := BitVec.ofNat 32 (narrowVal .fp32 rm v).1

/-- x × 2^k, exactly. -/
def FVal.scale (v : FVal) (k : Int) : FVal :=
  match v with
  | .fin s m e => .fin s m (e + k)
  | v => v

/-- The signed integer of a finite value at exponent `q` ≤ e. -/
def signedAt (neg : Bool) (m : Nat) (e q : Int) : Int :=
  let n : Int := (scaleTo m e q : Nat)
  if neg then -n else n

/-- The exact value i × 2^q. -/
def ofSigned (i : Int) (q : Int) : FVal := .fin (decide (i < 0)) i.natAbs q

/-- Exact sum with the IEEE 754 rules for NaN, infinities and the sign of zero. -/
def FVal.add : FVal → FVal → FVal
  | .nan, _ => .nan
  | _, .nan => .nan
  | .inf a, .inf b => if a = b then .inf a else .nan
  | .inf a, _ => .inf a
  | _, .inf b => .inf b
  | .fin s1 m1 e1, .fin s2 m2 e2 =>
    let q := min e1 e2
    let i := signedAt s1 m1 e1 q + signedAt s2 m2 e2 q
    if i = 0 then .fin (s1 && s2) 0 q else ofSigned i q

/-- Exact product with the IEEE 754 rules for NaN, infinities and zero. -/
def FVal.mul : FVal → FVal → FVal
  | .nan, _ => .nan
  | _, .nan => .nan
  | .inf a, .inf b => .inf (a != b)
  | .inf a, .fin s m _ => if m = 0 then .nan else .inf (a != s)
  | .fin s m _, .inf b => if m = 0 then .nan else .inf (s != b)
  | .fin s1 m1 e1, .fin s2 m2 e2 => .fin (s1 != s2) (m1 * m2) (e1 + e2)

/-- The negated value. -/
def FVal.neg : FVal → FVal
  | .nan => .nan
  | .inf a => .inf (!a)
  | .fin s m e => .fin (!s) m e

/-- FP32 addition, rounded once (R62). -/
def fadd32 (rm : Rm) (a b : W32) : W32 := round32 rm (FVal.add (val32 a) (val32 b))

/-- FP32 subtraction, rounded once (R62). -/
def fsub32 (rm : Rm) (a b : W32) : W32 := round32 rm (FVal.add (val32 a) (val32 b).neg)

/-- FP32 multiplication, rounded once (R62). -/
def fmul32 (rm : Rm) (a b : W32) : W32 := round32 rm (FVal.mul (val32 a) (val32 b))

/-- FP32 fused multiply-add a × b + c, one rounding (R62). -/
def ffma32 (rm : Rm) (a b c : W32) : W32 := round32 rm (FVal.add (FVal.mul (val32 a) (val32 b)) (val32 c))

/-- Whether a ≤ b for values that are not NaN, with −0 below +0 (R170). -/
def FVal.le : FVal → FVal → Bool
  | .inf true, _ => true
  | _, .inf false => true
  | .inf false, _ => false
  | _, .inf true => false
  | .fin s1 m1 e1, .fin s2 m2 e2 =>
    let q := min e1 e2
    let x := signedAt s1 m1 e1 q
    let y := signedAt s2 m2 e2 q
    if x = 0 ∧ y = 0 then s1 || !s2 else decide (x ≤ y)
  | _, _ => false

/-- Whether a > b as numbers; a NaN is never greater (R170, VEC.SEL). -/
def FVal.gt : FVal → FVal → Bool
  | .nan, _ => false
  | _, .nan => false
  | .inf a, .inf b => !a && b
  | .inf a, _ => !a
  | _, .inf b => b
  | .fin s1 m1 e1, .fin s2 m2 e2 =>
    let q := min e1 e2
    decide (signedAt s1 m1 e1 q > signedAt s2 m2 e2 q)

/-- The canonical bits of a value already in FP32 (R39). -/
def canon32 (a : W32) : W32 := match val32 a with | .nan => 0x7FC00000#32 | _ => a

/-- IEEE 754-2019 maximum (R170). -/
def fmax32 (a b : W32) : W32 :=
  match val32 a, val32 b with
  | .nan, _ => 0x7FC00000#32
  | _, .nan => 0x7FC00000#32
  | x, y => if x.le y then b else a

/-- IEEE 754-2019 minimum (R170). -/
def fmin32 (a b : W32) : W32 :=
  match val32 a, val32 b with
  | .nan, _ => 0x7FC00000#32
  | _, .nan => 0x7FC00000#32
  | x, y => if x.le y then a else b

/-- The absolute value; a produced NaN is canonical (R39, R170). -/
def fabs32 (a : W32) : W32 := match val32 a with | .nan => 0x7FC00000#32 | _ => a &&& 0x7FFFFFFF#32

/-- A signed 64-bit integer converted to binary32 by RNE (R126). -/
def i2f32 (a : W64) : W32 := round32 .rne (ofSigned a.toInt 0)

/-- Rounds m × 2^e to an integer magnitude by RNE. -/
def rneNat (m : Nat) (e : Int) : Nat :=
  if 0 ≤ e then m * 2 ^ e.toNat
  else
    let sh := (-e).toNat
    let n := m / 2 ^ sh
    let rem := m % 2 ^ sh
    let half := 2 ^ (sh - 1)
    if rem < half then n else if half < rem then n + 1 else n + n % 2

/-- Binary32 rounded by RNE to a signed 64-bit integer, saturating; NaN gives 0 (R126). -/
def f2i32 (a : W32) : W64 :=
  match val32 a with
  | .nan => 0
  | .inf neg => if neg then 0x8000000000000000#64 else 0x7FFFFFFFFFFFFFFF#64
  | .fin neg m e =>
    let n := rneNat m e
    if neg then (if 2 ^ 63 ≤ n then 0x8000000000000000#64 else BitVec.ofInt 64 (-(n : Int)))
    else if 2 ^ 63 ≤ n then 0x7FFFFFFFFFFFFFFF#64 else BitVec.ofNat 64 n

/-- A value strictly between n × 2^e and (n + 1) × 2^e, or exactly n × 2^e, in a form that rounds as the exact value does. -/
def sticky (neg exact : Bool) (n : Nat) (e : Int) : FVal := .fin neg (2 * n + (if exact then 0 else 1)) (e - 1)

/-- The integer square root, one result bit at a time from bit `b − 1` down. -/
def isqrtFrom : Nat → Nat → Nat → Nat
  | 0, r, _ => r
  | b + 1, r, n => if (r + 2 ^ b) * (r + 2 ^ b) ≤ n then isqrtFrom b (r + 2 ^ b) n else isqrtFrom b r n

/-- The integer square root. -/
def isqrt (n : Nat) : Nat := isqrtFrom (bitLen n / 2 + 1) 0 n

/-- 1 ÷ a, correctly rounded (R171). -/
def frcp32 (rm : Rm) (a : W32) : W32 :=
  match val32 a with
  | .nan => 0x7FC00000#32
  | .inf neg => if neg then 0x80000000#32 else 0
  | .fin neg m e =>
    if m = 0 then (if neg then 0xFF800000#32 else 0x7F800000#32)
    else
      let k := bitLen m + 40
      round32 rm (sticky neg (2 ^ k % m = 0) (2 ^ k / m) (-e - (k : Int)))

/-- 1 ÷ √a, correctly rounded (R171). -/
def frsqrt32 (rm : Rm) (a : W32) : W32 :=
  match val32 a with
  | .nan => 0x7FC00000#32
  | .inf neg => if neg then 0x7FC00000#32 else 0
  | .fin neg m e =>
    if m = 0 then (if neg then 0xFF800000#32 else 0x7F800000#32)
    else if neg then 0x7FC00000#32
    else
      let odd := e % 2 ≠ 0
      let m' := if odd then 2 * m else m
      let e' := if odd then e - 1 else e
      let k := bitLen m' + 40
      let r := isqrt (2 ^ (2 * k) / m')
      round32 rm (sticky false (m' * r * r = 2 ^ (2 * k)) r (-(e' / 2) - (k : Int)))

/-- Fixed-point precision of the exp2 and log2 evaluations: far beyond what decides any binary32 rounding. -/
def transP : Nat := 320

/-- Newton's iteration for the square root of `n`, from `x`. -/
def newtonSqrt (n : Nat) : Nat → Nat → Nat
  | 0, x => x
  | k + 1, x => newtonSqrt n k ((x + n / x) / 2)

/-- The product of the factors 2^(2^−i) that the bits of a fraction select; `c` is the last factor, `bit` the next bit position. -/
def exp2Prod (fr : Nat) : Nat → Nat → Nat → Nat
  | 0, _, acc => acc
  | b + 1, c, acc =>
    let c' := newtonSqrt (c * 2 ^ transP) 11 c
    exp2Prod fr b c' (if fr.testBit b then acc * c' / 2 ^ transP else acc)

/-- 2^a, correctly rounded (R171). -/
def fexp232 (rm : Rm) (a : W32) : W32 :=
  match val32 a with
  | .nan => 0x7FC00000#32
  | .inf neg => if neg then 0 else 0x7F800000#32
  | .fin neg m e =>
    if m = 0 then 0x3F800000#32
    else if !neg && magLe 128 0 m e then round32 rm (.fin false 1 1000)
    else if neg && magLe 400 0 m e then round32 rm (.fin false 1 (-1000))
    else
      let t : Nat := (-e).toNat
      let v : Int := signedAt neg m e (min e 0)
      let ip : Int := v / (2 ^ t : Nat)
      let fr : Nat := (v % (2 ^ t : Nat)).toNat
      if fr = 0 then round32 rm (.fin false 1 ip)
      else round32 rm (sticky false false (exp2Prod fr t (2 * 2 ^ transP) (2 ^ transP)) (ip - (transP : Int)))

/-- The first `n` fraction bits of log2 y for y in [1, 2) in fixed point. -/
def log2Bits : Nat → Nat → Nat → Nat
  | 0, _, acc => acc
  | n + 1, y, acc =>
    let s := y * y / 2 ^ (2 * transP)
    if 2 * 2 ^ (2 * transP) ≤ s then log2Bits n (s / 2) (2 * acc + 1) else log2Bits n s (2 * acc)

/-- log2 a, correctly rounded (R171). -/
def flog232 (rm : Rm) (a : W32) : W32 :=
  match val32 a with
  | .nan => 0x7FC00000#32
  | .inf neg => if neg then 0x7FC00000#32 else 0x7F800000#32
  | .fin neg m e =>
    if m = 0 then 0xFF800000#32
    else if neg then 0x7FC00000#32
    else
      let b := bitLen m - 1
      let ip : Int := e + (b : Int)
      if m = 2 ^ b then round32 rm (ofSigned ip 0)
      else
        let fr := log2Bits 160 (m * 2 ^ (2 * transP) / 2 ^ b) 0
        let v : Int := ip * ((2 ^ 161 : Nat) : Int) + (2 * fr + 1 : Nat)
        round32 rm (ofSigned v (-161))

/-- One Philox-4×32 round. -/
def philoxRound (c : Nat × Nat × Nat × Nat) (k0 k1 : Nat) : Nat × Nat × Nat × Nat :=
  let p0 := 0xD2511F53 * c.1
  let p1 := 0xCD9E8D57 * c.2.2.1
  ((p1 / 2 ^ 32) ^^^ c.2.1 ^^^ k0, p1 % 2 ^ 32, (p0 / 2 ^ 32) ^^^ c.2.2.2 ^^^ k1, p0 % 2 ^ 32)

/-- Philox-4×32 with the given number of rounds, the keys bumped between rounds (R51). -/
def philox : Nat → Nat × Nat × Nat × Nat → Nat → Nat → Nat × Nat × Nat × Nat
  | 0, c, _, _ => c
  | n + 1, c, k0, k1 => philox n (philoxRound c k0 k1) ((k0 + 0x9E3779B9) % 2 ^ 32) ((k1 + 0xBB67AE85) % 2 ^ 32)

/-- The random word of the element with index `n` (R51). -/
def srWord (jobKey : W64) (step : W64) (srid : W32) (n : Nat) : Nat :=
  let q := n / 4
  let r := philox 10 (q % 2 ^ 32, q / 2 ^ 32 % 2 ^ 14, srid.toNat, step.toNat % 2 ^ 32) (jobKey.toNat % 2 ^ 32) (jobKey.toNat / 2 ^ 32)
  match n % 4 with
  | 0 => r.1
  | 1 => r.2.1
  | 2 => r.2.2.1
  | _ => r.2.2.2

/-- The sum of the products of one product block, with the special-value rules of R57. -/
def blockSum : List (FVal × FVal) → FVal
  | [] => .fin false 0 0
  | (a, b) :: r => FVal.add (FVal.mul a b) (blockSum r)

/-- One step of R56: a block sum that is zero leaves the accumulator as it is. -/
def accBlock (acc : W32) (s : FVal) (k : Int) : W32 :=
  match s with
  | .fin _ 0 _ => acc
  | s => round32 .rne (FVal.add (val32 acc) (s.scale k))

/-- The smallest integer k with m × 2^(e − k) at most the largest finite magnitude of the format (R71). -/
def absmaxExp (f : Fmt) (m : Nat) (e : Int) : Int :=
  let mx := maxMag f
  let k0 : Int := (e + (bitLen m : Int)) - (mx.2 + (bitLen mx.1 : Int))
  if magLe m (e - k0) mx.1 mx.2 then k0 else k0 + 1

/-- The larger magnitude of two, NaN and Inf dominating (R71, amax). -/
def amax2 : FVal → FVal → FVal
  | .nan, _ => .nan
  | _, .nan => .nan
  | .inf _, _ => .inf false
  | _, .inf _ => .inf false
  | .fin _ m1 e1, .fin _ m2 e2 => if magLe m1 e1 m2 e2 then .fin false m2 e2 else .fin false m1 e1

/-- The scale code of a block from its amax (R71); `grad` caps the scale at 2^0. -/
def scaleCode (f : Fmt) (grad : Bool) : FVal → Nat
  | .fin _ m e =>
    let k := if m = 0 then -127 else max (absmaxExp f m e) (-127)
    let k := if grad && decide (0 < k) then 0 else k
    (k + 127).toNat
  | _ => 0xFF

end Sys2Proof.Machine
end

