-- ==== Sys2Proof/Machine/Tensor.lean ====
section
/-! DEFINITION. Tensor descriptors: their words, their checks at issue, the spans and the place of every element and scale (R41, R52, R102 to R104,
R199). -/

namespace Sys2Proof.Machine

/-- The formats by FMT code (R103). -/
def fmtOf : Nat → Option Fmt
  | 0 => some .fp4
  | 1 => some .e4m3
  | 2 => some .e5m2
  | 3 => some .ge3
  | 4 => some .bf16
  | 5 => some .fp32
  | _ => none

/-- The format of a descriptor that passed its checks. -/
def Td.f (t : Td) : Fmt := (fmtOf t.fmt).getD .bf16

/-- Reads a descriptor from its 64 bytes (R102). `rsvd` says that every reserved field and unused word is zero. -/
def tdOfBytes (bs : List Byte) : Td :=
  let d (i : Nat) : Nat := leAt bs (8 * i) 8
  let n := fld (d 1) 43 41
  { handle := fld (d 0) 23 0
    off := fld (d 0) 61 28
    soff := fld (d 1) 33 0
    fmt := fld (d 1) 37 34
    kind := fld (d 1) 40 38
    ndim := n
    bdim := fld (d 1) 46 44
    pres := fld (d 1) 49 47
    upd := fld (d 1) 51 50
    updn := fld (d 1) 59 52
    srid := fld (d 2) 31 0
    ext := (List.range 5).map (fun i => fld (d (3 + i)) 19 0)
    pext := (List.range 5).map (fun i => fld (d (3 + i)) 39 20)
    stride := [0, fld (d 2) 63 32 * 64, fld (d 5) 63 40 * 4096, fld (d 6) 63 40 * 4096, fld (d 7) 63 40 * 4096]
    rsvd := fld (d 0) 27 24 == 0 && fld (d 0) 63 62 == 0 && fld (d 1) 63 60 == 0 && fld (d 3) 63 40 == 0 && fld (d 4) 63 40 == 0
      && (List.range 5).all (fun i => i < n || d (3 + i) == 0)
      && (2 ≤ n || fld (d 2) 63 32 == 0) && (3 ≤ n || fld (d 5) 63 40 == 0) && (4 ≤ n || fld (d 6) 63 40 == 0)
      && (5 ≤ n || fld (d 7) 63 40 == 0) }

/-- Whether a KIND and format go together (R70): weight, activation, gradient, moment, master. -/
def kindFmt (kind fmt : Nat) : Bool :=
  match kind with
  | 0 | 1 => fmt == 0 || fmt == 1 || fmt == 4
  | 2 => fmt == 2 || fmt == 3 || fmt == 4
  | 3 | 4 => fmt == 4
  | _ => false

/-- The bytes of a row: the padded elements of dimension 0 (R104). -/
def Td.row (t : Td) : Nat := ceilDiv ((t.pext.getD 0 0 + 1) * fmtBits t.f) 8

/-- The extent in bytes of the data span: R104 counts whole strides, `stride × (pext + 1)`. -/
def Td.dataSpan (t : Td) : Nat :=
  if t.ndim ≤ 1 then t.row else t.stride.getD (t.ndim - 1) 0 * (t.pext.getD (t.ndim - 1) 0 + 1)

/-- Whether the strides nest as the fragment of R104 requires: each is at least the span of the dimensions below it. -/
def Td.nests (t : Td) : Bool :=
  (List.range (t.ndim - 1)).all (fun j =>
    let below := if j = 0 then t.row else t.stride.getD j 0 * (t.pext.getD j 0 + 1)
    decide (below ≤ t.stride.getD (j + 1) 0))

/-- The product of the extents of the dimensions in use, each plus 1. -/
def extProd (n : Nat) (l : List Nat) : Nat := ((l.take n).map (· + 1)).foldl (· * ·) 1

/-- The number of logical elements (R52). -/
def Td.elems (t : Td) : Nat := extProd t.ndim t.ext

/-- The number of scale bytes (R41, R104). -/
def Td.scaleSpan (t : Td) : Nat := if blockLen t.f = 0 then 0 else extProd t.ndim t.pext / blockLen t.f

/-- The checks of R104 that need no object table. Each of them raises ILLEGAL_ENCODING. -/
def Td.ok (t : Td) : Bool :=
  t.rsvd && t.fmt ≤ 5 && t.kind ≤ 4 && t.pres ≤ 4 && kindFmt t.kind t.fmt && 1 ≤ t.ndim && t.ndim ≤ 5
    && (if t.fmt = 4 then t.bdim == 7 && t.soff == 0 else decide (t.bdim < t.ndim))
    && (List.range 5).all (fun d => t.ext.getD d 0 ≤ t.pext.getD d 0)
    && (t.fmt == 4 || (t.pext.getD t.bdim 0 + 1) % blockLen t.f == 0)
    && t.elems ≤ 2 ^ 48 && t.nests
    && (if t.upd = 1 then 1 ≤ t.updn else t.updn == 0)

/-- The byte range of the data span in the object. -/
def Td.dataLo (t : Td) : Nat := t.off * 64

/-- The first byte of the scale array in the object. -/
def Td.scaleLo (t : Td) : Nat := t.soff * 64

/-- Whether the spans lie inside an object of `n` bytes and apart (R104). -/
def Td.spansOk (t : Td) (n : Nat) : Bool :=
  t.dataLo + t.dataSpan ≤ n && (blockLen t.f == 0 || (t.scaleLo + t.scaleSpan ≤ n
    && (t.dataLo + t.dataSpan ≤ t.scaleLo || t.scaleLo + t.scaleSpan ≤ t.dataLo)))

/-- Whether coordinates lie within the logical extents; a dimension the tensor lacks has extent 1. -/
def Td.logical (t : Td) (x : List Nat) : Bool := (List.range 5).all (fun d => x.getD d 0 ≤ t.ext.getD d 0)

/-- Whether coordinates lie within the padded extents. -/
def Td.padded (t : Td) (x : List Nat) : Bool := (List.range 5).all (fun d => x.getD d 0 ≤ t.pext.getD d 0)

/-- The logical linear index of an element (R52). -/
def Td.index (t : Td) (x : List Nat) : Nat :=
  (List.range 5).foldr (fun d acc => x.getD d 0 + (t.ext.getD d 0 + 1) * acc) 0

/-- The coordinates of a logical linear index. -/
def Td.coords (t : Td) (i : Nat) : List Nat :=
  (List.range 5).map (fun d => i / extProd d t.ext % (t.ext.getD d 0 + 1))

/-- The position of an element in the object in units of 4 bits. -/
def Td.nib (t : Td) (x : List Nat) : Nat :=
  2 * (t.dataLo + ((List.range 4).map (fun j => x.getD (j + 1) 0 * t.stride.getD (j + 1) 0)).foldl (· + ·) 0)
    + x.getD 0 0 * (fmtBits t.f / 4)

/-- The number of the scale byte of an element's block (R41). -/
def Td.scaleAt (t : Td) (x : List Nat) : Nat :=
  let l := blockLen t.f
  (List.range 5).foldr (fun d acc =>
    if d = t.bdim then x.getD d 0 / l + ((t.pext.getD d 0 + 1) / l) * acc
    else x.getD d 0 + (t.pext.getD d 0 + 1) * acc) 0

/-- The 4-bit units of bytes, the low half of a byte first (R102). -/
def nibblesOf (bs : List Byte) : List Nat := bs.flatMap (fun b => [b.toNat % 16, b.toNat / 16])

/-- `n` codes of `w` units each. -/
def codesOf (w : Nat) : Nat → List Nat → List Nat
  | 0, _ => []
  | n + 1, l => (l.take w).foldr (fun d a => d + 16 * a) 0 :: codesOf w n (l.drop w)

/-- The units of codes of `w` units each. -/
def unitsOf (w : Nat) (cs : List Nat) : List Nat := cs.flatMap (fun c => (List.range w).map (fun j => c / 16 ^ j % 16))

/-- Bytes of 4-bit units; the high half of a last odd byte is that of `keep`. -/
def packUnits (keep : Nat) : List Nat → List Byte
  | [] => []
  | [a] => [BitVec.ofNat 8 (a + 16 * keep)]
  | a :: b :: r => BitVec.ofNat 8 (a + 16 * b) :: packUnits keep r

/-- A free byte for scratchpad address `a`: what stands in a tile area beside its elements and scale bytes is not stated. DESIGN CHOICE (31). -/
def State.padByte (s : State) (a : Nat) : Byte := Config.freeByte (s.free + a)

/-- The scale bytes of a tile area, with free bytes to the end of their last 64-byte line (R132). -/
def State.scaleLine (s : State) (a : Nat) (bs : List Byte) : List Byte :=
  bs ++ (List.range (roundUp bs.length 64 - bs.length)).map (fun j => s.padByte (a + bs.length + j))

/-- `n` codes of `w` 4-bit units from a memory, beginning `a` units after `base`. -/
def Mem.codes (m : Mem) (base a w n : Nat) : List Nat :=
  codesOf w n ((nibblesOf (Mem.read m (base + a / 2) ((a % 2 + n * w + 1) / 2))).drop (a % 2))

/-- The 4-bit units of an element. -/
def Td.w (t : Td) : Nat := fmtBits t.f / 4

/-- The codes of `n` elements of a row from coordinates `x`, as a unit that loads a tile reads them: zero beyond the logical extent (R199). -/
def State.rowCodes (s : State) (t : Td) (x : List Nat) (n : Nat) : List Nat :=
  (Mem.codes s.objMem (objKey (hIdx t.handle) 0) (t.nib x) t.w n).zipIdx.map (fun p =>
    if t.logical (x.set 0 (x.getD 0 0 + p.2)) then p.1 else 0)

/-- The coordinates of the block of `x` along the blocked dimension that are logical: whether there is any. -/
def Td.blockLogical (t : Td) (x : List Nat) : Bool :=
  t.logical (x.set t.bdim (x.getD t.bdim 0 / blockLen t.f * blockLen t.f))

/-- The scale byte of the block of `x`: 0 where the block holds no logical element (R199). -/
def State.scaleCodeAt (s : State) (t : Td) (x : List Nat) : Nat :=
  if t.blockLogical x then ofBytes (s.objRead (hIdx t.handle) (t.scaleLo + t.scaleAt x) 1) else 0

/-- The position in a tensor of byte `off` of its object: the coordinates of its first element and, for formats wider than a byte, which byte
of the element it is; none for a byte that holds no element (R201). -/
def Td.elemOfByte (t : Td) (off : Nat) : Option (List Nat × Nat) :=
  if off < t.dataLo || t.dataLo + t.dataSpan ≤ off then none
  else
    let step (j : Nat) (p : List Nat × Nat) : List Nat × Nat :=
      if j + 1 < t.ndim then (p.1.set (j + 1) (p.2 / t.stride.getD (j + 1) 1), p.2 % t.stride.getD (j + 1) 1) else p
    let p := step 0 (step 1 (step 2 (step 3 ([0, 0, 0, 0, 0], off - t.dataLo))))
    let x := p.1.set 0 (p.2 * 8 / fmtBits t.f)
    if t.padded x then some (x, p.2 % (max 1 (fmtBits t.f / 8))) else none

/-- The scale number of byte `off` of the object, if it is one. -/
def Td.scaleOfByte (t : Td) (off : Nat) : Option Nat :=
  if blockLen t.f ≠ 0 && t.scaleLo ≤ off && off < t.scaleLo + t.scaleSpan then some (off - t.scaleLo) else none

/-- The coordinates of the first element of the block with scale number `n`. -/
def Td.blockOf (t : Td) (n : Nat) : List Nat :=
  let l := blockLen t.f
  let e (d : Nat) : Nat := if d = t.bdim then (t.pext.getD d 0 + 1) / l else t.pext.getD d 0 + 1
  let below (d : Nat) : Nat := ((List.range d).map e).foldl (· * ·) 1
  (List.range 5).map (fun d => n / below d % e d * (if d = t.bdim then l else 1))

/-! ## Tiles (R131, R132) -/

/-- A tile as MOV.LDT and MOV.STT name it (R131): its descriptor, scratchpad address, origin, extents minus 1 and PITCH. -/
structure Tile where
  td : Td
  a : Nat
  o : List Nat
  t0 : Nat
  t1 : Nat
  pitch : Nat
  deriving DecidableEq, Repr

/-- The bytes of a packed row. -/
def Tile.rowBytes (t : Tile) : Nat := ceilDiv ((t.t0 + 1) * fmtBits t.td.f) 8

/-- The distance between rows in the scratchpad. -/
def Tile.step (t : Tile) : Nat := if t.pitch = 0 then roundUp t.rowBytes 64 else t.pitch * 64

/-- Where the scale area begins. -/
def Tile.scaleAddr (t : Tile) : Nat := t.a + (t.t1 + 1) * t.step

/-- Coordinates of the tile's element (c, r). -/
def Tile.elem (t : Tile) (c r : Nat) : List Nat := (t.o.set 0 (t.o.getD 0 0 + c)).set 1 (t.o.getD 1 0 + r)

/-- The tile's extent along a dimension. -/
def Tile.ext (t : Tile) (d : Nat) : Nat := if d = 0 then t.t0 + 1 else if d = 1 then t.t1 + 1 else 1

/-- The blocks of the tile along a dimension; the last may be one that the tile's end at the logical extent cuts (R73). -/
def Tile.blocksAlong (t : Tile) (d : Nat) : Nat := if d = t.td.bdim then ceilDiv (t.ext d) (blockLen t.td.f) else t.ext d

/-- The number of scale bytes of the tile. -/
def Tile.scales (t : Tile) : Nat := if blockLen t.td.f = 0 then 0 else t.blocksAlong 0 * t.blocksAlong 1

/-- The end of the tile in the scratchpad: of its scale area's whole lines, or, where it has none, of its last row's elements. -/
def Tile.stop (t : Tile) : Nat := if blockLen t.td.f = 0 then t.a + t.t1 * t.step + t.rowBytes else t.scaleAddr + roundUp t.scales 64

/-- The coordinates of the blocks of the tile, in the order of its scale bytes (R41, R132). -/
def Tile.blocks (t : Tile) : List (List Nat) :=
  let m (d : Nat) : Nat := if d = t.td.bdim then blockLen t.td.f else 1
  if blockLen t.td.f = 0 then [] else
    (List.range (t.blocksAlong 1)).flatMap (fun r => (List.range (t.blocksAlong 0)).map (fun c => t.elem (c * m 0) (r * m 1)))

/-- The tile of an operation: registers SA, SB and SC, and the fields of its word. -/
def tileOf (i : Ins) (td : Td) (sa sb sc : Nat) : Tile where
  td := td
  a := sa
  o := [fld sb 19 0, fld sb 39 20, fld sb 59 40, fld sc 19 0, fld sc 39 20]
  t0 := i.at 53 42
  t1 := i.at 41 30
  pitch := i.at 29 20

/-- The tile of an operation in flight. -/
def Op.tile (o : Op) : Tile :=
  tileOf o.ins (o.tds.headD (tdOfBytes [])) (o.regs.getD 0 0).toNat (o.regs.getD 1 0).toNat (o.regs.getD 2 0).toNat

/-- The pieces of `g` bytes of the object that hold a logical element of the tile or a scale byte of it. -/
def Tile.touched (t : Tile) (g : Nat) : List Nat :=
  let add (l : List Nat) (b : Nat) : List Nat := if b ∈ l then l else l ++ [b]
  let w := t.td.w
  let rows := (List.range (t.t1 + 1)).foldl (fun l r =>
    let n := min (t.t0 + 1) (t.td.ext.getD 0 0 + 1 - t.o.getD 0 0)
    if t.td.logical (t.elem 0 r) then
      let a := t.td.nib (t.elem 0 r) / 2 / g
      let b := (t.td.nib (t.elem 0 r) + n * w - 1) / 2 / g
      (List.range (b + 1 - a)).foldl (fun l k => add l (a + k)) l
    else l) []
  t.blocks.foldl (fun l x => if t.td.blockLogical x then add l ((t.td.scaleLo + t.td.scaleAt x) / g) else l) rows

/-- The integrity blocks that a tile store changes (R201). -/
def Tile.changed (t : Tile) : List Nat := t.touched 4096

end Sys2Proof.Machine
end

