-- ==== Sys2Proof/Machine/Collect.lean ====
section
/-! DEFINITION. The arch engine: command blocks, sends, the ring collectives and the overflow OR (R300 to R309). -/

namespace Sys2Proof.Machine

/-! ## Command blocks (R301) -/

/-- A field of an arch command block (R301), by its place in `Op.words`. -/
def Op.acmd (o : Op) (n : Nat) : Nat := o.words.getD n 0
def Op.arcSrc (o : Op) : Nat := o.acmd 0
def Op.arcDst (o : Op) : Nat := o.acmd 1
def Op.arcSoff (o : Op) : Nat := o.acmd 2
def Op.arcDoff (o : Op) : Nat := o.acmd 3
def Op.arcLen (o : Op) : Nat := o.acmd 4
def Op.arcNode (o : Op) : Nat := o.acmd 5
def Op.arcCourse (o : Op) : Nat := o.acmd 6
def Op.arcEfmt (o : Op) : Nat := o.acmd 7
def Op.arcTag (o : Op) : Nat := o.acmd 8
def Op.arcDtd (o : Op) : Nat := o.acmd 9
def Op.arcRctr (o : Op) : Nat := o.acmd 10

/-- The bytes of one chunk of a reduction's result without DTD: FP32 elements (R304, R305). -/
def Op.resLen (o : Op) : Nat := if o.arcEfmt = 1 then 2 * o.arcLen else o.arcLen

/-- The number of a collective on its course, counted from 1 (R303). -/
def Op.arcK (o : Op) : Nat := o.acmd 11

/-- The elements of a reduction's chunk. -/
def Op.arcElems (o : Op) : Nat := o.arcLen / (if o.arcEfmt = 1 then 2 else 4)

/-- Whether an operation is a collective, and the code by which its messages carry it. -/
def LKind.collective : LKind → Bool
  | .arcRscat | .arcAgath | .arcAred => true
  | _ => false

def collCode : LKind → Nat
  | .arcRscat => 0
  | .arcAgath => 1
  | _ => 2

/-! ## The running collective of a course -/

/-- The running collective of a course. -/
def Arc.coll (a : Arc) (c : Nat) : Option Coll := (a.colls.find? (fun p => p.1 == c)).map Prod.snd

/-- Replaces it. -/
def State.setColl (s : State) (c : Nat) (q : Coll) : State :=
  { s with arc := { s.arc with colls := s.arc.colls.map (fun p => if p.1 = c then (c, q) else p) } }

/-- Whether a collective is done on this module (R302). -/
def Coll.done (q : Coll) (kind : LKind) (n : Nat) : Bool :=
  q.unacked == 0
    && (kind == .arcAgath || q.reduced.length == 2)
    && (kind == .arcRscat || q.gathered.length == 2 * n)

/-- Lets the operation of a collective complete once it is done. -/
def State.collCheck (s : State) (c : Nat) : State :=
  match s.arc.coll c with
  | none => s
  | some q =>
    match s.findOp q.op with
    | some o => if o.st = .remote && q.done o.kind (s.arc.n c) then s.setOp { o with st := .started } else s
    | none => s

/-- The FP32 values of a list of bytes, and their bytes. -/
def wordsOf (bs : List Byte) : List W32 := (List.range (bs.length / 4)).map (fun j => BitVec.ofNat 32 (leAt bs (4 * j) 4))
def bytesOf (vs : List W32) : List Byte := vs.flatMap (fun v => toBytes 4 v.toNat)

/-- This module's terms of one half of chunk `j`: BF16 terms are widened exactly. -/
def State.ownTerms (s : State) (o : Op) (j : Nat) (second : Bool) : List W32 :=
  let bs := s.objRead (hIdx o.arcSrc) (o.arcSoff + j * o.arcLen + (if second then o.arcLen / 2 else 0)) (o.arcLen / 2)
  if o.arcEfmt = 1 then (List.range (bs.length / 2)).map (fun i => BitVec.ofNat 32 (leAt bs (2 * i) 2 * 65536)) else wordsOf bs

/-- Sends one half-chunk message of a collective to the next module of its direction. -/
def State.sendHalf (s : State) (o : Op) (kind chunk hop : Nat) (following : Bool) (data : List Byte) : State :=
  let c := o.arcCourse
  let m := { s.newMsg (s.arc.neighbour c following) kind with
    len := data.length, tag := BitVec.ofNat 32 o.arcK, coll := collCode o.kind, chunk := chunk, clen := o.arcLen, efmt := o.arcEfmt
    off := if following then 0 else o.arcElems / 2, dtd := !o.tds.isEmpty, hop := hop, data := data, op := o.id }
  let s := match s.arc.coll c with
    | some q => s.setColl c { q with unacked := q.unacked + 1 }
    | none => s
  s.link m c following

/-- Elements of 2 bytes at their addresses, as runs of adjacent ones: a run is written at once, with the CRC of each block that it covers (R299). -/
def runsOf (l : List (Nat × Nat)) : List (Nat × List Byte) :=
  l.foldr (fun p rs =>
    match rs with
    | r :: t => if p.1 + 2 = r.1 then (p.1, toBytes 2 p.2 ++ r.2) :: t else (p.1, toBytes 2 p.2) :: rs
    | [] => [(p.1, toBytes 2 p.2)]) []

/-- Writes result elements from linear index `i0` on into the tensor that DTD names: BF16 codes. -/
def State.writeCodes (s : State) (t : Td) (i0 : Nat) (cs : List Nat) : State :=
  (runsOf (cs.zipIdx.map (fun p => (t.nib (t.coords (i0 + p.2)) / 2, p.1)))).foldl (fun s r => s.objWrite (hIdx t.handle) r.1 r.2) s

/-- Writes half of chunk `j` of the result at its place: FP32 bytes, or codes under DTD. -/
def State.writeHalf (s : State) (o : Op) (j : Nat) (second : Bool) (data : List Byte) : State :=
  match o.tds with
  | t :: _ =>
    let i0 := (if o.kind = .arcRscat then 0 else j * o.arcElems) + (if second then o.arcElems / 2 else 0)
    s.writeCodes t i0 ((List.range (data.length / 2)).map (fun i => leAt data (2 * i) 2))
  | [] =>
    let n := if o.kind = .arcAgath then o.arcLen else o.resLen
    s.objWrite (hIdx o.arcDst) (o.arcDoff + (if o.kind = .arcRscat then 0 else j * n) + (if second then n / 2 else 0)) data

/-- The final bytes of a reduced half: FP32, or narrowed by RNE under DTD (R305), with the overflow flag of KIND gradient. -/
def halfBytes (o : Op) (vs : List W32) : List Byte × Bool :=
  match o.tds with
  | t :: _ =>
    let cs := vs.map (fun v => narrowVal .bf16 .rne (val32 v))
    (cs.flatMap (fun c => toBytes 2 c.1), t.kind == 2 && cs.any Prod.snd)
  | [] => (bytesOf vs, false)

/-- Marks a half of a chunk as gathered here. -/
def State.gather (s : State) (c j : Nat) (following : Bool) : State :=
  match s.arc.coll c with
  | some q => s.setColl c { q with gathered := if (j, following) ∈ q.gathered then q.gathered else q.gathered ++ [(j, following)] }
  | none => s

/-- A half of the own chunk is final (R304): it is written, and gathered onwards by ARC.ARED. -/
def State.finalHalf (s : State) (o : Op) (following : Bool) (vs : List W32) : State :=
  let c := o.arcCourse
  let p := s.arc.at c
  let (data, ovf) := halfBytes o vs
  let s := { s.writeHalf o p (!following) data with overflow := s.overflow || ovf }
  let s := match s.arc.coll c with
    | some q => s.setColl c { q with reduced := q.reduced ++ [following] }
    | none => s
  if o.kind = .arcAred then (s.gather c p following).sendHalf o 3 p 1 following data else s

/-- Takes a reduction partial: own terms added, then kept by the owner or forwarded. -/
def State.takePartial (s : State) (o : Op) (m : Msg) : State :=
  let c := o.arcCourse
  let vs := (wordsOf m.data).zipWith (fadd32 .rne) (s.ownTerms o m.chunk (!m.following))
  if m.chunk = s.arc.at c then s.finalHalf o m.following vs
  else s.sendHalf o 2 m.chunk (m.hop + 1) m.following (bytesOf vs)

/-- Takes a gathered half: written, and forwarded until it has reached every member. -/
def State.takeGather (s : State) (o : Op) (m : Msg) : State :=
  let c := o.arcCourse
  let s := (s.writeHalf o m.chunk (!m.following) m.data).gather c m.chunk m.following
  if m.hop + 1 < s.arc.n c then s.sendHalf o 3 m.chunk (m.hop + 1) m.following m.data else s

/-- A collective starts on its course: the partials that begin here, or the own chunk copied and sent by halves. -/
def State.startColl (s : State) (o : Op) : State :=
  let c := o.arcCourse
  let p := s.arc.at c
  let n := s.arc.n c
  let s := { s.setOp { o with st := .remote } with arc := { s.arc with colls := s.arc.colls ++ [(c, ({ op := o.id, k := o.arcK } : Coll))] } }
  if o.kind = .arcAgath then
    let half (second : Bool) : List Byte :=
      s.objRead (hIdx o.arcSrc) (o.arcSoff + (if second then o.arcLen / 2 else 0)) (o.arcLen / 2)
    let a := half false
    let b := half true
    let s := ((s.writeHalf o p false a).gather c p true).sendHalf o 3 p 1 true a
    ((s.writeHalf o p true b).gather c p false).sendHalf o 3 p 1 false b
  else
    let jf := (p + n - 1) % n
    let jp := (p + 1) % n
    let s := s.sendHalf o 2 jf 1 true (bytesOf (s.ownTerms o jf false))
    s.sendHalf o 2 jp 1 false (bytesOf (s.ownTerms o jp true))

/-! ## Sends and circulation -/

/-- The bytes of an operation's source range. -/
def State.sourceBytes (s : State) (o : Op) : List Byte := s.objRead (hIdx o.arcSrc) o.arcSoff o.arcLen

/-- What an operation does when its accesses are reached: an arch operation sends, every other one runs. -/
def State.launch (s : State) (o : Op) : State :=
  match o.kind with
  | .arcSend =>
    (s.setOp { o with st := .remote }).sendMsg { s.newMsg o.arcNode 0 with
      len := o.arcLen, tag := BitVec.ofNat 32 o.arcTag, data := s.sourceBytes o, op := o.id }
  | .arcCirc =>
    (s.setOp { o with st := .remote }).link { s.newMsg (s.arc.neighbour o.arcCourse true) 1 with
      len := o.arcLen, tag := BitVec.ofNat 32 o.arcDst, off := o.arcDoff, data := s.sourceBytes o, op := o.id
      ctr := if bitOf o.arcRctr 15 then some (BitVec.ofNat 12 o.arcRctr) else none } o.arcCourse true
  | .arcRscat | .arcAgath | .arcAred => s.startColl o
  | _ => s.setOp { o with st := .started }

/-! ## The overflow OR (R308) -/

/-- The courses that the OR runs over, ascending. -/
def Arc.orCourses (a : Arc) : List Nat := (List.range 4).filter (fun c => 1 < a.n c)

/-- Whether the values of every other member of course `c` are here. -/
def Arc.orFull (a : Arc) (c : Nat) : Bool := (a.orGot.filter (fun g => g.1 == c)).length + 1 == a.n c

/-- How many of the leading courses are complete. -/
def Arc.orStage (a : Arc) : Nat := (a.orCourses.takeWhile a.orFull).length

/-- The OR of the own flag and of every value received over the first `i` courses. -/
def Arc.orValue (a : Arc) (i : Nat) : Bool := a.orIn || a.orGot.any (fun g => (a.orCourses.take i).contains g.1 && g.2.2)

/-- Sends the contribution over the `i`-th course of the OR, in both directions. -/
def State.sendOr (s : State) (i : Nat) : State :=
  match s.arc.orCourses[i]? with
  | none => s
  | some c =>
    let m (f : Bool) : Msg := { s.newMsg (s.arc.neighbour c f) 4 with
      len := 1, tag := s.nsb.step.setWidth 32, data := [if s.arc.orValue i then 1 else 0], hop := 1 }
    ((s.link (m true) c true).link (m false) c false)

/-- Sends over every course that the stages from `a` to `b` have opened. -/
def State.orAdvance (s : State) (a b : Nat) : State := (List.range (b - a)).foldl (fun s j => s.sendOr (a + j + 1)) s

/-- Takes a contribution of the step in force: kept once per member, and passed on to the far side of the ring. -/
def State.orTake (s : State) (m : Msg) : State :=
  let c := m.course.val
  let pos := s.arc.posOf m.src.toNat c
  let st := s.arc.orStage
  let seen := s.arc.orGot.any (fun g => g.1 == c && g.2.1 == pos) || pos == s.arc.at c
  let s := if seen then s else { s with arc := { s.arc with orGot := s.arc.orGot ++ [(c, pos, m.data.any (fun b => b != 0))] } }
  let s := if m.hop < s.arc.n c / 2 then
      s.link { m with hop := m.hop + 1, dst := BitVec.ofNat 14 (s.arc.neighbour c m.following) } c m.following
    else s
  if s.arc.sent then s.orAdvance st s.arc.orStage else s

/-- Records ARC_MISMATCH on a course (R303, R306, R308). -/
def State.mismatch (s : State) (c : Nat) (inj : Bool := false) : State :=
  ({ s with arc := { s.arc with fault := setBit s.arc.fault 1 true } }).ev (srcOf 0x07 c) evArcMismatch 0 0 [] inj

/-- Records ARC_NORECV on a course (R306, R307). -/
def State.noRecv (s : State) (c : Nat) (inj : Bool := false) : State :=
  ({ s with arc := { s.arc with fault := setBit s.arc.fault 0 true } }).ev (srcOf 0x07 c) evArcNorecv 0 0 [] inj

/-- An arriving contribution: of the step in force, of the step after it (held), or a mismatch. -/
def State.orArrive (s : State) (m : Msg) : State :=
  if m.tag = s.nsb.step.setWidth 32 then s.orTake m
  else if m.tag = (s.nsb.step + 1).setWidth 32 then { s with arc := { s.arc with orEarly := s.arc.orEarly ++ [m] } }
  else s.mismatch m.course

/-- The step's OR is forgotten at the boundary, but for RESULT (R313), and the early contributions of the new step are taken. -/
def State.orBoundary (s : State) : State :=
  let l := s.arc.orEarly
  l.foldl State.orArrive { s with arc := { s.arc with sent := false, delivered := false, orIn := false, orGot := [], orEarly := [] } }

/-- The arch starts ARC.OVOR (R66, R308): the flag is read and cleared and the contribution sent, unless the step has an outcome or a
contribution already, or mason holds the module. -/
def State.startOvor (s : State) (o : Op) : State :=
  if s.nsb.outcome ≠ 0 || s.arc.sent then s.setOp { o with st := .started }
  else if s.arc.hold then
    { s.setOp { o with st := .remote } with arc := { s.arc with fault := setBit s.arc.fault 3 true } }
  else
    let s := { s.setOp { o with st := .remote } with overflow := false, arc := { s.arc with sent := true, orIn := s.overflow } }
    (s.sendOr 0).orAdvance 0 s.arc.orStage

/-- Whether the job-wide OR can be delivered. -/
def State.orReady (s : State) : Bool := s.arc.sent && !s.arc.delivered && s.arc.orStage == s.arc.orCourses.length

end Sys2Proof.Machine
end

