-- ==== Sys2Proof/Machine/Objects.lean ====
section
/-! DEFINITION. The hod: capacity, page descriptors, moves, drops, recompute, poison and recovery, and the table of state against request
(R223 to R228, R263 to R284). Each request is an `Op`; `State.settle` evaluates requests until none is left to evaluate again. -/

namespace Sys2Proof.Machine

/-! ## Page descriptors (R223) -/

/-- The code of an object's kind (R264). -/
def ObjKind.num : ObjKind → Nat
  | .data => 0
  | .code => 1
  | .page => 2
  | .image => 3

def Obj.pword (o : Obj) (n : Nat) : Nat := (o.page.getD n 0).toNat
def Obj.prio (o : Obj) : Nat := fld (o.pword 0) 29 28
def Obj.rcp (o : Obj) : Bool := bitOf (o.pword 0) 30
def Obj.seqId (o : Obj) : Nat := fld (o.pword 0) 63 32
def Obj.fill (o : Obj) : Nat := fld (o.pword 1) 31 0
def Obj.cap (o : Obj) : Nat := fld (o.pword 1) 63 32

/-- Replaces a field of a page descriptor word. -/
def Obj.setP (o : Obj) (w hi lo v : Nat) : Obj :=
  { o with page := o.page.set w (BitVec.ofNat 64 (setFld (o.pword w) hi lo v)) }

/-- Whether a page is droppable: of kind PAGE, with a valid recipe. -/
def Obj.droppable (o : Obj) : Bool := o.kind == .page && o.rcp

/-- Whether a page descriptor has every reserved field zero and no reserved code (R9, R223). -/
def pageReservedOk (p : List Nat) : Bool :=
  let w (n : Nat) : Nat := p.getD n 0
  fld (w 0) 27 24 ≤ 10 && !bitOf (w 0) 31 && fld (w 2) 63 24 == 0 && fld (w 3) 31 16 == 0 && fld (w 4) 31 24 == 0 && fld (w 4) 63 56 == 0
    && fld (w 5) 31 24 == 0 && fld (w 6) 63 32 == 0 && w 7 == 0

/-- The form rules of a page descriptor (R223): reserved fields zero, PSIZE and CAP in range, FILL at most CAP, P3 to P6 zero without a recipe. -/
def pageFormOk (p : List Nat) : Bool :=
  let w (n : Nat) : Nat := p.getD n 0
  pageReservedOk p && 1 ≤ fld (w 1) 63 32 && fld (w 1) 31 0 ≤ fld (w 1) 63 32 && (bitOf (w 0) 30 || (w 3 == 0 && w 4 == 0 && w 5 == 0 && w 6 == 0))

/-- The entry offset of an entry identifier in a code object (R138, R140). -/
def State.entryOf (s : State) (h ident : Nat) : Option Nat :=
  let i := hIdx h
  if s.named h && (s.obj i).kind == .code then
    let n := leAt (s.objRead i 40 4) 0 4
    let t := leAt (s.objRead i 48 8) 0 8
    (List.range (min n 256)).findSome? (fun e =>
      if leAt (s.objRead i (t + 16 * e + 8) 4) 0 4 = ident then some (leAt (s.objRead i (t + 16 * e) 8) 0 8) else none)
  else none

/-- What a valid recipe must name (R223): a loaded code object with the entry, and objects that are no droppable pages. -/
def State.recipeOk (s : State) (p : List Nat) : Bool :=
  let w (n : Nat) : Nat := p.getD n 0
  !bitOf (w 0) 30 ||
    ((s.entryOf (fld (w 4) 23 0) (fld (w 3) 63 32)).isSome
      && s.named (fld (w 4) 55 32) && !(s.obj (hIdx (fld (w 4) 55 32))).droppable
      && s.named (fld (w 5) 23 0) && !(s.obj (hIdx (fld (w 5) 23 0))).droppable)

/-- Whether a droppable page names a handle in its recipe (R223). -/
def State.inRecipe (s : State) (h : Nat) : Bool :=
  s.objs.any (fun p => p.2.st != .free && p.2.droppable
    && (fld (p.2.pword 4) 23 0 == h || fld (p.2.pword 4) 55 32 == h || fld (p.2.pword 5) 23 0 == h))

/-! ## What an operation reaches -/

/-- A range of an object that an operation reads or writes. -/
structure ObjRef where
  h : Nat
  lo : Nat
  n : Nat
  wr : Bool
  deriving DecidableEq, Repr

/-- The bytes from the start to the end of a tensor's data and scales. -/
def Td.ref (t : Td) (wr : Bool) : ObjRef :=
  { h := t.handle, lo := min t.dataLo (if blockLen t.f = 0 then t.dataLo else t.scaleLo)
    n := max (t.dataLo + t.dataSpan) (t.scaleLo + t.scaleSpan) - min t.dataLo (if blockLen t.f = 0 then t.dataLo else t.scaleLo), wr := wr }

/-- The object ranges that an operation reads or writes, in the order in which it reaches them. -/
def State.refs (s : State) (o : Op) : List ObjRef :=
  let r (n : Nat) : Nat := (o.regs.getD n 0).toNat
  let n := s.arc.n o.arcCourse
  match o.kind with
  | .movLdt => o.tile.changed.map (fun b => { h := o.tile.td.handle, lo := 4096 * b, n := 4096, wr := false })
  | .movStt => o.tile.changed.map (fun b => { h := o.tile.td.handle, lo := 4096 * b, n := 4096, wr := true })
  | .movLdb | .movPref => [{ h := r 1, lo := r 2, n := r 3, wr := false }]
  | .movStb => [{ h := r 1, lo := r 2, n := r 3, wr := true }]
  | .arcRscat =>
    { h := o.arcSrc, lo := o.arcSoff, n := n * o.arcLen, wr := false } ::
      (match o.tds with | t :: _ => [t.ref true] | [] => [{ h := o.arcDst, lo := o.arcDoff, n := o.resLen, wr := true }])
  | .arcAred =>
    { h := o.arcSrc, lo := o.arcSoff, n := n * o.arcLen, wr := false } ::
      (match o.tds with | t :: _ => [t.ref true] | [] => [{ h := o.arcDst, lo := o.arcDoff, n := n * o.resLen, wr := true }])
  | .arcAgath => [{ h := o.arcSrc, lo := o.arcSoff, n := o.arcLen, wr := false }, { h := o.arcDst, lo := o.arcDoff, n := n * o.arcLen, wr := true }]
  | .arcSend | .arcCirc => [{ h := o.arcSrc, lo := o.arcSoff, n := o.arcLen, wr := false }]
  | .arcRecv => [{ h := o.arcDst, lo := o.arcDoff, n := o.arcLen, wr := true }]
  | .ingOpen => [{ h := o.acmd 0, lo := 0, n := 0, wr := true }]
  | .ingDecode => { h := o.acmd 0, lo := o.acmd 1, n := o.acmd 2, wr := false } :: o.tds.map (fun t => t.ref true)
      ++ [{ h := o.acmd 4, lo := o.acmd 5, n := o.acmd 6, wr := true }, { h := o.acmd 7, lo := 0, n := o.acmd 8, wr := true }]
  | .numStepupd =>
    match s.prs.loss with
    | some (h, off) => [{ h := h, lo := off, n := 4, wr := false }]
    | none => []
  | .hostRead => [{ h := o.words.getD 1 0, lo := o.words.getD 2 0, n := o.words.getD 3 0, wr := false }]
  | .hostWrite => [{ h := o.words.getD 1 0, lo := o.words.getD 2 0, n := o.words.getD 3 0, wr := true }]
  | _ => []

/-- Whether the operation takes internal pins on what it reaches while it runs (R270, R302, R361). -/
def LKind.pins : LKind → Bool
  | .arcRscat | .arcAgath | .arcAred | .arcSend | .arcCirc | .ingDecode | .ingOpen => true
  | _ => false

/-- Whether an operation is the arch's; it pins only what it reads. -/
def LKind.arch : LKind → Bool
  | .arcRscat | .arcAgath | .arcAred | .arcSend | .arcCirc => true
  | _ => false

/-- The accesses in progress on an object (R271): operations started that reach it. -/
def State.inProgress (s : State) (i : Nat) : Bool :=
  s.ops.any (fun o => (o.st == .started || o.st == .remote) && (s.refs o).any (fun r => hIdx r.h == i))

/-! ## Capacity (R266, R273, R285), in units of 64 KiB -/

/-- Free units of a home; a peer's footing is not counted here. -/
def State.freeUnits (s : State) (home : Nat) : Nat := if home = 0 then s.hod.freeFast else s.hod.freeSlow

/-- Takes units of a home. -/
def State.takeUnits (s : State) (home n : Nat) : State :=
  if home = 0 then { s with hod := { s.hod with freeFast := s.hod.freeFast - n } }
  else if home = 1 then { s with hod := { s.hod with freeSlow := s.hod.freeSlow - n } }
  else s

/-- Waiters on the page-free counter, the earliest of the highest PRIO first (R273). -/
def State.capWaiters (s : State) : List (Nat × Nat × Nat) :=
  ((s.ops.filterMap (fun o => match o.st with
    | .heldCap _ p a => some (3 - p, a, o.id)
    | _ => none)).mergeSort (fun a b => a.1 < b.1 || (a.1 == b.1 && a.2.1 ≤ b.2.1)))

/-- Frees `n` units of a home in `pages` pages: the capacity returns, HOD_PAGE_FREE counts the pages, and each releases one waiter; the waiters
released are to be evaluated again. -/
def State.giveUnits (s : State) (home n pages : Nat) : State × List Nat :=
  if 2 ≤ home then (s, [])
  else
    let s := if home = 0 then { s with hod := { s.hod with freeFast := s.hod.freeFast + n } }
      else { s with hod := { s.hod with freeSlow := s.hod.freeSlow + n } }
    ({ s with hod := { s.hod with pageFree := s.hod.pageFree + BitVec.ofNat 32 pages } },
      (s.capWaiters.take pages).map (fun w => w.2.2))

/-- The pages of an object. -/
def Obj.pages (o : Obj) : Nat := o.size / 2 ^ o.pg

/-- The request to move a page of object `i` out of a region (R258, R280); its words hold object index, page and region. -/
def Op.leaves (o : Op) (i : Nat) : Bool := o.kind == .leave && o.words.getD 0 0 == i

/-- Frees the present home of an object: what lies in a region that goes out of use does not return. -/
def State.vacate (s : State) (i : Nat) : State × List Nat :=
  let o := s.obj i
  let lost := (s.ops.filter (fun q => q.leaves i)).length * min 32 (2 ^ o.pg)
  { s with ops := s.ops.filter (fun q => !q.leaves i) }.giveUnits o.home (o.size - lost) o.pages

/-- Returns what a move, a recovery or a recompute of an object has taken at its destination (R281, R285). -/
def State.giveDest (s : State) (o : Obj) : State × List Nat :=
  match o.move with
  | some m => if m.region.isSome then s.giveUnits m.toHome (2 ^ o.pg) 1 else s.giveUnits m.toHome o.size o.pages
  | none => (s, [])

/-- The free value that the next placement of an object's pages takes (R266). -/
def State.newPlace (s : State) (i : Nat) : State :=
  let (k, s) := s.fresh
  s.setObj i { s.obj i with place := k, moved := [] }

/-- The held requests on an object, in arrival order. -/
def State.heldOn (s : State) (i : Nat) : List Nat :=
  ((s.ops.filterMap (fun o => match o.st with
    | .heldObj j a => if j = i then some (a, o.id) else none
    | _ => none)).mergeSort (fun a b => a.1 ≤ b.1)).map Prod.snd

/-- A request that is no context's, as it arrives at the entry of object `i`: the state and its number. -/
def State.request (s : State) (kind : LKind) (src : OpSrc) (i : Nat) (words : List Nat) : State × Nat :=
  ({ s with
      ops := s.ops ++ [{ id := s.nextOp, src := src, kind := kind, ins := {}, core := 0, off := 0, words := words, st := .heldObj i s.arrivals }]
      nextOp := s.nextOp + 1
      arrivals := s.arrivals + 1 }, s.nextOp)

/-- Holds an operation on an object's entry; one that was held there keeps its place. -/
def State.holdObj (s : State) (o : Op) (i : Nat) : State :=
  match o.st with
  | .heldObj j _ => if j = i then s else { s.setOp { o with st := .heldObj i s.arrivals } with arrivals := s.arrivals + 1 }
  | _ => { s.setOp { o with st := .heldObj i s.arrivals } with arrivals := s.arrivals + 1 }

/-- Holds an operation on the page-free counter. -/
def State.holdCap (s : State) (o : Op) (prio : Nat) : State :=
  match o.st with
  | .heldCap _ _ _ => s.setOp o
  | _ => { s.setOp { o with st := .heldCap s.pln.cclk.toNat prio s.arrivals } with arrivals := s.arrivals + 1 }

/-- Records HOD_REFUSED (R270): a trace record, and the HOD_FAULT bit. -/
def State.refusal (s : State) (h : Nat) : State :=
  ({ s with hod := { s.hod with fault := setBit s.hod.fault 3 true } }).ev (srcOf 0x05 0) evHodRefused 0 h

/-- Whether the hod may drop a page now (R224). -/
def State.mayDrop (s : State) (i : Nat) : Bool :=
  let o := s.obj i
  o.droppable && o.pins == 0 && (o.st == .fast || o.st == .slow) && o.move.isNone && !s.inProgress i

/-- Drops a page: its capacity is released and its descriptor stays (R224). -/
def State.dropPage (s : State) (i : Nat) : State × List Nat :=
  let o := s.obj i
  (s.setObj i { o with st := .dropped }).vacate i

/-- The candidate that a choice takes among indices of the lowest rank; the choice among equals is a free value. -/
def State.pick (s : State) (c : List (Nat × Nat)) : Option Nat × State :=
  match c.map Prod.fst |>.min? with
  | none => (none, s)
  | some m =>
    let l := c.filter (fun p => p.1 == m)
    let (k, s) := s.fresh
    ((l[Config.choose k % l.length]?).map Prod.snd, s)

/-- Droppable pages of a home that meet R224 with PRIO below `lim`, with their PRIO. -/
def State.dropCands (s : State) (home lim : Nat) : List (Nat × Nat) :=
  s.objs.filterMap (fun p => if p.2.home = home && s.mayDrop p.1 && p.2.prio < lim then some (p.2.prio, p.1) else none)

/-- Objects that eviction may take (R273), with their EPRIO. -/
def State.evictCands (s : State) : List (Nat × Nat) :=
  s.objs.filterMap (fun p => if p.2.evict && (p.2.kind == .data || p.2.kind == .page) && p.2.st == .fast && p.2.home = 0 && p.2.pins == 0
    && p.2.move.isNone && !p.2.hosted && !s.inProgress p.1 && p.2.size ≤ s.hod.freeSlow then some (p.2.eprio, p.1) else none)

/-- Drops pages until `n` units of a home are free or none is left to drop. -/
def State.reclaim (s : State) (home n lim : Nat) : Nat → State × List Nat
  | 0 => (s, [])
  | k + 1 =>
    if n ≤ s.freeUnits home then (s, [])
    else
      match s.pick (s.dropCands home lim) with
      | (none, s) => (s, [])
      | (some i, s) =>
        let (s, w) := s.dropPage i
        let (s, w') := s.reclaim home n lim k
        (s, w ++ w')

/-- The units that evictions on their way will free. -/
def State.evicting (s : State) : Nat :=
  (s.objs.map (fun p => match p.2.move with | some m => if m.evict then p.2.size else 0 | none => 0)).foldl (· + ·) 0

/-- Begins evictions to the undercroft until they will free `n` units of footing together with what is free. -/
def State.evictFor (s : State) (n : Nat) : Nat → State
  | 0 => s
  | k + 1 =>
    if n ≤ s.hod.freeFast + s.evicting || s.warned then s
    else
      match s.pick s.evictCands with
      | (none, s) => s
      | (some i, s) =>
        let o := s.obj i
        ((s.takeUnits 1 o.size).setObj i { o with st := .down, move := some { toHome := 1, evict := true } }).evictFor n k

/-- Obtains `n` units of a home (R228, R273): whether they are taken, the state, and the waiters that drops released. `lim` bounds the PRIO of
pages that may be dropped. In the order of the append table (R228) pages of either tier are dropped and nothing is evicted; otherwise (R273) footing drops, then
evicts, and the undercroft does neither. -/
def State.obtain (s : State) (home n lim : Nat) (append : Bool) : Bool × State × List Nat :=
  if 2 ≤ home then (true, s, [])
  else if n ≤ s.freeUnits home then (true, s.takeUnits home n, [])
  else if home = 1 && !append then (false, s, [])
  else
    let (s, w) := s.reclaim home n lim s.objs.length
    if n ≤ s.freeUnits home then (true, s.takeUnits home n, w)
    else if append then (false, s, w)
    else (false, s.evictFor n s.objs.length, w)

/-! ## Requests that end -/

/-- Removes the internal pins of an operation. -/
def State.unpin (s : State) (o : Op) : State :=
  o.pinned.foldl (fun s i => s.setObj i { s.obj i with pins := (s.obj i).pins - 1 }) s

/-- A request of the runtime ends with a status: its completion is answered and the operation goes. -/
def State.endRing (s : State) (o : Op) (status result : Nat) : State :=
  match o.src with
  | .ring r c _ _ =>
    let s := (s.unpin o).dropOp o.id
    let s := if r = 0 then { s with msn := { s.msn with busy := none } } else s
    s.answer r c status result
  | _ => s

/-- A HOD request is satisfied: an operation of a context awaits its completion, a command is answered. -/
def State.satisfied (s : State) (o : Op) (result : Nat := 0) : State :=
  match o.src with
  | .ctx _ => s.setOp { o with st := .started }
  | _ => s.endRing o stOk result

/-- A HOD request is refused (R270). -/
def State.refuse (s : State) (o : Op) (h : Nat) : State :=
  let s := s.refusal h
  match o.src with
  | .ctx _ => s.setOp { o with st := .started, refused := true }
  | _ => s.endRing o stRefused 0

/-- The arch and quarry drop an operation that ends without its effect: its collective, its posted receive, its place among the decodes. -/
def State.clearUnits (s : State) (id : Nat) : State :=
  { s with
    arc := { s.arc with colls := s.arc.colls.filter (fun p => p.2.op != id), posted := s.arc.posted.filter (fun j => j != id) }
    qry := { s.qry with
      queue := s.qry.queue.filter (fun j => j != id)
      engines := s.qry.engines.filter (fun p => p.2 != some id) } }

/-- An operation faults after issue (R107): it has no effect and signals nothing; its context faults at its next issue attempt, with the last such
fault (R113); of a context that is FAULTED already, CORE_CTX_FLT shows the fault at once. -/
def State.asyncFault (s : State) (o : Op) (code : Nat) (inj : Bool := false) (key w44 : Option Nat := none) : State :=
  let s := ((s.unpin o).dropOp o.id).clearUnits o.id
  match o.src with
  | .ring _ _ _ _ => s.endRing o stRefused 0
  | .hod | .host => s
  | .ctx x =>
    let c := s.ctx x
    let s := if c.st = .faulted then s.showFault x code o.off else s.setCtx x { c with asyncFlt := some (code, o.off) }
    (s.ev (srcOf 0x01 x) code (key.getD o.off) (w44.getD c.code.toNat) [] inj).opGone x

/-- The handle that a HOD operation or hod command names. -/
def Op.hodHandle (o : Op) : Nat := (o.regs.getD 0 0).toNat

/-- The operand of a HOD operation. -/
def Op.hodArg (o : Op) : Nat := (o.regs.getD 1 0).toNat

/-- A code load whose object cannot come into footing is refused, and its object stays an ordinary one (R139): words 0 of such a promotion says whether it was evictable.
-/
def State.uncode (s : State) (o : Op) : State :=
  if o.kind = .promote && o.regs.getD 1 0 != 0 then
    let i := hIdx o.hodHandle
    let ob := s.obj i
    s.setObj i { ob with kind := .data, pins := ob.pins - 1, loadPin := false, evict := o.words.getD 0 0 == 1, codeText := none }
  else s

/-- A request past the bound of R273: PAGE_EXHAUSTED for a program's, REFUSED for a command of the runtime; no other has a bound. -/
def State.exhausted (s : State) (o : Op) (inj : Bool) : State :=
  let ob := s.obj (hIdx o.hodHandle)
  match o.src with
  | .ctx _ =>
    let s := { s with hod := { s.hod with fault := setBit s.hod.fault 2 true } }
    if o.kind = .hodAppend then s.asyncFault o evPageExhausted inj (some ob.seqId) (some o.hodHandle) else s.asyncFault o evPageExhausted inj
  | .ring _ _ _ _ => ((s.uncode o).refusal o.hodHandle).endRing o stRefused 0
  | .hod | .host => s

/-- Holds a request on the page-free counter, or ends it at once where the bound is 0 or an injection point says that it has passed. -/
def State.awaitCap (s : State) (o : Op) (prio : Nat) : State :=
  match o.src with
  | .ctx x =>
    if s.injArmed evPageExhausted (srcOf 0x01 x) then s.injReport.exhausted o true
    else if fld s.hod.limit.toNat 47 0 = 0 then s.exhausted o false
    else s.holdCap o prio
  | .ring _ _ _ _ => if fld s.hod.limit.toNat 47 0 = 0 then s.exhausted o false else s.holdCap o prio
  | .hod | .host => s.holdCap o prio

/-! ## Recompute (R225) -/

/-- The reserved context of a die. -/
def reservedCtx (die : Nat) : Nat := 8 * (16 * die + 15) + 7

/-- Starts the recipe routine of a page on a reserved context that is IDLE. -/
def State.startRecipe (s : State) (i x : Nat) : State :=
  let o := s.obj i
  match s.entryOf (fld (o.pword 4) 23 0) (fld (o.pword 3) 63 32) with
  | none => s
  | some e =>
    let v (n : Nat) : W64 := BitVec.ofNat 64 n
    let c : Ctx := { pc := v e, code := BitVec.ofNat 32 (fld (o.pword 4) 23 0), prio := 3, st := .ready, ctr := (s.ctx x).ctr, sticky := (s.ctx x).sticky }
    let regs := [(1, o.handle.toNat), (2, fld (o.pword 4) 55 32), (3, fld (o.pword 5) 23 0), (4, fld (o.pword 5) 63 32),
      (5, fld (o.pword 6) 31 0), (6, fld (o.pword 3) 15 0), (7, fld (o.pword 2) 23 0), (8, o.fill)]
    let c := regs.foldl (fun c p => c.setSreg p.1 (v p.2)) c
    (s.setObj i { o with recompute := some x }).leave x c

/-- Starts the recomputes whose reserved context is IDLE, in arrival order. -/
def State.startRecipes (s : State) : State :=
  s.hod.recomputes.foldl (fun s p =>
    if (s.ctx p.2).st = .idle && !(s.objs.any (fun q => q.2.recompute == some p.2)) && !s.pln.stopped && !s.warned then
      { s.startRecipe p.1 p.2 with hod := { s.hod with recomputes := s.hod.recomputes.filter (fun q => q != p) } }
    else s) s

/-- Whether a recompute of the page is asked for or running. -/
def State.recomputing (s : State) (i : Nat) : Bool := (s.obj i).recompute.isSome || s.hod.recomputes.any (fun p => p.1 == i)

/-- Begins a page's recompute into `home`, where capacity for it is obtained in the order of the append table (R225, R228): zeros (R266), then the routine on
the requester's die, or die 0. Answers whether it was begun. -/
def State.beginRecompute (s : State) (src : OpSrc) (i home : Nat) : Bool × State × List Nat :=
  let ob := s.obj i
  let (ok, s, w) := s.obtain home ob.size ob.prio true
  if ok then
    let die := match src with | .ctx x => x / 128 | _ => 0
    let s := s.objZero i
    let s := (s.setObj i { s.obj i with move := some { toHome := home } }).newPlace i
    (true, { s with hod := { s.hod with recomputes := s.hod.recomputes ++ [(i, reservedCtx die)] } }.startRecipes, w)
  else (false, s, w)

/-- Asks for the recompute of a DROPPED page into `home` for an operation, which is held on the page, or on the page-free counter while there is no capacity. -/
def State.askRecompute (s : State) (o : Op) (i home : Nat) : State × List Nat :=
  if s.recomputing i || s.warned then (s.holdObj o i, [])
  else
    let (ok, s, w) := s.beginRecompute o.src i home
    if ok then (s.holdObj o i, w) else (s.awaitCap o 3, w)

/-- Whether an operation is one that waits for the page at index `i`: an access to it, a pin or a promotion. -/
def State.waitsOn (s : State) (o : Op) (i : Nat) : Bool :=
  (s.refs o).any (fun r => hIdx r.h == i) || ((o.kind == .hodPin || o.kind == .hodPromote || o.kind == .promote) && hIdx o.hodHandle == i)

/-- The operations on the page-free counter that wait for the page at index `i`. -/
def State.capOn (s : State) (i : Nat) : List Nat :=
  (s.ops.filter (fun o => (match o.st with | .heldCap _ _ _ => true | _ => false) && s.waitsOn o i)).map Op.id

/-! ## Poison and recovery (R281 to R284) -/

/-- The latest cairn image, the newest complete and usable one of the job, if the object at an index is in it (R282). -/
def State.imageOf (s : State) (i : Nat) : Option Image :=
  (s.prs.images.reverse.find? (fun m => m.complete && m.usable && m.jobId == s.prs.jobId)).filter
    (fun m => m.objs.any (fun q => q.idx == i && q.obj.handle == (s.obj i).handle && q.form != 0))

/-- Whether a mirror of the object is usable (R282, R341). -/
def State.mirrorOk (s : State) (i : Nat) : Bool :=
  s.prs.bvalid && s.prs.slots.any (fun q => q.valid && (match q.image with
    | some m => (s.obj i).wstep < m.step && m.objs.any (fun p => p.idx == i && p.obj.handle == (s.obj i).handle && p.form != 0)
    | none => false))

/-- The first source of R282 that is usable after the first `skip`. -/
def State.source (s : State) (i skip : Nat) : Option Nat :=
  let o := s.obj i
  if skip < 1 && o.droppable then some 1
  else if skip < 2 && s.mirrorOk i then some 2
  else if skip < 3 && (match s.imageOf i with | some m => o.wstep < m.step | none => false) then some 3
  else if skip < 4 && o.rvalid && o.wstep < s.nsb.step then some 4
  else none

/-- No usable source (R284). -/
def State.noCopy (s : State) (i : Nat) (inj : Bool) : State :=
  let s := { s.setObj i { s.obj i with recover := none, move := none } with hod := { s.hod with fault := setBit s.hod.fault 1 true } }
  s.ev (srcOf 0x05 0) evHodNocopy 0 (s.obj i).handle.toNat [] inj

/-- Asks a peer for the `n` bytes of its handle `h`, on the ordered data channel (R267, R282, R297). -/
def State.askPeer (s : State) (node h n op : Nat) : State := s.sendMsg { s.newMsg node 6 with len := n, tag := BitVec.ofNat 32 h, op := op }

/-- Accesses to objects in a peer's footing, over the links (R187, R267): a request for what is read, and the bytes that are written. -/
def State.peerTraffic (s : State) (rs : List ObjRef) : State :=
  rs.foldl (fun s r =>
    let o := s.obj (hIdx r.h)
    let m : Msg := { s.newMsg o.hnode (if r.wr then 7 else 6) with len := r.n, tag := BitVec.ofNat 32 o.hhandle, off := r.lo }
    if o.home ≠ 2 || r.n = 0 then s
    else if r.wr then s.sendMsg { m with data := s.objRead (hIdx r.h) r.lo r.n }
    else s.sendMsg m) s

/-- Begins the recovery of a poisoned object from source `src`, its new pages in `home`: zeros (R266), and for source 1 the recipe routine. -/
def State.recoverIn (s : State) (i src home : Nat) : State :=
  let o := s.obj i
  let s := (s.takeUnits home o.size).setObj i { o with recover := some src, move := some { toHome := home } }
  if src = 1 then
    let s := s.objZero i
    { s with hod := { s.hod with recomputes := s.hod.recomputes ++ [(i, reservedCtx 0)] } }.startRecipes
  else if src = 4 then s.askPeer o.rnode o.rhandle o.bytes 0
  else s

/-- The source that a recovery uses. Whether the replica of R282 is POISONED or of another WSTEP is another module's state: a free value says whether it is usable. -/
def State.usable (s : State) (i skip : Nat) : Option Nat × State :=
  match s.source i skip with
  | some 4 =>
    let (k, s) := s.fresh
    (if Config.choose k % 2 = 0 then some 4 else none, s)
  | r => (r, s)

/-- Begins the recovery of a poisoned object from the first usable source beyond `skip`: in its home tier where it has room or droppable pages give it, in the other
local tier when the home tier is full, and after evictions when they give the home tier room (R273, R282). While it waits for evictions (`wait`) it is a request on
the page-free counter; without capacity it is a recovery without a copy. While a supply warning holds the hod it begins nothing (R409). -/
def State.recoverFrom (s : State) (i skip : Nat) (wait : Bool := true) : State × List Nat :=
  let o := s.obj i
  let h := o.handle.toNat
  if s.warned then ((s.request .recover .hod i [i, skip, 1]).1, [])
  else if s.injArmed evHodNocopy (srcOf 0x05 0) (fun a => a == h) then (s.injReport.noCopy i true, [])
  else
    match s.usable i skip with
    | (none, s) => (s.noCopy i o.inj, [])
    | (some src, s) =>
      if 2 ≤ o.home || o.size ≤ s.freeUnits o.home then (s.recoverIn i src o.home, [])
      else
        let (s, w) := if o.home = 0 then s.reclaim 0 o.size 4 s.objs.length else (s, [])
        if o.size ≤ s.freeUnits o.home then (s.recoverIn i src o.home, w)
        else if o.size ≤ s.freeUnits (1 - o.home) then (s.recoverIn i src (1 - o.home), w)
        else
          let (s, w') := if o.home = 1 then s.reclaim 0 o.size 4 s.objs.length else (s, [])
          if o.size ≤ s.freeUnits 0 then (s.recoverIn i src 0, w ++ w')
          else
            let s := s.evictFor o.size s.objs.length
            if wait && o.size ≤ s.hod.freeFast + s.evicting then
              let (s, id) := s.request .recover .hod i [i, src - 1]
              (match s.findOp id with | some q => s.holdCap q 3 | none => s, w ++ w')
            else (s.noCopy i o.inj, w ++ w')

/-- Poisons an object once (R281). A move in progress is abandoned and its destination freed; a recompute that writes a DROPPED page goes on as its recovery. -/
def State.poison (s : State) (i addr : Nat) (inj : Bool) : State × List Nat :=
  let o := s.obj i
  if o.st = .poisoned || o.st = .free then (s, [])
  else
    let run := s.recomputing i
    let s := match (o.move.bind Move.op).bind s.findOp with
      | some q => s.holdObj q i
      | none => s
    let (s, w) := if run then (s, []) else s.giveDest o
    let home := match o.move with | some m => if run then m.toHome else o.home | none => o.home
    let s := s.setObj i { o with st := .poisoned, epoch := o.epoch + 1, home := home, move := none, recover := if run then some 1 else none, inj := inj }
    let s := { s with hod := { s.hod with fault := setBit s.hod.fault 0 true, poisoned := satInc s.hod.poisoned } }
    let s := s.ev (srcOf 0x05 0) evObjPoisoned addr o.handle.toNat [] inj
    let (s, w') := if run then (s, []) else s.recoverFrom i 0
    (s, w ++ w')

/-- Whether an access to a range verifies a block (R134, R254): a write that covers the whole block needs no read. -/
def ObjRef.verifies (r : ObjRef) (b : Nat) : Bool :=
  4096 * b < r.lo + r.n && r.lo < 4096 * b + 4096 && !(r.wr && r.lo ≤ 4096 * b && 4096 * b + 4096 ≤ r.lo + r.n)

/-- The first block, as object index and block, that an access finds mismatched at both reads. -/
def State.badIn (s : State) (rs : List ObjRef) : Option (Nat × Nat) :=
  s.bad.findSome? (fun p =>
    if p.2 ≠ 0 && rs.any (fun r => hIdx r.h == p.1 / 2 ^ 28 && r.verifies (p.1 % 2 ^ 28)) then some (p.1 / 2 ^ 28, p.1 % 2 ^ 28) else none)

/-- The bytes of a page of an object. -/
def Obj.pageBytes (o : Obj) : Nat := 65536 * 2 ^ o.pg

/-- The regions of a home that can hold pages: footing's below the tables (R264), or the undercroft's. A peer's footing is laid out as this one (R267). -/
def homeRegions (home : Nat) : Nat := if home = 1 then 524288 else 392256

/-- The first local address of a home (R19). -/
def homeBase (home : Nat) : Nat := if home = 1 then 2 ^ 40 else 0

/-- The local address of a page of an object: within its home, a page of 2 MiB or less aligned to its own size, a larger one of whole regions that adjoin (R266).
Where it lies there is a free value. DESIGN CHOICE (45). -/
def Obj.pageAddr (o : Obj) (j : Nat) : Nat :=
  let n := o.pageBytes
  let v := Config.place (match o.moved.find? (fun p => p.1 == j) with | some p => p.2 | none => o.place) j
  let k := homeRegions o.home - max 1 (n / 2 ^ 21) + 1
  homeBase o.home + v % k * 2 ^ 21 + (if n < 2 ^ 21 then v / k % (2 ^ 21 / n) * n else 0)

/-- The local address of a block of an object. -/
def State.blockAddr (s : State) (i b : Nat) : Nat :=
  (s.obj i).pageAddr (4096 * b / (s.obj i).pageBytes) + 4096 * b % (s.obj i).pageBytes

/-- Whether the pages of an object are in the memory of this module. -/
def Obj.placed (o : Obj) : Bool := o.st != .free && o.st != .dropped && o.home != 2

/-- The object and byte at a local address, by table index and offset; none where no page lies. -/
def State.ownerAt (s : State) (a : Nat) : Option (Nat × Nat) :=
  s.objs.findSome? (fun p =>
    if p.2.placed then
      ((List.range p.2.pages).find? (fun j => p.2.pageAddr j ≤ a && a < p.2.pageAddr j + p.2.pageBytes)).map
        (fun j => (p.1, j * p.2.pageBytes + (a - p.2.pageAddr j)))
    else none)

/-- Records CSUM_MISMATCH (R254); a further mismatch on an object that is POISONED already records nothing (R281). -/
def State.csumMismatch (s : State) (src i b : Nat) (inj : Bool := false) : State :=
  if (s.obj i).st = .poisoned then s else s.ev src evCsumMismatch (s.blockAddr i b) (s.obj i).handle.toNat [] inj

/-- The block at the address that the armed point of CSUM_MISMATCH names, if an access verifies it. -/
def State.injBlock (s : State) (src : Nat) (rs : List ObjRef) : Option (Nat × Nat) :=
  if s.injArmed evCsumMismatch src then
    rs.findSome? (fun r => ((List.range ((r.lo + r.n) / 4096 + 1 - r.lo / 4096)).find? (fun j =>
      r.verifies (r.lo / 4096 + j) && s.blockAddr (hIdx r.h) (r.lo / 4096 + j) == s.ldg.injArg.toNat)).map (fun j => (hIdx r.h, r.lo / 4096 + j)))
  else none

/-- A consumer verifies what it reads (R254): CSUM_MISMATCH at each mismatch (the second coalesces, R435), and poison at the second. Answers whether it poisoned, the
state and the requests that are to be evaluated again. -/
def State.verify (s : State) (src : Nat) (rs : List ObjRef) : Bool × State × List Nat :=
  match s.badIn rs with
  | some (i, b) =>
    let (s, w) := ((s.csumMismatch src i b).csumMismatch src i b).poison i (s.blockAddr i b) false
    (true, s, w)
  | none =>
    match s.injBlock src rs with
    | some (i, b) =>
      let s := s.injReport.csumMismatch src i b true
      if s.injArmed evCsumMismatch src then
        let (s, w) := (s.injReport.csumMismatch src i b true).poison i (s.blockAddr i b) true
        (true, s, w)
      else (false, s, [])
    | none => (false, s, [])

/-- Recovery ends (R283): the new home holds the object, its blocks are sound, its requests are released and evaluated in arrival order. -/
def State.recovered (s : State) (i src : Nat) : State × List Nat :=
  let o := s.obj i
  let home := match o.move with | some m => m.toHome | none => o.home
  let held := s.heldOn i
  let (s, w) := if o.move.isSome then s.vacate i else (s, [])
  let s := { s with bad := Tab.clearRange s.bad (badKey i 0) (2 ^ 28) }
  let s := s.setObj i { o with
    st := if home = 0 then .fast else .slow, home := home, epoch := o.epoch + 1, recover := none, recompute := none, move := none, inj := false }
  let s := if o.move.isSome then s.newPlace i else s
  (s.ev (srcOf 0x05 0) evHodRecovered 0 o.handle.toNat [BitVec.ofNat 8 src] o.inj, held ++ w)

/-- What follows when a reserved context has ended or faulted (R225): the page is RESIDENT_FAST and every held access proceeds, those on the page-free counter
among them; or it is poisoned without a copy. DEDUCED (114): it is RESIDENT_FAST whatever its home tier, as order 5 of R225 says. -/
def State.recomputeDone (s : State) (i : Nat) : State × List Nat :=
  let o := s.obj i
  let home := match o.move with | some m => m.toHome | none => o.home
  match o.recompute with
  | none => (s, [])
  | some x =>
    if (s.ctx x).st = .idle then
      if o.st = .poisoned then
        let (s, w) := s.recovered i 1
        (s.startRecipes, w)
      else
        let held := s.heldOn i ++ s.capOn i
        ((s.setObj i { o with st := .fast, home := home, recompute := none, move := none }).startRecipes, held)
    else if (s.ctx x).st = .faulted then
      if o.st = .poisoned then
        let (s, w) := s.giveDest o
        let (s, w') := (s.setObj i { o with recompute := none, recover := none, move := none }).recoverFrom i 1
        (s.discardCtx x, w ++ w')
      else
        let s := s.setObj i { o with recompute := none, st := .poisoned, home := home, recover := none, move := none, epoch := o.epoch + 1 }
        let s := { s with hod := { s.hod with fault := setBit s.hod.fault 0 true, poisoned := satInc s.hod.poisoned } }.ev (srcOf 0x05 0) evObjPoisoned 0 o.handle.toNat
        ((s.noCopy i false).discardCtx x, [])
    else (s, [])

/-! ## State against request (R270) -/

/-- Whether an access to a range of an object proceeds now: it is resident, no retirement moves the page, or the access is the recompute's own. -/
def State.reaches (s : State) (src : OpSrc) (r : ObjRef) : Bool :=
  let i := hIdx r.h
  let o := s.obj i
  match o.st with
  | .fast | .slow =>
    match o.move with
    | some m =>
      match m.region with
      | some _ =>
        let p := m.page * (65536 * 2 ^ o.pg)
        r.lo + r.n ≤ p || p + 65536 * 2 ^ o.pg ≤ r.lo
      | none => true
    | none => true
  | .dropped | .poisoned => match src, o.recompute with
    | .ctx x, some y => x == y
    | _, _ => false
  | _ => false

/-- Gives the bytes of object `i` to the peer that is to hold them under handle `hh`. -/
def State.givePeer (s : State) (i node hh : Nat) : State :=
  let ob := s.obj i
  s.sendMsg { s.newMsg node 7 with len := ob.bytes, tag := BitVec.ofNat 32 hh, data := s.objRead i 0 ob.bytes }

/-- Begins a move of an object for an operation: the destination's capacity first (R273), then IN_FLIGHT. While a supply warning holds the hod, the request waits
(R409). -/
def State.beginMove (s : State) (o : Op) (i home node : Nat) : State × List Nat :=
  let ob := s.obj i
  if s.warned then (s.holdObj o i, [])
  else
  let (ok, s, w) := s.obtain home ob.size 4 false
  if ok then
    let s := if ob.home = 2 then s.askPeer ob.hnode ob.hhandle ob.bytes o.id else s
    let ob := s.obj i
    ((s.setOp { o with st := .moving }).setObj i
      { ob with st := if home = 0 then .up else .down, move := some { toHome := home, toNode := node, op := some o.id } }, w)
  else (s.awaitCap o 3, w)

/-- Adds a pin for an operation, once. -/
def State.pinFor (s : State) (o : Op) (i : Nat) : State × Op :=
  if i ∈ o.pinned then (s, o)
  else
    let o := { o with pinned := o.pinned ++ [i] }
    ((s.setObj i { s.obj i with pins := (s.obj i).pins + 1 }).setOp o, o)

/-- PROMOTE (R270, R272): an internal pin, then the object in local footing. The result of a code load that moves its object is the handle. -/
def State.evalPromote (s : State) (o : Op) (i : Nat) : State × List Nat :=
  let (s, o) := s.pinFor o i
  let ob := s.obj i
  match ob.st with
  | .fast | .slow =>
    if ob.st = .fast && ob.home = 0 then (s.satisfied o (o.regs.getD 1 0).toNat, [])
    else if s.inProgress i || ob.move.isSome then (s.holdObj o i, [])
    else s.beginMove o i 0 0
  | .dropped => s.askRecompute o i 0
  | _ => (s.holdObj o i, [])

/-- The target home and node of a DEMOTE (R274). -/
def Op.target (o : Op) : Nat × Nat := (if fld o.hodArg 1 0 = 0 then 1 else 2, fld o.hodArg 29 16)

/-- DEMOTE (R270). DESIGN CHOICE (133): a recompute of a DROPPED page that has been begun goes on in the tier where its capacity was obtained, and HOME names that tier
when it ends. -/
def State.evalDemote (s : State) (o : Op) (i : Nat) : State × List Nat :=
  let ob := s.obj i
  let (home, node) := o.target
  match ob.st with
  | .fast | .slow =>
    if ob.st = .fast && ob.pins ≠ 0 then (s.refuse o o.hodHandle, [])
    else if ob.home = home && (home = 1 || ob.hnode = node) then (s.satisfied o, [])
    else if s.inProgress i || ob.move.isSome then (s.holdObj o i, [])
    else s.beginMove o i home node
  | .dropped => ((s.setObj i { ob with home := home, hnode := node }).satisfied o, [])
  | _ => (s.holdObj o i, [])

/-- DROP (R270). DEDUCED (134): where a read or write of the page is in progress R224 does not hold, and the request is refused; R271, by which a drop starts only after
every access in progress has ended, is then met. -/
def State.evalDrop (s : State) (o : Op) (i : Nat) : State × List Nat :=
  let ob := s.obj i
  match ob.st with
  | .fast | .slow =>
    if s.mayDrop i then
      let (s, w) := s.dropPage i
      (s.satisfied o, w)
    else (s.refuse o o.hodHandle, [])
  | .dropped | .poisoned => (s.satisfied o, [])
  | _ => (s.holdObj o i, [])

/-- The lowest-numbered FREE index from 1 upward (R263), up to the end of the table. -/
def State.freeIndex (s : State) : Option Nat :=
  (List.range (s.objs.length + 2)).find? (fun i => 1 ≤ i && i < 2 ^ 20 && (s.obj i).st == .free)

/-- The handle that the next object at an index takes (R263). -/
def State.nextHandle (s : State) (i : Nat) : BitVec 24 :=
  let g := (s.obj i).handle.toNat / 2 ^ 20
  BitVec.ofNat 24 ((g % 15 + 1) * 2 ^ 20 + i)

/-- A created object: zero bytes, matching checksums, never written (R266). -/
def State.install (s : State) (i : Nat) (o : Obj) : State := ((s.objZero i).setObj i o).newPlace i

/-- The result line of HOD.APPEND (R276), written at the address that SC named. -/
def State.appendLine (s : State) (o : Op) (first new fill : Nat) : State :=
  s.spadWrite o.core ((o.regs.getD 2 0).toNat)
    (toBytes 4 first ++ toBytes 4 new ++ toBytes 4 fill ++ List.replicate 52 0)

/-- The page that HOD.APPEND adds after one that it fills (R276), at handle `h` in the same home tier, with FILL `fill`. DESIGN CHOICE (135): beside the descriptor the
new entry takes EVICT and EPRIO of the old one, and no replica; one in a peer's footing takes the peer and a handle there that is a free value. -/
def Obj.successor (ob : Obj) (h : BitVec 24) (fill hh : Nat) : Obj :=
  let np := ((ob.setP 0 23 0 h.toNat).setP 1 31 0 fill).setP 2 23 0 (fld (ob.pword 2) 23 0 + ob.cap)
  let np := if ob.rcp then (np.setP 5 63 32 (fld (ob.pword 5) 63 32 + ob.cap)).setP 6 31 0 ob.cap else np
  { handle := h, st := if ob.home = 0 then .fast else .slow, kind := .page, home := ob.home, pg := ob.pg, evict := ob.evict, eprio := ob.eprio, size := ob.size
    page := np.page, reg := ob.reg, regNext := ob.regNext, hnode := if ob.home = 2 then ob.hnode else 0, hhandle := if ob.home = 2 then hh else 0 }

/-- HOD.APPEND on a resident or DROPPED page (R228, R276); a new page's capacity is obtained in the same home tier. DESIGN CHOICE (136): while no index of the table is
FREE the request is held on the page-free counter, as it is without capacity. -/
def State.evalAppend (s : State) (o : Op) (i : Nat) : State × List Nat :=
  let ob := s.obj i
  let n := fld o.hodArg 31 0
  match ob.st with
  | .fast | .slow | .dropped =>
    if ob.succ then (s.asyncFault o evBoundsFault, [])
    else if ob.fill + n ≤ ob.cap then
      let s := s.setObj i (ob.setP 1 31 0 (ob.fill + n))
      let s := s.appendLine o ob.handle.toNat 0 (ob.fill + n)
      (s.satisfied o, [])
    else
      match s.freeIndex with
      | none => (s.awaitCap o ob.prio, [])
      | some j =>
        let (ok, s, w) := s.obtain ob.home ob.size ob.prio true
        if ok then
          let h := s.nextHandle j
          let ob := s.obj i
          let (k, s) := s.fresh
          let s := s.install j (ob.successor h (ob.fill + n - ob.cap) (Config.choose k % 2 ^ 24))
          let s := s.setObj i { ob.setP 1 31 0 ob.cap with succ := true }
          let first := if ob.fill = ob.cap then h.toNat else ob.handle.toNat
          ((s.appendLine o first h.toNat (ob.fill + n - ob.cap)).satisfied o, w)
        else (s.awaitCap o ob.prio, w)
  | _ => (s.holdObj o i, [])

/-- HOD.TRIM (R276). -/
def State.evalTrim (s : State) (o : Op) (i : Nat) : State × List Nat :=
  let ob := s.obj i
  match ob.st with
  | .fast | .slow | .dropped =>
    if ob.succ || ob.fill < fld o.hodArg 31 0 then (s.asyncFault o evBoundsFault, [])
    else ((s.setObj i (ob.setP 1 31 0 (fld o.hodArg 31 0))).satisfied o, [])
  | _ => (s.holdObj o i, [])

/-- HOD.PIN (R270, R275): the pin at once, completion when the object is resident. -/
def State.evalPin (s : State) (o : Op) (i : Nat) : State × List Nat :=
  let (s, o) := s.pinFor o i
  match (s.obj i).st with
  | .fast | .slow => (s.satisfied o, [])
  | .dropped => s.askRecompute o i (s.obj i).home
  | _ => (s.holdObj o i, [])

/-- HOD.UNPIN: PINS − 1 in every state. -/
def State.evalUnpin (s : State) (o : Op) (i : Nat) : State × List Nat :=
  let s := (s.setObj i { s.obj i with pins := (s.obj i).pins - 1 }).satisfied o
  (s, s.heldOn i)

/-- The move of a page out of a region (R258, R273, R280): other footing or other undercroft for the page; when no footing is free, the undercroft for the whole
object, unless it is a code object, which waits on the page-free counter (R139). -/
def State.evalLeave (s : State) (o : Op) : State × List Nat :=
  let i := o.words.getD 0 0
  let g := o.words.getD 2 0
  let ob := s.obj i
  if !(ob.st == .fast || ob.st == .slow) || ob.move.isSome || s.inProgress i || s.warned then (s.holdObj o i, [])
  else
    let home := if g < 2 ^ 20 then 0 else 1
    let (ok, s, w) := s.obtain home (2 ^ ob.pg) 4 false
    let ob := s.obj i
    if ob.st = .dropped then
      let (s, w') := if ok then s.giveUnits home (2 ^ ob.pg) 0 else (s, [])
      (s, w ++ w')
    else if ob.move.isSome then (s.holdObj o i, w)
    else
      let s' := s.setOp { o with st := .moving }
      if ok then (s'.setObj i { ob with move := some { toHome := ob.home, op := some o.id, region := some g, page := o.words.getD 1 0 } }, w)
      else if g < 2 ^ 20 && ob.kind != .code && ob.size ≤ s.hod.freeSlow then
        ((s'.takeUnits 1 ob.size).setObj i { ob with st := .down, move := some { toHome := 1, op := some o.id } }, w)
      else (s.holdCap o 3, w)

/-- A recovery that waited for evictions (R273), or for the end of a supply warning; its words are the object's index, how many sources it passes over, and whether it may
still wait for evictions. -/
def State.evalRecover (s : State) (o : Op) : State × List Nat :=
  let i := o.words.getD 0 0
  if (s.obj i).st = .poisoned then (s.dropOp o.id).recoverFrom i (o.words.getD 1 0) (o.words.getD 2 0 == 1) else (s.dropOp o.id, [])

/-- The operations held on an object: the requests that wait on its entry, and, on a POISONED one, those started that reach it (R270, R281). -/
def State.heldAt (s : State) (i : Nat) : List Nat :=
  let o := s.obj i
  s.heldOn i ++ (if o.st = .poisoned then
      (s.ops.filter (fun q => (q.st == .started || q.st == .remote || q.st == .waiting) && (s.refs q).any (fun r => hIdx r.h == i)
        && !(match q.src, o.recompute with | .ctx x, some y => x == y | _, _ => false))).map Op.id
    else [])

/-- Frees an object: its entry is FREE and keeps its handle's generation, its capacity returns, held operations end with BOUNDS_FAULT and held accesses of the host
find no object. -/
def State.freeObj (s : State) (i : Nat) : State × List Nat :=
  let o := s.obj i
  let held := s.heldAt i
  let (s, w) := if o.st = .dropped then (s, []) else s.vacate i
  let (s, w') := s.giveDest o
  let w := w ++ w'
  let s := (s.objZero i).setObj i { handle := o.handle }
  let s := { s with ops := s.ops.map (fun (q : Op) => { q with pinned := q.pinned.filter (fun j => j != i) }) }
  let host := held.filter (fun id => (s.findOp id).any (fun q => q.src == .host))
  let s := held.foldl (fun s id => match s.findOp id with
    | some q => if q.src = .host then s else s.asyncFault q evBoundsFault
    | none => s) s
  ({ s with
      hod := { s.hod with recomputes := s.hod.recomputes.filter (fun p => p.1 != i) }
      ops := s.ops.filter (fun q => !(q.kind == .recover && q.words.getD 0 0 == i)) }, w ++ host)

/-- Whether the runtime's DESTROY of an object is refused: in every state for a ring's object and the loss object (R349, R377); on a resident object also for a
recipe that names it and for pins other than the load pin (R270), and for a code object for a context that runs it (R141). DEDUCED (113): a POISONED code object keeps
R141's reasons, and any other POISONED or DROPPED object is freed as the table of R270 says. -/
def State.destroyRefused (s : State) (i : Nat) : Bool :=
  let o := s.obj i
  let h := o.handle.toNat
  let pins := if o.loadPin then o.pins.toNat - 1 else o.pins.toNat
  let ring := (List.range 32).any (fun r => (s.ring r).en && s.ringHandle r == h)
  let loss := s.msn.job && (match s.prs.loss with | some (l, _) => l == h | none => false)
  let code := o.kind == .code && s.ctxs.any (fun p => p.2.st != .idle && p.2.code.toNat == h)
  ring || loss || ((o.st == .fast || o.st == .slow || (o.st == .poisoned && o.kind == .code)) && (code || s.inRecipe h || 0 < pins))

/-- DESTROY (R270). -/
def State.evalDestroy (s : State) (o : Op) (i : Nat) : State × List Nat :=
  if s.destroyRefused i then (s.refuse o o.hodHandle, [])
  else
    match (s.obj i).st with
    | .up | .down => (s.holdObj o i, [])
    | _ =>
      if (s.obj i).st ≠ .poisoned && s.inProgress i then (s.holdObj o i, [])
      else (s.endRing o stOk 0).freeObj i

/-- CREATE, once its operands are checked (R381): an index, capacity at the home asked for, and the entry. DESIGN CHOICE (136): with no index FREE it is refused. `words` hold KIND, PG, HOME byte, SIZE,
RHANDLE, the RNODE half-word and the eight words of a page's descriptor. -/
def State.evalCreate (s : State) (o : Op) : State × List Nat :=
  let w (n : Nat) : Nat := o.words.getD n 0
  match s.freeIndex with
  | none => (s.refuse o 0, [])
  | some i =>
    let home := fld (w 2) 1 0
    let (ok, s, l) := s.obtain home (w 3) 4 false
    if ok then
      let h := s.nextHandle i
      let ob : Obj :=
        { handle := h, st := if home = 0 then .fast else .slow, kind := if w 0 = 2 then .page else .data, home := home, pg := w 1
          evict := bitOf (w 2) 2, eprio := fld (w 2) 4 3, size := w 3, rhandle := w 4, rnode := fld (w 5) 13 0, rvalid := bitOf (w 5) 15
          page := if w 0 = 2 then ((o.words.drop 6).take 8).map (BitVec.ofNat 64) else [] }
      let ob := if w 0 = 2 then ob.setP 0 23 0 h.toNat else ob
      ((s.install i ob).endRing o stOk h.toNat, l)
    else (s.awaitCap o 3, l)

/-- An operation that reaches object bytes: it runs once every range is reached, taking its internal pins; otherwise it is held on the first
that is not, and a DROPPED page is asked to be recomputed. -/
def State.evalAccess (s : State) (o : Op) : State × List Nat :=
  match (s.refs o).find? (fun r => !s.reaches o.src r) with
  | some r =>
    if (s.obj (hIdx r.h)).st = .dropped then s.askRecompute o (hIdx r.h) (s.obj (hIdx r.h)).home
    else (s.holdObj o (hIdx r.h), [])
  | none =>
    let src := srcOf 0x07 o.arcCourse
    let (hit, s, w) := if o.kind.arch then s.verify src ((s.refs o).filter (fun r => !r.wr)) else (false, s, [])
    if hit then (s.holdObj o (hIdx o.arcSrc), w)
    else
      let (s, o) := (s.refs o).foldl (fun p r => if o.kind.pins && !(o.kind.arch && r.wr) then p.1.pinFor p.2 (hIdx r.h) else p) (s, o)
      (s.launch o, w)

end Sys2Proof.Machine
end

