-- ==== Sys2Proof/Machine/Detect.lean ====
section
/-! DEFINITION. What the detectors on a data path report (R100, R189, R249, R254, R280): the geometry of footing and the undercroft, the repair records, failing rows,
and regions that go out of use (R256, R258, R280). An armed injection point that names the reported place marks the report as injected (R441). -/

namespace Sys2Proof

/-- The region that a row holds bytes of (R243, R244). -/
def RowId.region (r : RowId) : Nat := 16 * r.row.val + r.bank.val / 4

/-- The hash of a region (R243). -/
def regionHash (g : Nat) : Nat := (g % 512).xor ((g / 512 % 512).xor (g / 2 ^ 18 % 2))

/-- The module pseudo-channel of a footing address (R243). -/
def moduleChannel (a : Nat) : Nat := (a / 256 % 512).xor (regionHash (a / 2 ^ 21))

/-- The row that holds a footing address (R243): bits [20:8] are the line in the region; its bits [8:0] give the module pseudo-channel with the hash, its
bits [12:11] the bank with the region. -/
def rowAt (a : Nat) : RowId :=
  let q := moduleChannel a
  let g := a / 2 ^ 21
  ⟨Fin.ofNat 8 (q / 64), Fin.ofNat 64 (q % 64), Fin.ofNat 64 (4 * (g % 16) + a / 2 ^ 19 % 4), Fin.ofNat 24576 (g / 16)⟩

/-- The addresses of the four lines of a row, by column (R243, R244): four lines of four integrity blocks of its region. -/
def RowId.lines (r : RowId) : List Nat :=
  let low := (64 * r.stack.val + r.pch.val).xor (regionHash r.region)
  (List.range 4).map (fun c => r.region * 2 ^ 21 + r.bank.val % 4 * 2 ^ 19 + c * 2 ^ 17 + low * 256)

/-- The slice of mortar that a line belongs to (R185). -/
def mortarSlice (a : Nat) : Nat :=
  ([8, 14, 20, 26, 32, 38, 44].map (fun n => a / 2 ^ n % 64)).foldl Nat.xor 0

/-- The undercroft channel of an address (R278). -/
def ucfChannel (a : Nat) : Nat := ((a - 2 ^ 40) / 2 ^ 12 % 64).xor ((a - 2 ^ 40) / 2 ^ 21 % 64)

/-- The address of the side-table entry of a block (R245). -/
def sideEntry (a : Nat) : Nat := if a < 2 ^ 40 then 0xBF90000000 + a / 4096 * 4 else 0xBFC0000000 + (a - 2 ^ 40) / 4096 * 4

/-- Whether an address lies in the side-table. -/
def inSide (a : Nat) : Bool := 0xBF90000000 ≤ a && a < 0xC000000000

/-- The source of footing's events about a row (R427). -/
def RowId.src (r : RowId) : Nat := Machine.srcOf 0x03 (64 * r.stack.val + r.pch.val)

/-- Stack, pseudo-channel, bank and row, as an event's payload lists them. -/
def RowId.bytes (r : RowId) : List Byte :=
  Machine.toBytes 1 r.stack.val ++ Machine.toBytes 1 r.pch.val ++ Machine.toBytes 1 r.bank.val ++ Machine.toBytes 2 r.row.val

/-- The key of a row's bank in `Stack.spares`. -/
def RowId.bankKey (r : RowId) : Nat := 64 * r.pch.val + r.bank.val

end Sys2Proof

namespace Sys2Proof.Machine

/-! ## Repair records (R260) -/

/-- A repair record as it lies in flash (R260): 32 little-endian bytes with the CRC-32C of the first 28. What a type does not use is zero. -/
def Repair.bytes (r : Repair) : List Byte :=
  let w (f : RowId → Nat) : Nat := match r.row with | some q => f q | none => 0
  let b := toBytes 1 r.typ ++ toBytes 1 (if r.typ = 4 || r.typ = 5 then 0xFF else w (·.stack.val)) ++ toBytes 1 (w (·.pch.val)) ++ toBytes 1 (w (·.bank.val))
    ++ toBytes 2 (w (·.row.val)) ++ toBytes 1 r.spare ++ toBytes 1 r.lane ++ toBytes 4 r.region ++ toBytes 4 r.slot ++ toBytes 8 r.seq ++ toBytes 4 0
  b ++ toBytes 4 (crc32c b)

/-- The record that 32 bytes of a copy hold; none where their CRC fails or the type is reserved. -/
def Repair.ofBytes (b : List Byte) : Option Repair :=
  let t := leAt b 0 1
  if b.length = 32 && leAt b 28 4 == crc32c (b.take 28) && 1 ≤ t && t ≤ 5 then
    some
      { typ := t
        row := if t ≤ 3 then some ⟨Fin.ofNat 8 (leAt b 1 1), Fin.ofNat 64 (leAt b 2 1), Fin.ofNat 64 (leAt b 3 1), Fin.ofNat 24576 (leAt b 4 2)⟩ else none
        spare := leAt b 6 1, lane := leAt b 7 1, region := leAt b 8 4, slot := leAt b 12 4, seq := leAt b 16 8 }
  else none

/-- Appends a record to the list in force and to both copies in flash. -/
def State.record (s : State) (r : Repair) : State :=
  let b : Int × List Byte := (s.pln.cclk.toNat, r.bytes)
  { s with ftg := { s.ftg with repairs := s.ftg.repairs ++ [r], copyA := s.ftg.copyA ++ [b], copyB := s.ftg.copyB ++ [b] } }

/-- The records that the two copies hold: one whose CRC fails in one copy is taken from the other, one that fails in both is ignored. -/
def readRepairs (a b : List (Int × List Byte)) : List Repair :=
  (List.range (max a.length b.length)).filterMap (fun j =>
    ((a[j]?).bind (fun p => Repair.ofBytes p.2)).orElse (fun _ => (b[j]?).bind (fun p => Repair.ofBytes p.2)))

/-- Marks a slot failed for the life of the module (R111), with the sequence number of the event's record; an injected mark holds until the next start only (R443). -/
def State.markFailed (s : State) (p seq : Nat) (inj : Bool) : State :=
  let s := s.setSlot p { s.slot p with failed := true, failInj := inj }
  if inj then s else s.record { typ := 5, slot := p, seq := seq }

/-- A corrected or uncorrectable word of the scratchpad or the accumulator memory of a core, as its ECC decoder reports it (R100, R108). -/
def State.spadDetect (s : State) (k addr : Nat) (corrected inj : Bool) : State :=
  match s.slotOf k with
  | none => s
  | some p =>
    let q := s.slot p
    if corrected then
      (s.setSlot p { q with fault := setBit q.fault 8 true, spadCorr := satInc q.spadCorr }).ev (srcOf 0x01 (0x200 + p)) evSpadCorr addr 0 [] inj
    else
      let seq := s.ldg.next
      let s := (s.setSlot p { q with fault := setBit q.fault 9 true, errs := if addr ∈ q.errs then q.errs else q.errs ++ [addr] }).ev
        (srcOf 0x01 (0x200 + p)) evSpadUncorr addr 0 [] inj
      if addr ∈ q.oldErrs && !(s.slot p).failed then s.markFailed p seq inj else s

/-- The ECC outcome of a read of a scratchpad word, an injected one included: ARG of the point is an address in the word. DEDUCED. -/
def State.spadCheck (s : State) (k addr : Nat) (e : Ecc) : Ecc × State :=
  let src := srcOf 0x01 (0x200 + (s.slotOf k).getD 0)
  if s.injArmed evSpadUncorr src (fun a => a / 8 == addr / 8) then (.uncorrectable, s.injReport.spadDetect k addr false true)
  else if s.injArmed evSpadCorr src (fun a => a / 8 == addr / 8) then (.corrected, s.injReport.spadDetect k addr true true)
  else
    match e with
    | .ok => (.ok, s)
    | .corrected => (.corrected, s.spadDetect k addr true false)
    | .uncorrectable => (.uncorrectable, s.spadDetect k addr false false)

/-! ## Regions that go out of use -/

/-- The first address of a region of footing or, from 2^20 on, of the undercroft. -/
def regionBase (g : Nat) : Nat := if g < 2 ^ 20 then g * 2 ^ 21 else 2 ^ 40 + (g - 2 ^ 20) * 2 ^ 21

/-- The pages that overlap a region, by table index and page. -/
def State.pagesIn (s : State) (g : Nat) : List (Nat × Nat) :=
  s.objs.flatMap (fun p =>
    if p.2.placed then
      ((List.range p.2.pages).filter (fun j => p.2.pageAddr j < regionBase g + 2 ^ 21 && regionBase g < p.2.pageAddr j + p.2.pageBytes)).map (fun j => (p.1, j))
    else [])

/-- Takes a region out of use: its free units go, and every page that overlaps it must leave. -/
def State.empty (s : State) (g : Nat) : State :=
  let home := if g < 2 ^ 20 then 0 else 1
  let pages := (s.pagesIn g).map (fun p => (p.1, p.2, g))
  let used := (pages.map (fun e => min 32 (2 ^ (s.obj e.1).pg))).foldl (· + ·) 0
  let h := s.hod
  let s := { s with hod := if home = 0 then { h with freeFast := h.freeFast - (32 - used) } else { h with freeSlow := h.freeSlow - (32 - used) } }
  pages.foldl (fun s e => (s.request .leave .hod e.1 [e.1, e.2.1, g]).1) s

/-- Whether footing has retired a region or is retiring it. -/
def State.regionOut (s : State) (g : Nat) : Bool := g ∈ s.ftg.retired || s.ftg.retiring.any (fun r => r.1 == g)

/-- The number of regions of the side-table and the object table (R245, R264). -/
def tableRegion (g : Nat) : Bool := 392256 ≤ g && g ≤ 393215

/-- A row fails (R256 to R259): its repair waits, in place where its bank has no spare row left for it or its region is RETIRING, or footing has lost a table. -/
def State.rowFails (s : State) (r : RowId) (inj : Bool) : State :=
  let g := r.region
  let k := s.stack r.stack.val
  let lost := 392320 ≤ g && s.injArmed evFtgTableLost r.src (fun a => a / 2 ^ 21 == g)
  let taken := Tab.get 0 k.spares r.bankKey + (k.pendingRows.filter (fun p => !p.inPlace && p.row.bankKey == r.bankKey)).length
  let pend (p : Bool) : State := s.setStack r.stack.val { k with pendingRows := k.pendingRows ++ [{ row := r, inj := inj, inPlace := p }] }
  if k.pendingRows.any (fun p => p.row == r) || g ∈ s.ftg.retired then s
  else if lost then s.injReport.ev r.src evFtgTableLost g 0 r.bytes true
  else if s.ftg.retiring.any (fun q => q.1 == g) then pend true
  else if taken < 4 then pend false
  else if tableRegion g then s.ev r.src evFtgTableLost g 0 r.bytes inj
  else pend true

/-- The table of rows with corrected errors, oldest first, after one more on a row, and the row's count (R256). -/
def countRow (l : List (RowId × Nat)) (r : RowId) : List (RowId × Nat) × Nat :=
  match l.find? (fun p => p.1 == r) with
  | some p => (l.map (fun q => if q.1 = r then (r, q.2 + 1) else q), p.2 + 1)
  | none =>
    if l.length < 1024 then (l ++ [(r, 1)], 1)
    else
      let m := ((l.map Prod.snd).min?).getD 0
      match l.find? (fun p => p.2 == m) with
      | some p => (l.filter (fun q => q.1 != p.1) ++ [(r, 1)], 1)
      | none => (l ++ [(r, 1)], 1)

/-- The lane of a pseudo-channel that carries lane `lane` of a burst: itself, or the spare lane that replaces it (R248). -/
def Stack.carries (k : Stack) (pch lane : Nat) : Nat :=
  let a := Tab.get 0 k.laneA pch
  let b := Tab.get 0 k.laneB pch
  if a = lane + 1 then (if b = 37 then 37 else 36)
  else if b = lane + 1 then (if a = 38 then 36 else 37)
  else lane

/-- A one-lane error of a row (R248, R249, R256): it counts against the lane that carries it and against the row. An injected one leaves the lane's count, which the next
training reads, as it was (R443). -/
def State.ftgCorr (s : State) (r : RowId) (lane addr : Nat) (inj : Bool) : State :=
  let k := s.stack r.stack.val
  let key := 38 * r.pch.val + k.carries r.pch.val lane
  let n := Tab.get 0 k.laneErr key + 1
  let t := countRow k.rowErr r
  let soft := inj || r ∈ k.rowInj
  let k := { k with
    fault := setBit k.fault 0 true, corr := satInc k.corr, laneErr := if inj then k.laneErr else Tab.set 0 k.laneErr key n, rowErr := t.1
    rowInj := if inj then r :: k.rowInj else k.rowInj }
  let s := (s.setStack r.stack.val k).ev r.src evFtgCorr addr 0 (r.bytes ++ toBytes 1 (k.carries r.pch.val lane) ++ toBytes 4 n) inj
  if 3 ≤ t.2 then s.rowFails r soft else s

/-- Marks a line of an object's block poisoned (R249). -/
def State.markLine (s : State) (i blk line : Nat) : State :=
  { s with bad := Tab.set 0 s.bad (badKey i blk) (s.badBlock i blk ||| 2 ^ line) }

/-- Whether an object can be poisoned now. -/
def State.poisonable (s : State) (i : Nat) : Bool := (s.obj i).st != .free && (s.obj i).st != .poisoned

/-- An uncorrectable footing burst (R249, R256): `reads` says that its reader verifies the block, and so poisons the object. An injected one alters no data and leaves no
mark (R441). -/
def State.ftgUncorr (s : State) (r : RowId) (addr i blk : Nat) (reads inj : Bool) : State :=
  let k := s.stack r.stack.val
  let s := s.setStack r.stack.val { k with fault := setBit k.fault 1 true, uncorr := satInc k.uncorr }
  let cls := if reads && s.poisonable i && !inj then 2 else 1
  let s := if (s.obj i).st = .free || inj then s else s.markLine i blk (addr / 256 % 16)
  let s := s.post { src := r.src, code := evFtgUncorr, cls := cls, key := addr, w44 := (s.obj i).handle.toNat, rest := r.bytes, inj := inj }
  s.rowFails r inj

/-- The blocks of objects whose entries a line of the side-table holds (R245), by table index and block, in the order of the entries. -/
def State.sideBlocks (s : State) (a : Nat) : List (Nat × Nat) :=
  let e := a / 256 * 256
  let block := if e < 0xBFC0000000 then (e - 0xBF90000000) / 4 * 4096 else 2 ^ 40 + (e - 0xBFC0000000) / 4 * 4096
  (List.range 64).filterMap (fun j => (s.ownerAt (block + 4096 * j)).map (fun p => (p.1, p.2 / 4096)))

/-- An entry of the side-table that does not read: its four bytes are free values, and its block carries bit 17 until its object is restored (R255). -/
def State.loseEntry (s : State) (i b : Nat) : State :=
  let (v, s) := s.freeBytes 4
  { s with phys := Mem.write s.phys (sideEntry (s.blockAddr i b)) v }.markLine i b 17

/-- An uncorrectable side-table line (R255), with the blocks whose entries it holds. Where it stays so, every one of them is lost. -/
def State.sideUncorr (s : State) (r : RowId) (addr : Nat) (owners : List (Nat × Nat)) (stays inj : Bool) : State :=
  let k := s.stack r.stack.val
  let s := s.setStack r.stack.val { k with fault := setBit k.fault 1 true, uncorr := satInc k.uncorr }
  let s := if stays then owners.foldl (fun s p => s.loseEntry p.1 p.2) s else s
  let h := match owners with | p :: _ => (s.obj p.1).handle.toNat | [] => 0
  let s := s.post { src := r.src, code := evFtgUncorr, cls := if stays && !owners.isEmpty then 2 else 1, key := addr, w44 := h, rest := r.bytes, inj := inj }
  s.rowFails r inj

/-- The region of an undercroft address. -/
def ucfRegion (addr : Nat) : Nat := (addr - 2 ^ 40) / 2 ^ 21

/-- Quarantines an undercroft region (R280). -/
def State.quarantine (s : State) (src g : Nat) (inj : Bool) : State :=
  if g ∈ s.ucf.quarantined then s
  else
    let s := { s with
      ucf := { s.ucf with quarantined := s.ucf.quarantined ++ [g], fault := setBit s.ucf.fault 2 true }
      hod := { s.hod with allocSlow := s.hod.allocSlow - 32 } }
    (s.ev src evUcfQuarantined g 0 [] inj).empty (2 ^ 20 + g)

/-- An undercroft error in one byte lane (R280). -/
def State.ucfCorr (s : State) (ch addr : Nat) (inj : Bool) : State :=
  ({ s with ucf := { s.ucf with fault := setBit s.ucf.fault 0 true, corr := satInc s.ucf.corr } }).ev (srcOf 0x04 ch) evUcfCorr addr 0 [] inj

/-- An uncorrectable undercroft error (R280); an injected one leaves no mark (R441). -/
def State.ucfUncorr (s : State) (ch addr i blk : Nat) (inj : Bool) : State :=
  let g := ucfRegion addr
  let n := Tab.get 0 s.ucf.errs g + 1
  let s := { s with ucf := { s.ucf with
    fault := setBit s.ucf.fault 1 true, uncorr := satInc s.ucf.uncorr, errs := Tab.set 0 s.ucf.errs g n } }
  let s := if (s.obj i).st = .free || inj then s else s.markLine i blk (addr / 256 % 16)
  let s := s.ev (srcOf 0x04 ch) evUcfUncorr addr (s.obj i).handle.toNat [] inj
  if 2 ≤ n then s.quarantine (srcOf 0x04 ch) g inj else s

/-! ## Mortar (R189) -/

def State.mtrCorr (s : State) (slice addr : Nat) (inj : Bool) : State :=
  ({ s with mtr := { s.mtr with fault := setBit s.mtr.fault 0 true, corr := satInc s.mtr.corr } }).ev (srcOf 0x02 slice) evMtrCorr addr 0 [] inj

/-- An uncorrectable mortar error: `case` is its MTR_FAULT bit, 1 clean, 2 dirty, 3 combine, and `cls` its class. -/
def State.mtrUncorr (s : State) (slice addr case cls handle : Nat) (inj : Bool) : State :=
  ({ s with mtr := { s.mtr with fault := setBit s.mtr.fault case true, uncorr := satInc s.mtr.uncorr } }).post
    { src := srcOf 0x02 slice, code := evMtrUncorr, cls := cls, key := addr, w44 := handle, inj := inj }

/-! ## Reports -/

/-- What a reader's detections leave: the state, the requests that are to be evaluated again, and whether its results are invalid. -/
structure Found where
  s : State
  again : List Nat := []
  invalid : Bool := false

/-- Whether the armed point of a code is the reported place. -/
def State.injAt (s : State) (code src addr unit : Nat) : Bool := s.injArmed code src (fun a => a / unit == addr / unit)

/-- One report with its place matched against the armed point. -/
def State.reported (s : State) (code src addr unit : Nat) (f : State → Bool → State) : State :=
  if s.injAt code src addr unit then f s.injReport true else f s false

/-- Poison, with what it releases. -/
def Found.poison (f : Found) (i addr : Nat) (inj : Bool) : Found :=
  let (s, w) := f.s.poison i addr inj
  { f with s := s, again := f.again ++ w }

/-- What an injected uncorrectable error makes of a read that verifies the block (R254, R441): the block mismatches, and at the second read again when the point `code`
of `at_` still reports there. -/
def Found.injMismatch (src code at_ addr i b : Nat) (f : Found) (again : State → State) : Found :=
  let s := f.s.csumMismatch src i b true
  if s.injAt code at_ addr 256 then { f with s := (again s.injReport).csumMismatch src i b true }.poison i addr true
  else { f with s := s }

/-- One detection while a reader of source `src` on logical core `k` reads the ranges `rs`. DESIGN CHOICE (137): the slice that a combine unit's error names is that of the
address which the detector reports, for combine units have no local address. -/
def Found.detect (src k : Nat) (rs : List ObjRef) (f : Found) (d : Detect) : Found :=
  let s := f.s
  match d with
  | .spad ok addr =>
    let slot := srcOf 0x01 (0x200 + (s.slotOf k).getD 0)
    { f with
      s := s.reported (if ok then evSpadCorr else evSpadUncorr) slot addr 8 (fun s inj => s.spadDetect k addr ok inj)
      invalid := f.invalid || !ok }
  | .mtrCorr addr =>
    let slice := mortarSlice addr
    { f with s := s.reported evMtrCorr (srcOf 0x02 slice) addr 256 (fun s inj => s.mtrCorr slice addr inj) }
  | .mtrClean addr =>
    let slice := mortarSlice addr
    { f with s := s.reported evMtrUncorr (srcOf 0x02 slice) addr 256 (fun s inj => s.mtrUncorr slice addr 1 1 0 inj) }
  | .mtrDirty addr i b =>
    let slice := mortarSlice addr
    let inj := s.injAt evMtrUncorr (srcOf 0x02 slice) addr 256
    let s := s.reported evMtrUncorr (srcOf 0x02 slice) addr 256 (fun s inj => s.mtrUncorr slice addr 2 2 (s.obj i).handle.toNat inj)
    if (s.obj i).st = .free then { f with s := s }
    else { f with s := if inj then s else s.markLine i b 16 }.poison i (s.blockAddr i b) inj
  | .mtrCombine addr =>
    let slice := mortarSlice addr
    { f with s := s.reported evMtrUncorr (srcOf 0x02 slice) addr 256 (fun s inj => s.mtrUncorr slice addr 3 3 0 inj), invalid := true }
  | .ftgCorr lane addr =>
    let r := rowAt addr
    { f with s := s.reported evFtgCorr r.src addr 256 (fun s inj => s.ftgCorr r lane addr inj) }
  | .ftgUncorr addr i b =>
    let r := rowAt addr
    let reads := rs.any (fun q => hIdx q.h == i.val && q.verifies b)
    let g := { f with s := s.reported evFtgUncorr r.src addr 256 (fun s inj => s.ftgUncorr r addr i b reads inj) }
    if s.injAt evFtgUncorr r.src addr 256 && reads then g.injMismatch src evFtgUncorr r.src addr i b (fun s => s.ftgUncorr r addr i b reads true) else g
  | .ucfCorr addr => { f with s := s.reported evUcfCorr (srcOf 0x04 (ucfChannel addr)) addr 256 (fun s inj => s.ucfCorr (ucfChannel addr) addr inj) }
  | .ucfUncorr addr i b =>
    let ch := ucfChannel addr
    let t := s.reported evUcfUncorr (srcOf 0x04 ch) addr 256 (fun s inj => s.ucfUncorr ch addr i b inj)
    let g := { f with s := t }
    let g := if s.injAt evUcfUncorr (srcOf 0x04 ch) addr 256 && rs.any (fun q => hIdx q.h == i.val && q.verifies b) then
        g.injMismatch src evUcfUncorr (srcOf 0x04 ch) addr i b (fun s => s.ucfUncorr ch addr i b true)
      else g
    { g with again := g.again ++ (g.s.ops.filter (fun o => s.nextOp ≤ o.id)).map Op.id }
  | .side addr stays =>
    let r := rowAt addr
    let l := (s.sideBlocks addr).filter (fun p => s.poisonable p.1)
    let mine := l.filter (fun p => rs.any (fun q => hIdx q.h == p.1 && q.verifies p.2))
    let inj := s.injAt evFtgUncorr r.src addr 256
    let s := (if inj then s.injReport else s).sideUncorr r addr l (stays && !inj) inj
    let s := mine.foldl (fun s p => s.csumMismatch src p.1 p.2 inj) s
    let twice := if inj then s.injAt evFtgUncorr r.src addr 256 else stays
    if twice then
      let s := if inj then s.injReport.sideUncorr r addr l false true else s
      let s := mine.foldl (fun s p => s.csumMismatch src p.1 p.2 inj) s
      l.foldl (fun f p => f.poison p.1 (f.s.blockAddr p.1 p.2) inj) { f with s := s }
    else { f with s := s }
  | .csum i b => { f with s := if (s.obj i).st = .free then s else s.csumMismatch src i b }
  | .csumTwice i b =>
    if (s.obj i).st = .free then f
    else { f with s := (s.csumMismatch src i b).csumMismatch src i b }.poison i (s.blockAddr i b) false
  | .flash _ => f

/-- Whether a source reads through mortar (R187): a core, or BAR 2. -/
def throughMortar (src : Nat) : Bool := src / 1024 == 0x01 || src / 1024 == 0x0C

/-- What the armed point of a memory decoder makes it report of a read of `rs` by source `src` (R440, R441): its condition at ARG, where ARG lies in a block that the read
verifies and the point names the decoder of that place. Whether the line of an uncorrectable mortar error is dirty, and the lane of a corrected footing error, are
free values. -/
def State.armedAt (s : State) (src : Nat) (rs : List ObjRef) : List Detect × State :=
  let a := s.ldg.injArg.toNat
  if !bitOf s.ldg.injCtl.toNat 40 then ([], s)
  else
    match s.ownerAt a with
    | none => ([], s)
    | some (i, off) =>
      let b := off / 4096
      let j : Fin 1048576 := Fin.ofNat 1048576 i
      let m := srcOf 0x02 (mortarSlice a)
      if !(rs.any (fun q => hIdx q.h == i && q.verifies b)) then ([], s)
      else if throughMortar src && s.injAt evMtrCorr m a 256 then ([.mtrCorr a], s)
      else if throughMortar src && s.injAt evMtrUncorr m a 256 then
        let (k, s) := s.fresh
        ([if Config.choose k % 2 = 0 then .mtrClean a else .mtrDirty a j b], s)
      else if s.injAt evFtgCorr (rowAt a).src a 256 && a < 2 ^ 40 then
        let (k, s) := s.fresh
        ([.ftgCorr (Fin.ofNat 36 (Config.choose k)) a], s)
      else if s.injAt evFtgUncorr (rowAt a).src a 256 && a < 2 ^ 40 then ([.ftgUncorr a j b], s)
      else if s.injAt evUcfCorr (srcOf 0x04 (ucfChannel a)) a 256 && 2 ^ 40 ≤ a then ([.ucfCorr a], s)
      else if s.injAt evUcfUncorr (srcOf 0x04 (ucfChannel a)) a 256 && 2 ^ 40 ≤ a then ([.ucfUncorr a j b], s)
      else ([], s)

/-- All detections of a read, those of an armed point among them, and then the verification of what it reads (R254). -/
def State.detect (s : State) (src k : Nat) (rs : List ObjRef) (ds : List Detect) : Found :=
  let f := ds.foldl (Found.detect src k rs) { s := s }
  let a := f.s.armedAt src rs
  let f := a.1.foldl (Found.detect src k rs) { f with s := a.2 }
  let v := f.s.verify src rs
  { f with s := v.2.1, again := f.again ++ v.2.2 }

end Sys2Proof.Machine
end

