-- ==== Sys2Proof/Machine/Settle.lean ====
section
/-! DEFINITION. Preservation classes (R332, R333), held host accesses (R375), and the evaluation of requests until none is left (R270, R271). -/

namespace Sys2Proof.Machine

/-! ## Preservation classes (R332 to R335) -/

/-- The registration of an object: PRES, UPD and UPDN. -/
def Obj.registration (o : Obj) : Nat × Nat × Nat := o.reg.getD (1, 0, 0)

/-- The resolved class of an object under a registration: 1 NONE, 2 MIRROR, 3 SNAPSHOT, 4 SNAPSHOT_DELTA. -/
def Obj.resolve (o : Obj) (r : Nat × Nat × Nat) : Nat :=
  if o.kind = .code then 3
  else if o.kind = .page && o.rcp then 1
  else if r.1 ≠ 0 then r.1
  else if r.2.1 = 0 && o.bytes ≤ 2 ^ 30 then 2
  else if r.2.1 = 2 then 4
  else 3

/-- The class in force. -/
def Obj.cls (o : Obj) : Nat := o.resolve o.registration

/-! ## Host accesses through BAR 2 (R375) -/

/-- Whether a capture holds host writes to an object: it is preserved, and orders 3 and 4 run (R337). -/
def State.captureHolds (s : State) (i : Nat) : Bool :=
  match s.prs.capture with
  | .saving _ _ _ => (s.obj i).cls != 1
  | _ => false

/-- Sets a bit of HIF_FAULT. -/
def State.hifFault (s : State) (b : Nat) : State := { s with hif := { s.hif with fault := setBit s.hif.fault b true } }

/-- Whether a host access reaches an object through a window: one that exists, is no IMAGE and is not HOSTED, inside its bytes. -/
def State.bar2Ok (s : State) (r : ObjRef) : Bool :=
  s.named r.h && (s.obj (hIdx r.h)).kind != .image && !(s.obj (hIdx r.h)).hosted && r.lo + r.n ≤ (s.obj (hIdx r.h)).bytes

/-- The source of BAR 2 accesses (R427): HIF. DEDUCED. -/
def bar2Src : Nat := 0x0C * 1024 + 0x3FF

/-- An access that its window does not let through (R375); one that names an IMAGE raises BOUNDS_FAULT as well (R268). -/
def State.bar2Refuse (s : State) (r : ObjRef) : State :=
  let s := s.hifFault 1
  if s.named r.h && (s.obj (hIdx r.h)).kind == .image then s.ev bar2Src evBoundsFault r.lo r.h else s

/-- Answers a read that was held. -/
def State.late (s : State) (id : Nat) (r : HostRsp) : State := { s with hif := { s.hif with late := s.hif.late ++ [(id, r)] } }

/-- Whether a request is an access of the host to object `i`. -/
def Op.hostOn (o : Op) (i : Nat) : Bool := o.src == .host && hIdx (o.words.getD 1 0) == i

/-- A held access of the host, in its turn: words 0 to 3 are its number, object, offset and length, and the bytes of a write follow. Accesses to one object
keep their order; a write to a code object is discarded (R139); a write to a preserved object waits for the end of a capture (R337). What the detectors find in its reads
came with the access. -/
def State.evalHost (s : State) (o : Op) : State × List Nat :=
  let n := o.words.getD 0 0
  let wr := o.kind == .hostWrite
  let r : ObjRef := { h := o.words.getD 1 0, lo := o.words.getD 2 0, n := o.words.getD 3 0, wr := wr }
  let i := hIdx r.h
  let gone := s.dropOp o.id
  if s.ops.any (fun q => q.hostOn i && q.id < o.id) then (s.holdObj o i, [])
  else if !s.bar2Ok r then (if wr then gone.bar2Refuse r else (gone.bar2Refuse r).late n .unsupported, s.heldOn i)
  else if wr && (s.obj i).kind == .code then (gone, s.heldOn i)
  else if wr && s.captureHolds i then (s.holdObj o i, [])
  else if !s.reaches .host r then if (s.obj i).st = .dropped then s.askRecompute o i (s.obj i).home else (s.holdObj o i, [])
  else
    let f := s.detect bar2Src 0 [r] o.found
    let s := f.s
    if wr then
      if !s.reaches .host r then (s.holdObj { o with found := [] } i, f.again)
      else (((s.dropOp o.id).objWrite i r.lo ((o.words.drop 4).map (BitVec.ofNat 8))).peerTraffic [r], f.again ++ s.heldOn i)
    else if !s.reaches .host r then (((s.dropOp o.id).hifFault 2).late n (.poisoned r.n), f.again ++ s.heldOn i)
    else (((s.dropOp o.id).late n (.data (s.objRead i r.lo r.n))).peerTraffic [r], f.again ++ s.heldOn i)

/-! ## Preservation events (R345, R353) -/

/-- The source of an event of the preservation engine (R427): 0 cairn, 1 buttress. -/
def prsSrc (n : Nat) : Nat := srcOf 0x0A n

/-- Sets a bit of PRS_FAULT. -/
def State.prsFault (s : State) (b : Nat) : State := { s with prs := { s.prs with fault := setBit s.prs.fault b true } }

/-- A flash page of an image cannot be read (R345): the image is unusable, until the next reset where the error was injected (R443). -/
def State.flashError (s : State) (seq : Nat) (inj : Bool) : State :=
  ({ s with prs := { s.prs with images := s.prs.images.map (fun (q : Image) => if q.seq = seq then { q with usable := false, flashInj := inj } else q) } }.prsFault 2).ev
    (prsSrc 0) evPrsFlashErr seq 0 [] inj

/-- The sequences that an image's entries name. -/
def Image.names (m : Image) : List Nat := (m.objs.filter (fun q => q.form == 2 || q.form == 3)).map Saved.src

/-- The sequences that images of a list reach, through the images of `l`. -/
def closure (l : List Image) : Nat → List Nat → List Nat
  | 0, k => k
  | n + 1, k =>
    let more := (l.filter (fun m => m.seq ∈ k)).flatMap Image.names
    closure l n (k ++ more.filter (fun x => !k.contains x))

/-- The images that reading image `seq` with its chains touches. -/
def State.chainOf (s : State) (seq : Nat) : List Nat := closure s.prs.images s.prs.images.length [seq]

/-- Reads the images `seqs` from flash, `seq` first, with the pages that `ds` finds unreadable and an error injected for `seq` (R345): whether an injection struck, the
images lost, and the state. -/
def State.readFlash (s : State) (seq : Nat) (seqs : List Nat) (ds : List Detect) : Bool × List Nat × State :=
  let (i, s) := s.injCheck evPrsFlashErr (prsSrc 0)
  let lost := seqs.eraseDups.filter (fun q => (i && q == seq) || ds.contains (.flash q))
  (i, lost, lost.foldl (fun s q => s.flashError q (i && q == seq)) s)

/-! ## Evaluation -/

/-- A posted receive whose message has arrived while its object was held (R270, R302): once the object is reached it is posted as before, and the message, which waits on
its link, is taken. -/
def State.evalRecv (s : State) (o : Op) : State × List Nat :=
  match (s.refs o).find? (fun r => !s.reaches o.src r) with
  | some r => if (s.obj (hIdx r.h)).st = .dropped then s.askRecompute o (hIdx r.h) (s.obj (hIdx r.h)).home else (s.holdObj o (hIdx r.h), [])
  | none => (s.setOp { o with st := .waiting }, [])

/-- Evaluates a request. -/
def State.eval (s : State) (o : Op) : State × List Nat :=
  let i := hIdx o.hodHandle
  match o.kind with
  | .hodPin => s.evalPin o i
  | .hodUnpin => s.evalUnpin o i
  | .hodPromote | .promote => s.evalPromote o i
  | .hodDemote | .demote => s.evalDemote o i
  | .hodDrop => s.evalDrop o i
  | .hodAppend => s.evalAppend o i
  | .hodTrim => s.evalTrim o i
  | .destroy => s.evalDestroy o i
  | .create => s.evalCreate o
  | .leave => s.evalLeave o
  | .recover => s.evalRecover o
  | .hostRead | .hostWrite => s.evalHost o
  | .arcRecv => s.evalRecv o
  | _ => s.evalAccess o

/-- Evaluates requests by number, and those that each releases, as far as `fuel` goes. -/
def State.settleN (s : State) : Nat → List Nat → State
  | 0, _ => s
  | _, [] => s
  | n + 1, id :: rest =>
    match s.findOp id with
    | some o =>
      let (s, w) := s.eval o
      s.settleN n (rest ++ w)
    | none => s.settleN n rest

/-- What a context's next fetch reads. -/
def State.fetchRange (s : State) (x : Nat) : ObjRef := { h := (s.ctx x).code.toNat, lo := (s.ctx x).pc.toNat, n := 16, wr := false }

/-- Whether a context's fetch is held: its code object is not resident (R140), or a retirement moves the page that it would fetch from (R139). -/
def State.fetchHeld (s : State) (x : Nat) : Bool := s.named (s.ctx x).code.toNat && !s.reaches (.ctx x) (s.fetchRange x)

/-- Lets contexts held at their fetch issue again. -/
def State.wakeFetch (s : State) : State :=
  s.ctxKeys.foldl (fun s x => if (s.ctx x).st = .waiting && (s.ctx x).wait = .fetch && !s.fetchHeld x then s.wake x 0 else s) s

/-! ## Settlement -/

/-- The fuel that a settlement gets. -/
def State.settleFuel (s : State) (l : List Nat) : Nat := (s.ops.length + l.length + 2) * (s.ops.length + 2)

/-- Evaluates requests until none is left, lets held fetches go on, and contexts wait on their operations that stay held. A held fetch is an issue to come: its
access arrives when the context issues again. -/
def State.settle (s : State) (l : List Nat) : State := (s.settleN (s.settleFuel l) l).wakeFetch.park

/-- Takes back the held operation of a context that mason stops: it has had no effect, and the context issues it again when it is resumed (R90). -/
def State.takeBack (s : State) (x : Nat) : State :=
  if s.opHeld x then
    let t := s.waitHeld x
    (t.ops.filter (fun o => o.src == .ctx x && s.holds o)).foldl (fun u o => (u.unpin o).dropOp o.id) t
  else s

/-- After a change of an object's state or accesses: the requests held on it, in arrival order (R270, R271), and the recomputes that have ended. -/
def State.settleObj (s : State) (i : Nat) : State := s.settle (s.heldOn i)

/-- What waited for the end of a supply warning (R409): recomputes start, and every held request is evaluated in arrival order. -/
def State.resettle (s : State) : State :=
  let held := (s.ops.filterMap (fun o => match o.st with
    | .heldObj _ a => some (a, o.id)
    | .heldCap _ _ a => some (a, o.id)
    | _ => none)).mergeSort (fun a b => a.1 ≤ b.1)
  s.startRecipes.settle (held.map Prod.snd)

/-- The recomputes whose context has ended or faulted. -/
def State.settleRecomputes (s : State) : State :=
  ((s.objs.filter (fun p => p.2.recompute.isSome)).map Prod.fst).foldl (fun s i =>
    let (s, w) := s.recomputeDone i
    s.settle w) s

end Sys2Proof.Machine
end

