-- ==== Sys2Proof/Machine/Issue.lean ====
section
/-! DEFINITION. The issue of a Photer instruction: the checks of R117 in their order, the predicate, the limits of R96, and the entry of a long
operation into its unit's queue. -/

namespace Sys2Proof

/-- The completion signal field (R120): CTR zero without SIG, a defined short form with it (R317). -/
def Ins.sigOk (i : Ins) (k : Nat) : Bool :=
  if i.at 88 88 = 0 then i.at 87 76 == 0 else (Machine.shortName k (i.at 87 76)).isSome

/-- The counter to signal. -/
def Ins.sig (i : Ins) : Option Nat := if i.at 88 88 = 1 then some (i.at 87 76) else none

/-- The detections of a fetch: the scratchpad, the combine region and flash are not on its path (R187). -/
def Ins.meets (i : Ins) : List Detect :=
  i.found.filter (fun d => match d with
    | .spad _ _ | .mtrCombine _ | .flash _ => false
    | _ => true)

end Sys2Proof

namespace Sys2Proof.Machine

/-- The text region of the code object of a context: its offset and length (R138). -/
def State.text (s : State) (x : Nat) : Nat × Nat :=
  let h := (s.ctx x).code.toNat
  if s.named h && (s.obj (hIdx h)).kind == .code then ((s.obj (hIdx h)).codeText).getD (0, 0) else (0, 0)

/-- Whether a code-object offset is that of an instruction of the context's text region. -/
def State.inText (s : State) (x : Nat) (pc : Nat) : Bool :=
  let t := s.text x
  decide (t.1 ≤ pc) && decide (pc + 16 ≤ t.1 + t.2) && pc % 16 == 0

/-- The blocks that the fetch of the context's instruction verifies (R253). -/
def State.fetchRef (s : State) (x : Nat) : List ObjRef :=
  if s.named (s.ctx x).code.toNat then [{ h := (s.ctx x).code.toNat, lo := (s.ctx x).pc.toNat, n := 16, wr := false }] else []

/-- The fetch of an instruction, with what the detectors find in its reads (R134, R189, R249, R254): whether the context is held on its code object, which a second
mismatch has poisoned, and the state after. Any other detection is recorded, and the fetch delivers the instruction. -/
def State.readIns (s : State) (x : Nat) (i : Ins) : Bool × State :=
  let f := s.detect (srcOf 0x01 x) (coreOf x) (s.fetchRef x) i.meets
  if f.s.fetchHeld x then (true, (f.s.wait x .fetch).settle f.again)
  else (false, if f.again = [] then f.s else f.s.settle f.again)

/-- The offset of the context's instruction ÷ 16. -/
def State.pcUnits (s : State) (x : Nat) : Nat := (s.ctx x).pc.toNat / 16

/-- A synchronous fault (R107); the recompute that ran on the context, if one did, ends with it (R225). -/
def State.faultIssue (s : State) (x code : Nat) (inj : Bool := false) : State := (s.faultCtx x code (s.pcUnits x) true inj).settleRecomputes

/-- An instruction is done: the program counter moves to the next one and R91 looks at replacement. -/
def State.advance (s : State) (x : Nat) : State :=
  (s.setCtx x { s.ctx x with pc := (s.ctx x).pc + 16 }).afterIssue x

/-- Whether the predicate of an instruction holds (R116). -/
def Ctx.executes (c : Ctx) (i : Ins) : Bool := c.pred (i.psel.toNat % 8) != i.psel.getLsbD 3

/-- Whether context `x` issues now: RUNNING, on a core that may issue. -/
def State.issues (s : State) (x : Nat) : Bool := (s.ctx x).st == .running && s.canIssue (coreOf x)

/-- Whether the word at the context's program counter has an undefined CLASS or OP (checks 1 and 2 of R117). -/
def State.undefinedWord (s : State) (x : Fin 512) : Bool :=
  (Photer.decode x .ok (BitVec.ofNat 128 (ofBytes (s.objRead (hIdx (s.ctx x).code.toNat) (s.ctx x).pc.toNat 16)))).isNone

/-- Checks 1 to 6 of R117 on an instruction that has been fetched: `word` is what checks 4 and 5 ask of it, `skip` its effect when its predicate is false and
`run` when it is true. -/
def State.judge (s : State) (x : Nat) (i : Ins) (word : Bool) (skip run : State → State) : State :=
  if s.injArmed evIllegalEncoding (srcOf 0x01 x) then s.injReport.faultIssue x evIllegalEncoding true
  else if s.undefinedWord (Fin.ofNat 512 x) || i.rsv != 0 || i.psel == 8 || !word then s.faultIssue x evIllegalEncoding
  else if (s.ctx x).executes i then run s
  else skip s

/-- The issue of an instruction: a context that is stopped, faulted or held issues nothing; else the fetch, and the checks. -/
def State.issue (s : State) (x : Nat) (i : Ins) (word : Bool) (skip run : State → State) : State :=
  if !s.issues x then s
  else
    match (s.ctx x).asyncFlt with
    | some (code, off) => (s.faultCtx x code off false).settleRecomputes
    | none =>
      if s.opHeld x then s.waitHeld x
      else if s.opWaits x then s
      else if s.fetchHeld x then s.wait x .fetch
      else if !s.inText x (s.ctx x).pc.toNat then s.faultIssue x evBoundsFault
      else
        let f := s.readIns x i
        if f.1 then f.2 else f.2.judge x i word skip run

/-- A short instruction whose true predicate has effect `f` on the module before the next issue. -/
def State.issueShort (s : State) (x : Nat) (i : Ins) (word : Bool) (f : State → State) : State :=
  s.issue x i word (fun s => s.advance x) (fun s => (f s).advance x)

/-- The queue entries of a unit that are taken (R96). -/
def State.queued (s : State) (k : Nat) (u : CoreUnit) : Nat :=
  (s.ops.filter (fun o => o.core == k && o.unit == u && o.st == .queued)).length

/-- Whether the limits of R96 let a long operation of context `x` enter the queue of unit `u`. -/
def State.hasRoom (s : State) (x : Nat) (u : CoreUnit) : Bool := decide (s.outstanding x < 16) && decide (s.queued (coreOf x) u < 32)

/-- A long operation that passed checks 1 to 7 meets the limits of R96, or enters its queue. -/
def State.enqueue (s : State) (x : Nat) (o : Op) : State :=
  if 16 ≤ s.outstanding x then s.wait x .outstanding
  else if 32 ≤ s.queued (coreOf x) o.unit then s.wait x (.queue o.unit)
  else
    let o := { o with id := s.nextOp, src := .ctx x, core := coreOf x, off := s.pcUnits x, st := .queued }
    { s with ops := s.ops ++ [o], nextOp := s.nextOp + 1 }.advance x

/-- A long operation whose predicate is false: with SIG 1 its counter is signalled at issue (R121). -/
def State.skipLong (s : State) (x : Nat) (i : Ins) : State := (s.signalShort (coreOf x) i.sig).advance x

/-- Check 7 of an operation with a range to check, then its issue: the first fault of R117's order, or its entry into the queue. -/
def State.checked (s : State) (x : Nat) (faults : List Nat) (go : State → State) : State :=
  if evIllegalEncoding ∈ faults then s.faultIssue x evIllegalEncoding
  else if evAccOvercommit ∈ faults then s.faultIssue x evAccOvercommit
  else if s.injArmed evBoundsFault (srcOf 0x01 x) then s.injReport.faultIssue x evBoundsFault true
  else if evBoundsFault ∈ faults then s.faultIssue x evBoundsFault
  else go s

/-- The issue of a long operation: `op` gives, from the state at issue, the faults of check 7 and the operation with all it reads (R94). -/
def State.issueLong (s : State) (x : Nat) (i : Ins) (word : Bool) (op : State → List Nat × Op) : State :=
  s.issue x i (word && i.sigOk (coreOf x)) (fun s => s.skipLong x i)
    (fun s => s.checked x (op s).1 (fun s => s.enqueue x { (op s).2 with sig := i.sig, ins := i }))

/-- The value of the register that a field names. -/
def State.reg (s : State) (x n : Nat) : W64 := (s.ctx x).sreg n

/-- The descriptor at a scratchpad index. -/
def State.tdAt (s : State) (x n : Nat) : Td := tdOfBytes (s.spadRead (coreOf x) (64 * n) 64)

/-- `c` as a list of faults when `b` does not hold. -/
def need (b : Bool) (c : Nat) : List Nat := if b then [] else [c]

end Sys2Proof.Machine
end

