-- ==== Sys2Proof/Machine/Sca.lean ====
section
/-! DEFINITION. SCA: scalar and address arithmetic (R125 to R130). Operand forms are read once, by `scaB`, and the word checks once, by `scaWord`. -/

namespace Sys2Proof.Machine

/-- How an SCA operation uses IMM (R125): second operand b, IMM required, or IMM not used. -/
inductive ImmUse where
  | b
  | required
  | unused
  deriving DecidableEq, Repr

/-- Checks 4 and 5 of an SCA operation: which of SD, SA, SB and PD it uses, and how it uses IMM. -/
def scaWord (i : Ins) (sd sa sb pd : Bool) (m : ImmUse) : Bool :=
  i.flagsBelow 1 && i.zero 81 65 && i.zero 64 64 && (sd || i.zero 99 95) && (sa || i.zero 94 90) && (pd || i.zero 84 82)
    && match m with
       | .b => if i.flag 0 then i.zero 89 85 else i.zero 63 0
       | .required => i.flag 0 && (sb || i.zero 89 85)
       | .unused => !i.flag 0 && i.zero 63 0 && (sb || i.zero 89 85)

/-- The immediate of an SCA operation. -/
def scaImm (i : Ins) : W64 := BitVec.ofNat 64 (i.at 63 0)

/-- The second operand b (R125). -/
def scaB (s : State) (x : Nat) (i : Ins) : W64 := if i.flag 0 then scaImm i else s.reg x (i.at 89 85)

/-- Writes SD. -/
def State.putSd (s : State) (x : Nat) (i : Ins) (v : W64) : State := s.setCtx x ((s.ctx x).setSreg (i.at 99 95) v)

/-- Writes PD. -/
def State.putPd (s : State) (x : Nat) (i : Ins) (v : Bool) : State := s.setCtx x ((s.ctx x).setPred (i.at 84 82) v)

/-- SD = f(SA, b). -/
def scaBin (f : W64 → W64 → W64) (x : Fin 512) (i : Ins) (s : State) : Host.Outcome State Fault Refusal :=
  .next (s.issueShort x i (scaWord i true true true false .b) (fun s => s.putSd x i (f (s.reg x (i.at 94 90)) (scaB s x i))))

/-- PD = f(SA, b). -/
def scaCmp (f : W64 → W64 → Bool) (x : Fin 512) (i : Ins) (s : State) : Host.Outcome State Fault Refusal :=
  .next (s.issueShort x i (scaWord i false true true true .b) (fun s => s.putPd x i (f (s.reg x (i.at 94 90)) (scaB s x i))))

/-- The word checks of a predicate operation; pb is not used by PNOT. -/
def predWord (i : Ins) (pb : Bool) : Bool :=
  scaWord i false true true true .unused && i.zero 94 93 && i.zero 89 88 && (pb || i.zero 87 85)

/-- PD = f(pa, pb). -/
def scaPred (pb : Bool) (f : Bool → Bool → Bool) (x : Fin 512) (i : Ins) (s : State) : Host.Outcome State Fault Refusal :=
  .next (s.issueShort x i (predWord i pb)
    (fun s => s.putPd x i (f ((s.ctx x).pred (i.at 92 90)) ((s.ctx x).pred (i.at 87 85)))))

/-- An FP32 result in bits [31:0] with bits [63:32] cleared (R126). -/
def fpRes (v : W32) : W64 := v.setWidth 64

/-- Bits [31:0] of a register. -/
def low32 (v : W64) : W32 := v.setWidth 32

def execScaAdd (x : Fin 512) (i : Ins) (s : State) : Host.Outcome State Fault Refusal := scaBin (· + ·) x i s
def execScaSub (x : Fin 512) (i : Ins) (s : State) : Host.Outcome State Fault Refusal := scaBin (· - ·) x i s
def execScaMul (x : Fin 512) (i : Ins) (s : State) : Host.Outcome State Fault Refusal := scaBin (· * ·) x i s
def execScaMaddi (x : Fin 512) (i : Ins) (s : State) : Host.Outcome State Fault Refusal :=
  .next (s.issueShort x i (scaWord i true true true false .required)
    (fun s => s.putSd x i (s.reg x (i.at 94 90) + s.reg x (i.at 89 85) * scaImm i)))
def execScaAnd (x : Fin 512) (i : Ins) (s : State) : Host.Outcome State Fault Refusal := scaBin (· &&& ·) x i s
def execScaOr (x : Fin 512) (i : Ins) (s : State) : Host.Outcome State Fault Refusal := scaBin (· ||| ·) x i s
def execScaXor (x : Fin 512) (i : Ins) (s : State) : Host.Outcome State Fault Refusal := scaBin (· ^^^ ·) x i s
def execScaShl (x : Fin 512) (i : Ins) (s : State) : Host.Outcome State Fault Refusal := scaBin (fun a b => a <<< (b.toNat % 64)) x i s
def execScaShr (x : Fin 512) (i : Ins) (s : State) : Host.Outcome State Fault Refusal := scaBin (fun a b => a >>> (b.toNat % 64)) x i s
def execScaSar (x : Fin 512) (i : Ins) (s : State) : Host.Outcome State Fault Refusal := scaBin (fun a b => a.sshiftRight (b.toNat % 64)) x i s
def execScaMin (x : Fin 512) (i : Ins) (s : State) : Host.Outcome State Fault Refusal := scaBin (fun a b => if b.slt a then b else a) x i s
def execScaMax (x : Fin 512) (i : Ins) (s : State) : Host.Outcome State Fault Refusal := scaBin (fun a b => if a.slt b then b else a) x i s
def execScaMinu (x : Fin 512) (i : Ins) (s : State) : Host.Outcome State Fault Refusal := scaBin (fun a b => if b.ult a then b else a) x i s
def execScaMaxu (x : Fin 512) (i : Ins) (s : State) : Host.Outcome State Fault Refusal := scaBin (fun a b => if a.ult b then b else a) x i s
def execScaCmpeq (x : Fin 512) (i : Ins) (s : State) : Host.Outcome State Fault Refusal := scaCmp (fun a b => a == b) x i s
def execScaCmpne (x : Fin 512) (i : Ins) (s : State) : Host.Outcome State Fault Refusal := scaCmp (fun a b => a != b) x i s
def execScaCmplt (x : Fin 512) (i : Ins) (s : State) : Host.Outcome State Fault Refusal := scaCmp (fun a b => a.slt b) x i s
def execScaCmple (x : Fin 512) (i : Ins) (s : State) : Host.Outcome State Fault Refusal := scaCmp (fun a b => a.sle b) x i s
def execScaCmpltu (x : Fin 512) (i : Ins) (s : State) : Host.Outcome State Fault Refusal := scaCmp (fun a b => a.ult b) x i s
def execScaCmpleu (x : Fin 512) (i : Ins) (s : State) : Host.Outcome State Fault Refusal := scaCmp (fun a b => a.ule b) x i s
def execScaPand (x : Fin 512) (i : Ins) (s : State) : Host.Outcome State Fault Refusal := scaPred true (fun a b => a && b) x i s
def execScaPor (x : Fin 512) (i : Ins) (s : State) : Host.Outcome State Fault Refusal := scaPred true (fun a b => a || b) x i s
def execScaPxor (x : Fin 512) (i : Ins) (s : State) : Host.Outcome State Fault Refusal := scaPred true (fun a b => a != b) x i s
def execScaPnot (x : Fin 512) (i : Ins) (s : State) : Host.Outcome State Fault Refusal := scaPred false (fun a _ => !a) x i s
def execScaLi (x : Fin 512) (i : Ins) (s : State) : Host.Outcome State Fault Refusal :=
  .next (s.issueShort x i (scaWord i true false false false .required) (fun s => s.putSd x i (scaImm i)))

/-- What SCA.ID writes (R126): logical core, context number within it, node identifier. -/
def idValue (s : State) (x : Nat) : W64 := BitVec.ofNat 64 (x / 8 + x % 8 * 2 ^ 6 + s.arc.node.toNat * 2 ^ 9)

def execScaId (x : Fin 512) (i : Ins) (s : State) : Host.Outcome State Fault Refusal :=
  .next (s.issueShort x i (scaWord i true false false false .unused) (fun s => s.putSd x i (idValue s x)))

/-- The address of SCA.LD and SCA.ST, and whether R127 lets it be. -/
def scaAddr (s : State) (x : Nat) (i : Ins) : Nat := (s.reg x (i.at 94 90) + scaImm i).toNat
def scaAddrOk (a : Nat) : Bool := a % 8 == 0 && a + 8 ≤ spadEnd

/-- SCA.LD (R126, R127); after an uncorrectable error SD holds a free value (R100). -/
def State.loadSd (s : State) (x : Nat) (i : Ins) (e : Ecc) : State :=
  let a := scaAddr s x i
  let r := s.spadCheck (coreOf x) a e
  match r.1 with
  | .uncorrectable =>
    let b := r.2.freeBytes 8
    b.2.putSd x i (BitVec.ofNat 64 (ofBytes b.1))
  | _ => r.2.putSd x i (BitVec.ofNat 64 (ofBytes (s.spadRead (coreOf x) a 8)))

def execScaLd (x : Fin 512) (i : Ins) (e : Ecc) (s : State) : Host.Outcome State Fault Refusal :=
  .next (s.issue x i (scaWord i true true false false .required) (fun s => s.advance x)
    (fun s => s.checked x (need (scaAddrOk (scaAddr s x i)) evBoundsFault) (fun s => (s.loadSd x i e).advance x)))

def execScaSt (x : Fin 512) (i : Ins) (s : State) : Host.Outcome State Fault Refusal :=
  .next (s.issue x i (scaWord i false true true false .required) (fun s => s.advance x)
    (fun s => s.checked x (need (scaAddrOk (scaAddr s x i)) evBoundsFault)
      (fun s => (s.spadWrite (coreOf x) (scaAddr s x i) (toBytes 8 (s.reg x (i.at 89 85)).toNat)).advance x)))

def execScaFadd32 (x : Fin 512) (i : Ins) (s : State) : Host.Outcome State Fault Refusal :=
  scaBin (fun a b => fpRes (fadd32 .rne (low32 a) (low32 b))) x i s
def execScaFmul32 (x : Fin 512) (i : Ins) (s : State) : Host.Outcome State Fault Refusal :=
  scaBin (fun a b => fpRes (fmul32 .rne (low32 a) (low32 b))) x i s
def execScaFfma32 (x : Fin 512) (i : Ins) (s : State) : Host.Outcome State Fault Refusal :=
  .next (s.issueShort x i (scaWord i true true true false .b)
    (fun s => s.putSd x i (fpRes (ffma32 .rne (low32 (s.reg x (i.at 94 90))) (low32 (scaB s x i)) (low32 (s.reg x (i.at 99 95)))))))

/-- SD = f(SA), without an immediate. -/
def scaUn (f : W64 → W64) (x : Fin 512) (i : Ins) (s : State) : Host.Outcome State Fault Refusal :=
  .next (s.issueShort x i (scaWord i true true false false .unused) (fun s => s.putSd x i (f (s.reg x (i.at 94 90)))))

def execScaI2f32 (x : Fin 512) (i : Ins) (s : State) : Host.Outcome State Fault Refusal := scaUn (fun a => fpRes (i2f32 a)) x i s
def execScaF2i32 (x : Fin 512) (i : Ins) (s : State) : Host.Outcome State Fault Refusal := scaUn (fun a => f2i32 (low32 a)) x i s

/-- SCA.SETIMM (R130). -/
def execScaSetimm (x : Fin 512) (i : Ins) (s : State) : Host.Outcome State Fault Refusal :=
  .next (s.issueShort x i (scaWord i false true false false .unused)
    (fun s => s.setCtx x { s.ctx x with latch := low32 (s.reg x (i.at 94 90)), latchValid := true }))

end Sys2Proof.Machine
end

