-- ==== Sys2Proof/Machine/Footing.lean ====
section
/-! DEFINITION. The commands of footing: soft repair, retirement, scrub, refresh and temperature (R250, R251, R257, R258). -/

namespace Sys2Proof.Machine

/-- The detections at lines of a row. -/
def onRow (r : RowId) (ds : List Detect) : List Detect :=
  ds.filter (fun d => match d with
    | .ftgCorr _ a => rowAt a == r
    | .ftgUncorr a _ _ => rowAt a == r
    | .side a _ => rowAt a == r
    | _ => false)

/-- Whether a soft repair of the row is in force (R262): on record and not made hard, or injected in this start. -/
def State.softInForce (s : State) (r : RowId) : Bool :=
  r ∈ (s.stack r.stack.val).softInj || s.ftg.repairs.any (fun q => q.typ == 2 && q.row == some r && q.spare < 4 && !(s.ftg.repairs.any (fun h => h.typ == 3 && h.row == some r && h.spare == q.spare)))

/-- The repair of a row whose data has been read: the lowest-numbered unused spare row of its bank replaces it (R257); in place, its region becomes RETIRING and its
pages must leave, unless it is so already (R258). DESIGN CHOICE (115): the event and the record of a row written back in place give spare row 0xFF. DESIGN CHOICE (138):
the repaired row's count of corrected errors starts afresh, and FTG_FAULT NOSPARE is set by the repair that takes a bank's last spare row, not when records are loaded. -/
def State.repairRow (s : State) (p : PendingRow) : State :=
  let r := p.row
  let k := s.stack r.stack.val
  let k := { k with pendingRows := k.pendingRows.filter (fun q => q.row != r), rowErr := k.rowErr.filter (fun q => q.1 != r) }
  let seq := s.ldg.next
  if p.inPlace then
    let s := (s.setStack r.stack.val k).ev r.src evRowRepaired r.region 0 (r.bytes ++ toBytes 1 0xFF) p.inj
    let s := if p.inj then s else s.record { typ := 2, row := some r, spare := 0xFF, seq := seq }
    if s.regionOut r.region then s
    else { s with ftg := { s.ftg with retiring := s.ftg.retiring ++ [(r.region, r, p.inj)] } }.empty r.region
  else
    let n := Tab.get 0 k.spares r.bankKey
    let k := { k with
      spares := Tab.set 0 k.spares r.bankKey (n + 1)
      soft := if s.softInForce r then k.soft else k.soft + 1
      fault := setBit (setBit k.fault 2 true) 4 (k.fault.getLsbD 4 || n == 3)
      softInj := if p.inj then r :: k.softInj else k.softInj }
    let s := (s.setStack r.stack.val k).ev r.src evRowRepaired r.region 0 (r.bytes ++ toBytes 1 n) p.inj
    if p.inj then s else s.record { typ := 2, row := some r, spare := n, seq := seq }

/-- SOFT_REPAIR (R257, R258): the row is read through the check code, with what that detects, and repaired. -/
def State.softRepair (s : State) (r : RowId) (ds : List Detect) : State :=
  match (s.stack r.stack.val).pendingRows.find? (fun p => p.row == r) with
  | none => s
  | some p =>
    let f := (onRow r ds).foldl (Found.detect r.src 0 []) { s := s }
    let t := f.s.repairRow p
    t.settle (f.again ++ (t.ops.filter (fun o => s.nextOp ≤ o.id)).map Op.id)

def execSoftRepair (row : Met RowId) (s : State) : Host.Outcome State Fault Refusal := .next (s.softRepair row.of row.found)

/-- Whether the hod has moved every page out of a region. -/
def State.emptied (s : State) (g : Nat) : Bool := !(s.ops.any (fun o => o.kind == .leave && o.words.getD 2 0 == g))

/-- REGION_EMPTY (R258). -/
def State.regionEmpty (s : State) (g : Nat) : State :=
  match s.ftg.retiring.find? (fun r => r.1 == g) with
  | none => s
  | some (_, r, inj) =>
    if !s.emptied g then s
    else
      let seq := s.ldg.next
      let k := s.stack r.stack.val
      let s := s.setStack r.stack.val { k with fault := setBit k.fault 3 true }
      let s := { s with
        hod := { s.hod with allocFast := s.hod.allocFast - 32 }
        ftg := { s.ftg with
          retiring := s.ftg.retiring.filter (fun q => q.1 != g)
          retired := s.ftg.retired ++ [g] } }
      let s := if inj then s else s.record { typ := 4, region := g, seq := seq }
      s.ev r.src evRowRetired g 0 r.bytes inj

def execRegionEmpty (region : Nat) (s : State) : Host.Outcome State Fault Refusal := .next (s.regionEmpty region)

/-- The last row that a scrub pass reads: the greatest bank and row of the stack's last pseudo-channel. -/
def lastOfStack (r : RowId) : Bool := r.pch.val == 63 && r.bank.val == 63 && r.row.val == 24575

/-- SCRUB of a row (R250): errors count and mark as in any read; rows of retired regions are not scrubbed. DESIGN CHOICE (117): a pass is in progress from the
scrub of a row until the scrub of the stack's last row, by pseudo-channel, bank and row; the spec gives no order of the rows. -/
def execScrub (row : RowId) (ds : List Detect) (s : State) : Host.Outcome State Fault Refusal :=
  .next (if row.region ∈ s.ftg.retired || (s.stack row.stack.val).train ≠ 1 then s
    else
      let k := s.stack row.stack.val
      let s := s.setStack row.stack.val { k with scrub := !lastOfStack row }
      let f := (onRow row ds).foldl (Found.detect row.src 0 []) { s := s }
      f.s.settle f.again)

/-- REFRESH (R251): changes only timing; the model counts it. -/
def execRefresh (stack : Fin 8) (s : State) : Host.Outcome State Fault Refusal :=
  .next (if (s.stack stack.val).train = 1 then { s with ftg := { s.ftg with refreshes := s.ftg.refreshes + 1 } } else s)

/-- The refresh multiplier code after a reading, from the code before it (R251): up at the band's lower edge, down 2 °C below it. -/
def refreshCode (old t : Nat) : Nat :=
  let up := if 95 < t then 2 else if 85 < t then 1 else 0
  let down := if 93 < t then 2 else if 83 < t then 1 else 0
  if old ≤ up then up else min old down

/-- Whether a thermal throttle or a memory cap acts (R420). -/
def Pln.throttling (p : Pln) : Bool := p.memcap != 0 || p.duty.any (fun d => d < 8) || p.pduty.any (fun d => d < 8)

/-- Every trained stack refreshes at four times the base rate once a throttle or a memory cap acts (R251, R420). -/
def State.throttled (s : State) : State :=
  if s.pln.throttling then
    (List.range 8).foldl (fun s i => if (s.stack i).train = 1 then s.setStack i { s.stack i with rmult := 2 } else s) s
  else s

/-- FOOTING_TEMP_READING (R251). While throttling acts, footing refreshes at four times the base rate. -/
def execFootingTempReading (temps : Vector (BitVec 8) 8) (s : State) : Host.Outcome State Fault Refusal :=
  .next ((List.range 8).foldl (fun s i =>
    let k := s.stack i
    let t := temps.toList.getD i 0
    if k.train = 1 then
      s.setStack i { k with
        temp := t, tmax := if k.tmax.toNat < t.toNat then t else k.tmax
        rmult := if s.pln.throttling then 2 else refreshCode k.rmult t.toNat }
    else s) s)

end Sys2Proof.Machine
end

