-- ==== Sys2Proof/Machine/Ctl.lean ====
section
/-! DEFINITION. CTL: control flow (R122 to R124). -/

namespace Sys2Proof.Machine

/-- The displacement of a branch, in bytes, as a 64-bit addend. -/
def dispBytes (i : Ins) : W64 := BitVec.ofInt 64 (16 * signed 32 (i.at 31 0))

/-- Takes a branch to a target, or faults where it lies outside the text region; a fault changes nothing else (R124). `c` is the context as the
taken branch leaves its registers. -/
def State.branchTo (s : State) (x : Nat) (c : Ctx) (target : W64) : State :=
  s.checked x (need (s.inText x target.toNat) evBoundsFault) (fun s => (s.setCtx x { c with pc := target }).afterIssue x)

/-- The context is done with its issue slot: it issued last on its core. -/
def State.issuedLast (s : State) (x : Nat) : State := s.setCore (coreOf x) { s.core (coreOf x) with last := some x }

def ctlNopWord (i : Ins) : Bool := i.flagsBelow 0 && i.zero 99 0
def execCtlNop (x : Fin 512) (i : Ins) (s : State) : Host.Outcome State Fault Refusal :=
  .next (s.issueShort x i (ctlNopWord i) id)

def ctlBrWord (i : Ins) : Bool := i.flagsBelow 0 && i.zero 99 32
def execCtlBr (x : Fin 512) (i : Ins) (s : State) : Host.Outcome State Fault Refusal :=
  .next (s.issue x i (ctlBrWord i) (fun s => s.advance x)
    (fun s => s.branchTo x (s.ctx x) ((s.ctx x).pc + dispBytes i)))

def ctlBrxWord (i : Ins) : Bool := i.flagsBelow 0 && i.zero 99 95 && i.zero 89 0
def execCtlBrx (x : Fin 512) (i : Ins) (s : State) : Host.Outcome State Fault Refusal :=
  .next (s.issue x i (ctlBrxWord i) (fun s => s.advance x) (fun s => s.branchTo x (s.ctx x) (s.reg x (i.at 94 90))))

def ctlCallWord (i : Ins) : Bool := i.flagsBelow 0 && i.zero 94 32
def execCtlCall (x : Fin 512) (i : Ins) (s : State) : Host.Outcome State Fault Refusal :=
  .next (s.issue x i (ctlCallWord i) (fun s => s.advance x)
    (fun s => s.branchTo x ((s.ctx x).setSreg (i.at 99 95) ((s.ctx x).pc + 16)) ((s.ctx x).pc + dispBytes i)))

def ctlLoopWord (i : Ins) : Bool := i.flagsBelow 0 && i.zero 99 95 && i.zero 89 32 && i.at 94 90 != 0
def execCtlLoop (x : Fin 512) (i : Ins) (s : State) : Host.Outcome State Fault Refusal :=
  .next (s.issue x i (ctlLoopWord i) (fun s => s.advance x)
    (fun s =>
      let c := (s.ctx x).setSreg (i.at 94 90) (s.reg x (i.at 94 90) - 1)
      if s.reg x (i.at 94 90) - 1 = 0 then (s.setCtx x c).advance x
      else s.branchTo x c ((s.ctx x).pc + dispBytes i)))

/-- CTL.YIELD (R123): READY, and selection runs again starting after this context. -/
def execCtlYield (x : Fin 512) (i : Ins) (s : State) : Host.Outcome State Fault Refusal :=
  .next (s.issue x i (ctlNopWord i) (fun s => s.advance x)
    (fun s => (s.setCore (coreOf x) { s.core (coreOf x) with last := some x.val, turn := x.val % 8 }).leave x { s.ctx x with st := .ready, pc := (s.ctx x).pc + 16 }))

/-- CTL.DRAIN (R123). -/
def execCtlDrain (x : Fin 512) (i : Ins) (s : State) : Host.Outcome State Fault Refusal :=
  .next (s.issue x i (ctlNopWord i) (fun s => s.advance x)
    (fun s => if s.outstanding x = 0 then s.advance x else (s.issuedLast x).wait x .drain))

/-- CTL.END (R90, R123): the latch becomes invalid when it first issues. -/
def State.endOrHold (s : State) (x : Nat) : State :=
  let t := (s.setCtx x { s.ctx x with latchValid := false }).issuedLast x
  if t.outstanding x = 0 then (t.endCtx x).settleRecomputes else t.wait x .ended

def execCtlEnd (x : Fin 512) (i : Ins) (s : State) : Host.Outcome State Fault Refusal :=
  .next (s.issue x i (ctlNopWord i) (fun s => s.advance x) (fun s => s.endOrHold x))

end Sys2Proof.Machine
end

