-- ==== Sys2Proof/Machine/Num.lean ====
section
/-! DEFINITION. NUM and the step boundary (R74 to R84, R329, R332, R337, R349, R350). -/

namespace Sys2Proof.Machine

/-! ## NUM.RD (R83, R84) -/

/-- A signed byte, extended to 64 bits. -/
def sext8 (v : BitVec 8) : W64 := v.signExtend 64

/-- The field that `fsel` names (R83). -/
def Nsb.field (n : Nsb) (fsel : Nat) : W64 :=
  match fsel with
  | 0 => n.step
  | 1 => n.key
  | 2 => n.cursor
  | 3 => n.stride.setWidth 64
  | 4 => n.clean.setWidth 64
  | 5 => n.interval.setWidth 64
  | 6 => sext8 n.lstep
  | 7 => sext8 n.lnext
  | 8 => if n.taint then 1 else 0
  | 9 => BitVec.ofNat 64 (n.outcome + if n.applied then 4 else 0)
  | _ => n.version.setWidth 64

/-- The word checks of NUM.RD. -/
def numRdWord (i : Ins) : Bool := i.flagsBelow 0 && i.at 94 89 ≤ 10 && i.zero 88 0

def execNumRd (x : Fin 512) (i : Ins) (s : State) : Host.Outcome State Fault Refusal :=
  .next (s.issueShort x i (numRdWord i) (fun s => s.setCtx x ((s.ctx x).setSreg (i.at 99 95) (s.nsb.field (i.at 94 89)))))

/-- The word checks of the other NUM operations. -/
def numWord (i : Ins) : Bool := i.flagsBelow 0 && i.zero 99 89 && i.zero 75 0

/-- A NUM operation as it is issued. -/
def numOp (kind : LKind) (k x : Nat) : Op := { id := 0, src := .ctx x, kind := kind, unit := .outbound, ins := {}, core := k, off := 0 }

/-- NUM.STEPUPD past checks 1 to 7: while the step has no outcome it is held before it issues, as an optimiser update is (R77, R181). -/
def State.issueStepupd (s : State) (x : Nat) (i : Ins) : State :=
  if s.nsb.outcome = 0 then s.wait x .outcome else s.enqueue x { numOp .numStepupd (coreOf x) x with sig := i.sig, ins := i }

def execNumStepupd (x : Fin 512) (i : Ins) (s : State) : Host.Outcome State Fault Refusal :=
  .next (s.issue x i (numWord i && i.sigOk (coreOf x)) (fun s => s.skipLong x i) (fun s => s.issueStepupd x i))

/-! ## Captures at a boundary (R337) -/

/-- Whether buttress captures at boundary `b` (R336). -/
def State.mirrorDue (s : State) (b : Nat) : Bool := s.prs.bvalid && s.prs.mint != 0 && b % s.prs.mint == 0

/-- Whether cairn captures at boundary `b`. -/
def State.snapDue (s : State) (b : Nat) : Bool := s.prs.sint != 0 && b % s.prs.sint == 0

/-- The boundary that the next NUM.STEPBEGIN makes. -/
def State.boundary (s : State) : Nat := (s.nsb.step + 1).toNat

/-- Whether the boundary ahead still waits for its capture. -/
def State.captureDue (s : State) : Bool :=
  s.msn.job && (s.mirrorDue s.boundary || s.snapDue s.boundary) && s.prs.captured != some s.boundary

/-- Whether the boundary ahead waits for the replay check (R350): the step in force is the one replayed. -/
def State.replayDue (s : State) : Bool :=
  match s.prs.replay with
  | some r => r.step == s.nsb.step
  | none => false

/-- Records PRS_QUIESCE_TIMEOUT (R338): the capture of this boundary is given up for good and NUM.STEPBEGIN stays held. -/
def State.quiesceTimeout (s : State) (inj : Bool) : State :=
  ({ s with prs := { s.prs with capture := .none, gaveUp := some s.boundary, fault := setBit s.prs.fault 3 true }, kst := { s.kst with quiesce := false } }).ev
    (srcOf 0x0A (if s.snapDue s.boundary then 0 else 1)) evPrsQuiesceTimeout s.boundary 0 [] inj

/-- The start of a capture at boundary `b`, order 1 of R337. -/
def State.startCapture (s : State) (b : Nat) : State :=
  if s.prs.capture ≠ .none || s.prs.gaveUp = some b then s
  else
    let src := srcOf 0x0A (if s.snapDue b then 0 else 1)
    if s.injArmed evPrsQuiesceTimeout src then s.injReport.quiesceTimeout true
    else { s with prs := { s.prs with capture := .quiesce b }, kst := { s.kst with quiesce := true } }

/-- Whether NUM.STEPBEGIN is held before it issues: at a boundary with an outcome, until the step's update is applied, for a capture or for the
replay check (R77, R337, R350). -/
def State.stepHeld (s : State) : Bool := s.nsb.outcome != 0 && (!s.nsb.applied || s.captureDue || s.replayDue)

/-- KST_SYS_DRIFT of counter `k` with value `v`. DEDUCED (18): mason then holds ARC.OVOR of the step that begins, since that of the step that ends is over. -/
def State.drifted (s : State) (k v : Nat) (inj : Bool) : State :=
  ({ s with kst := { s.kst with fault := setBit s.kst.fault 2 true }, arc := { s.arc with holdNext := true } }).ev (srcOf 0x09 2) evKstSysDrift k v [] inj

/-- The comparison of system counters 0 to 31 with 0 (R329). The payload is the first that differs and its value. -/
def State.sysDrift (s : State) : State :=
  let (i, s) := s.injCheck evKstSysDrift (srcOf 0x09 2)
  match (List.range 32).find? (fun k => s.counter (.sys (Fin.ofNat 64 k)) != 0) with
  | some k => s.drifted k (s.counter (.sys (Fin.ofNat 64 k))).toNat i
  | none => if i then s.drifted 0 0 true else s

/-- NUM.STEPBEGIN past checks 1 to 7. A capture starts once the update is applied, so that it saves an applied outcome (R86); when the NUM.STEPBEGIN of
a step boundary issues, mason compares the system counters (R329), which words 0 notes. -/
def State.issueStepbegin (s : State) (x : Nat) (i : Ins) : State :=
  if s.stepHeld then
    if !s.nsb.applied then s.wait x .applied
    else (if s.captureDue then s.startCapture s.boundary else s).wait x .stepBegin
  else
    let now := s.nsb.outcome != 0 && s.hasRoom x .outbound
    (if now then s.sysDrift else s).enqueue x { numOp .numStepbegin (coreOf x) x with sig := i.sig, ins := i, words := if now then [1] else [] }

def execNumStepbegin (x : Fin 512) (i : Ins) (s : State) : Host.Outcome State Fault Refusal :=
  .next (s.issue x i (numWord i && i.sigOk (coreOf x)) (fun s => s.skipLong x i) (fun s => s.issueStepbegin x i))

/-- Lets every context held at NUM.STEPBEGIN issue it again. -/
def State.wakeStep (s : State) : State :=
  s.ctxKeys.foldl (fun s x => if (s.ctx x).st = .waiting && ((s.ctx x).wait = .stepBegin || (s.ctx x).wait = .applied) then s.wake x 0 else s) s

/-! ## NUM.STEPUPD (R78, R349, R350) -/

/-- R78. -/
def Nsb.stepupd (n : Nsb) : Nsb :=
  let n :=
    if n.outcome = 2 then
      { n with lnext := BitVec.ofInt 8 (max (n.lstep.toInt - 1) (-64)), clean := 0 }
    else if n.clean + 1 = n.interval then
      { n with lnext := BitVec.ofInt 8 (min (n.lstep.toInt + 1) 63), clean := 0 }
    else { n with lnext := n.lstep, clean := n.clean + 1 }
  { n with cursor := n.cursor + n.stride.setWidth 64, applied := true }

/-- Every record that the ledger holds. -/
def Ldg.all (l : Ldg) : List Rec :=
  l.staged.map Staged.rcd ++ (l.cornerstone ++ l.ring ++ l.tail).flatMap FlashUnit.recs

/-- The record of greatest sequence number that meets `p`. -/
def Ldg.newest (l : Ldg) (p : Rec → Bool) : Option Rec :=
  l.all.foldl (fun b r => if p r then (match b with
    | none => some r
    | some q => if q.seq < r.seq then some r else some q) else b) none

/-- The loss word of the module, when LOSS is valid. -/
def State.lossWord (s : State) : Option Nat :=
  match s.prs.loss with
  | some (h, off) => some (ofBytes (s.objRead (hIdx h) off 4))
  | none => none

/-- This module's verdict of the replay check on a loss (R350). -/
def State.verdict (s : State) (loss : Nat) : Verdict :=
  match s.ldg.newest (fun r => r.code == BitVec.ofNat 16 evPrsLoss && r.step == s.nsb.step) with
  | none => .noReference
  | some r => if leAt r.pay 0 4 = loss && leAt r.pay 4 1 = s.nsb.outcome then .matches else .differs

/-- The loss record and the replay comparison of a NUM.STEPUPD that applies. -/
def State.lossRecord (s : State) : State :=
  match s.lossWord with
  | some l =>
    let s :=
      match s.prs.replay with
      | some r =>
        if r.step = s.nsb.step then
          let (i, s) := s.injCheck evReplayMismatch (srcOf 0x0A 0)
          { s with prs := { s.prs with replay := some { r with verdict := some (if i then .differs else s.verdict l), inj := i } } }
        else s
      | none => s
    s.ev (srcOf 0x09 3) evPrsLoss (l + s.nsb.outcome * 2 ^ 32)
  | none =>
    match s.prs.replay with
    | some r => if r.step = s.nsb.step then { s with prs := { s.prs with replay := some { r with verdict := some .matches } } } else s
    | none => s

/-- What NUM.STEPUPD does once the outcome lets it (R77): a NUM.STEPBEGIN held until then issues again. -/
def State.stepupd (s : State) : State :=
  if s.nsb.applied then s else ({ s.lossRecord with nsb := s.nsb.stepupd }).wakeStep

/-! ## NUM.STEPBEGIN (R79) -/

/-- R79. -/
def Nsb.stepbegin (n : Nsb) : Nsb :=
  { n with step := n.step + 1, lstep := n.lnext, taint := false, outcome := 0, applied := false }

/-- Registrations take effect at a boundary (R332): where it is captured, before its capture, and those accepted since then at its NUM.STEPBEGIN. -/
def State.registrations (s : State) : State :=
  (s.objs.map Prod.fst).foldl (fun s i =>
    match (s.obj i).regNext with
    | some r => s.setObj i { s.obj i with reg := some r, regNext := none }
    | none => s) s

/-- The step boundary; a warning in force, or one since the capture barrier, taints the new step (R412). The hold of ARC.OVOR ends with its step (R241). A NUM.STEPBEGIN
that issued before the outcome had come has not been compared by then (R329). -/
def State.stepbegin (s : State) (compared : Bool) : State :=
  if s.nsb.outcome = 0 then s
  else
    let s := if compared then s else s.sysDrift
    let taint := s.pln.warn || s.prs.warned
    let s := { s with nsb := { s.nsb.stepbegin with taint := taint }, prs := { s.prs with warned := false }
                      arc := { s.arc with hold := s.arc.holdNext, holdNext := false } }
    s.orBoundary.registrations

/-- Whether a NUM operation can take effect now (R77, R79). -/
def State.numReady (s : State) (k : LKind) : Bool :=
  match k with
  | .numStepupd => s.nsb.outcome != 0
  | .numStepbegin => s.nsb.outcome == 0 || (s.nsb.applied && !s.captureDue && !s.replayDue)
  | _ => true

/-- Lets the contexts held on the outcome issue their optimiser updates and NUM.STEPUPDs (R77, R181), and those whose operations it held go on. -/
def State.wakeOutcome (s : State) : State :=
  s.park.ctxKeys.foldl (fun s x => if (s.ctx x).st = .waiting && (s.ctx x).wait = .outcome then s.wake x 0 else s) s.park

end Sys2Proof.Machine
end

