-- ==== Sys2Proof/Machine/Arc.lean ====
section
/-! DEFINITION. ARC: the issue of the arch operations, their checks at start, and what arrives from other modules (R297, R300 to R311, R325,
R326). -/

namespace Sys2Proof.Machine

/-! ## Checks at start (R104, R334) -/

/-- Whether a destroy of the object waits. -/
def State.destroying (s : State) (h : Nat) : Bool := s.ops.any (fun o => o.kind == .destroy && o.hodHandle == h)

/-- Whether a handle names an object that a program may reach. -/
def State.reachable (s : State) (h : Nat) : Bool :=
  s.named h && (s.obj (hIdx h)).kind != .image && !(s.obj (hIdx h)).hosted && !s.destroying h

/-- The checks of a descriptor at operation start. -/
def State.tdFaults8 (s : State) (t : Td) : List Nat :=
  let o := s.obj (hIdx t.handle)
  need (!s.named t.handle || o.registration == (t.pres, t.upd, t.updn)) evIllegalEncoding
    ++ need (s.reachable t.handle && t.spansOk o.bytes) evBoundsFault

/-- The checks of a tensor descriptor that an operation writes: a CODE object is read and fetched only (R265). -/
def State.tdWrite8 (s : State) (t : Td) : List Nat := s.tdFaults8 t ++ need ((s.obj (hIdx t.handle)).kind != .code) evBoundsFault

/-- Whether a range lies inside the object that its handle names. -/
def State.refOk (s : State) (r : ObjRef) : Bool :=
  s.reachable r.h && r.lo + r.n ≤ (s.obj (hIdx r.h)).bytes && !(r.wr && (s.obj (hIdx r.h)).kind == .code)

/-! ## Issue (R300, R301) -/

/-- The word checks of an ARC instruction; ARC.OVOR names s0. -/
def arcWord (kind : LKind) (i : Ins) : Bool :=
  i.flagsBelow 0 && i.zero 94 89 && i.zero 75 0 && (kind != .arcOvor || i.sa == 0)

/-- The fields of a command block, in the order of `Op.words`, without the collective's number. -/
def acmdWords (bs : List Byte) : List Nat :=
  [leAt bs 0 4, leAt bs 4 4, leAt bs 8 8, leAt bs 16 8, leAt bs 24 8, leAt bs 32 2, leAt bs 34 1, leAt bs 35 1, leAt bs 36 4, leAt bs 40 4, leAt bs 44 2]

/-- The operation of an ARC instruction. -/
def State.arcOp (s : State) (kind : LKind) (x : Nat) (i : Ins) : Op :=
  let bs := s.spadRead (coreOf x) (s.reg x i.sa).toNat 64
  let w := acmdWords bs
  let dtd := w.getD 9 0
  { id := 0, src := .ctx x, kind := kind, ins := i, core := coreOf x, off := 0, unit := .outbound, regs := [s.reg x i.sa], words := w
    tds := if (kind == .arcRscat || kind == .arcAred) && bitOf dtd 31 then [s.tdAt x (fld dtd 16 0)] else [] }

/-- Which fields of the command block an operation uses, in the order of the block: SRC, DST, SRC offset, DST offset, LEN, NODE, COURSE, EFMT,
TAG, DTD, RCTR. -/
def acmdUses : LKind → List Bool
  | .arcRscat | .arcAred => [true, true, true, true, true, false, true, true, false, true, false]
  | .arcAgath => [true, true, true, true, true, false, true, false, false, false, false]
  | .arcSend => [true, false, true, false, true, true, false, false, true, false, false]
  | .arcRecv => [false, true, false, true, true, true, false, false, true, false, false]
  | _ => [true, true, true, true, true, false, true, false, false, false, true]

/-- Whether every field of a command block is in its form (R301, R311); `rest` is bytes 46 to 63. -/
def acmdOk (o : Op) (rest : Nat) : Bool :=
  let dtd := bitOf o.arcDtd 31
  rest == 0 && ((acmdUses o.kind).zip o.words).all (fun p => p.1 || p.2 == 0)
    && o.arcSrc < 2 ^ 24 && o.arcDst < 2 ^ 24 && o.arcNode < 2 ^ 14 && o.arcCourse < 4 && o.arcEfmt ≤ 1
    && fld o.arcDtd 30 17 == 0 && (dtd || o.arcDtd == 0) && (!dtd || (o.arcDst == 0 && o.arcDoff == 0))
    && fld o.arcRctr 14 12 == 0 && (bitOf o.arcRctr 15 || o.arcRctr == 0) && (!bitOf o.arcRctr 15 || 0x400 ≤ fld o.arcRctr 11 0)

/-- Whether DTD meets R305. -/
def State.dtdOk (s : State) (o : Op) : Bool :=
  o.tds.all (fun t => t.ok && t.fmt == 4 && t.ext == t.pext
    && t.elems == (if o.kind = .arcAred then s.arc.n o.arcCourse else 1) * o.arcElems)

/-- Check 7 of an ARC instruction with a command block. -/
def State.arcFaults (s : State) (o : Op) : List Nat :=
  let a := (o.regs.getD 0 0).toNat
  let bs := s.spadRead o.core a 64
  let ok := acmdOk o (leAt bs 46 18)
  if spadEnd < a + 64 then [evBoundsFault]
  else if ok && bitOf o.arcDtd 31 && 98303 < fld o.arcDtd 16 0 then [evBoundsFault]
  else
    need (ok && s.dtdOk o) evIllegalEncoding
      ++ need (a % 64 == 0 && o.arcSoff % 4096 == 0 && o.arcDoff % 4096 == 0 && o.arcLen % (if o.kind.collective then 8192 else 4096) == 0
        && 4096 ≤ o.arcLen && o.arcLen ≤ 2 ^ 36) evBoundsFault

/-- The receives that are posted, and those that have been issued and not started. -/
def State.receives (s : State) : Nat :=
  (s.ops.filter (fun o => o.kind == .arcRecv && (o.st == .queued || s.arc.posted.contains o.id))).length

/-- Counts a collective that has just entered its queue, and gives it its number (R303, R313). -/
def State.numberColl (s t : State) (c : Nat) : State :=
  if t.nextOp = s.nextOp then t
  else
    let k := t.arc.issued.getD c 0 + 1
    let t := { t with ops := t.ops.map (fun (o : Op) => if o.id = s.nextOp then { o with words := o.words ++ [k.toNat] } else o) }
    { t with arc := { t.arc with issued := t.arc.issued.set c k } }

/-- The entry of an ARC operation into its queue. -/
def State.enqueueArc (s : State) (x : Nat) (o : Op) : State :=
  if o.kind = .arcRecv && 1024 ≤ s.receives then s.wait x .recvLimit
  else if o.kind.collective then s.numberColl (s.enqueue x o) o.arcCourse
  else s.enqueue x o

/-- The issue of an ARC instruction. -/
def arcIssue (kind : LKind) (x : Fin 512) (i : Ins) (s : State) : Host.Outcome State Fault Refusal :=
  .next (s.issue x i (arcWord kind i && i.sigOk (coreOf x)) (fun s => s.skipLong x i) (fun s =>
    let o := s.arcOp kind x i
    s.checked x (if kind = .arcOvor then [] else s.arcFaults o) (fun s => s.enqueueArc x { o with sig := i.sig })))

def execArcRscat (x : Fin 512) (i : Ins) (s : State) : Host.Outcome State Fault Refusal := arcIssue .arcRscat x i s
def execArcAgath (x : Fin 512) (i : Ins) (s : State) : Host.Outcome State Fault Refusal := arcIssue .arcAgath x i s
def execArcAred (x : Fin 512) (i : Ins) (s : State) : Host.Outcome State Fault Refusal := arcIssue .arcAred x i s
def execArcSend (x : Fin 512) (i : Ins) (s : State) : Host.Outcome State Fault Refusal := arcIssue .arcSend x i s
def execArcRecv (x : Fin 512) (i : Ins) (s : State) : Host.Outcome State Fault Refusal := arcIssue .arcRecv x i s
def execArcCirc (x : Fin 512) (i : Ins) (s : State) : Host.Outcome State Fault Refusal := arcIssue .arcCirc x i s
def execArcOvor (x : Fin 512) (i : Ins) (s : State) : Host.Outcome State Fault Refusal := arcIssue .arcOvor x i s

/-! ## Start (R311) -/

/-- Whether two ranges of objects share a byte. -/
def ObjRef.overlaps (a b : ObjRef) : Bool := a.h == b.h && a.lo < b.lo + b.n && b.lo < a.lo + a.n

/-- The checks of an ARC operation at its start. -/
def State.arcFaults8 (s : State) (o : Op) : List Nat :=
  let rs := s.refs o
  let raw := (o.kind == .arcRscat || o.kind == .arcAred) && o.tds.isEmpty
  (o.tds.map s.tdWrite8).flatten
    ++ need (rs.all s.refOk
      && (!(o.kind == .arcSend || o.kind == .arcRecv) || s.arc.other o.arcNode)
      && (!(o.kind.collective || o.kind == .arcCirc) || 1 < s.arc.n o.arcCourse)
      && (!o.kind.collective || (match rs with | a :: b :: _ => !a.overlaps b | _ => true))
      && (!raw || (s.obj (hIdx o.arcDst)).cls == 1)) evBoundsFault

/-- The arch unit that an operation runs on: its course, or that of the first link towards or from its node. -/
def State.arcUnit (s : State) (o : Op) : Nat :=
  if o.kind = .arcSend || o.kind = .arcRecv then ((List.range 4).find? (fun d => s.arc.posOf o.arcNode d != s.arc.at d)).getD 0
  else o.arcCourse

/-- The sends, circulations and receives that run on an arch unit. A posted receive runs from its match (R306 posts up to 1,024), so it counts once it has been matched. -/
def State.arcRunning (s : State) (u : Nat) : Nat :=
  (s.ops.filter (fun q => (((q.kind == .arcSend || q.kind == .arcCirc) && q.st == .remote) || (q.kind == .arcRecv && q.st == .started)) && s.arcUnit q == u)).length

/-- Whether the arch can start an operation now (R309): one collective per course in matching order, 64 sends, circulations and receives per unit. -/
def State.arcFree (s : State) (o : Op) : Bool :=
  if o.kind.collective then
    (s.arc.coll o.arcCourse).isNone && !s.ops.any (fun q => q.kind.collective && q.arcCourse == o.arcCourse && q.arcK < o.arcK)
  else if o.kind = .arcSend || o.kind = .arcCirc || o.kind = .arcRecv then
    s.arcRunning (s.arcUnit o) < 64
  else true

/-- A receive is posted (R306). -/
def State.postRecv (s : State) (o : Op) : State :=
  { s.setOp { o with st := .waiting } with arc := { s.arc with posted := s.arc.posted ++ [o.id] } }

/-! ## Arrivals -/

/-- Lets contexts that wait on a limit issue again. -/
def State.wakeOn (s : State) (w : Wait) : State :=
  s.ctxKeys.foldl (fun s x => if (s.ctx x).st = .waiting && (s.ctx x).wait = w then s.wake x 0 else s) s

/-- The earliest posted receive for a message (R306). -/
def State.recvFor (s : State) (m : Msg) : Option Op :=
  s.arc.posted.findSome? (fun id => (s.findOp id).filter (fun o => o.arcNode == m.src.toNat && o.arcTag == m.tag.toNat))

/-- Applies the counter that a message names behind its data (R297). A context counter is signalled by no other module (R314). -/
def State.msgSignal (s : State) (m : Msg) : State :=
  match m.ctr with
  | some c => if c.toNat < 0x100 then s else s.signalShort 0 (some c.toNat)
  | none => s

/-- An arriving send; the receiver applies the signal behind it (R302). Answers whether it has been taken: while its object is held, or 64 operations run on its unit
(R309), it stays on its link. -/
def State.sendArrived (s : State) (m : Msg) : State × Bool :=
  let c := m.course.val
  if s.injArmed evArcNorecv (srcOf 0x07 c) then (s.injReport.noRecv c true, true)
  else if s.injArmed evArcMismatch (srcOf 0x07 c) then (s.injReport.mismatch c true, true)
  else
    match s.recvFor m with
    | none => (s.noRecv c, true)
    | some o =>
      if m.len ≠ o.arcLen then (s.mismatch c, true)
      else if 64 ≤ s.arcRunning (s.arcUnit o) then (s, false)
      else if (s.refs o).all (s.reaches o.src) then
        let s := s.objWrite (hIdx o.arcDst) o.arcDoff m.data
        let s := { s.setOp { o with st := .started } with arc := { s.arc with posted := s.arc.posted.filter (fun i => i != o.id) } }
        (((s.msgSignal m).complete m).wakeOn .recvLimit, true)
      else
        let (s, w) := s.evalRecv o
        (s.settle w, false)

/-- A message that takes a command's turn: it is taken in the order of its source and channel (R297), and otherwise waits on its link. -/
def State.arriveIn (s : State) (m : Msg) (f : State → State × Bool) : State :=
  s.arrive m (fun s =>
    if s.arc.heldIn.any (fun q => q.src == m.src && msgVc q == msgVc m) then s.waitIn m
    else
      let r := f s
      if r.2 then r.1 else r.1.waitIn m)

def execSendArrival (m : Msg) (s : State) : Host.Outcome State Fault Refusal := .next (s.arriveIn m (fun s => s.sendArrived m))

/-- Whether the handle of a circulation names a pinned object without a recipe that holds the range (R307). -/
def State.circTarget (s : State) (m : Msg) : Bool :=
  let o := s.obj (hIdx m.tag.toNat)
  s.reachable m.tag.toNat && o.kind != .code && o.pins != 0 && !o.rcp && m.off + m.data.length ≤ o.bytes

/-- An arriving circulation, and whether it has been taken. -/
def State.circArrived (s : State) (m : Msg) : State × Bool :=
  let c := m.course.val
  let r : ObjRef := { h := m.tag.toNat, lo := m.off, n := m.data.length, wr := true }
  if s.injArmed evArcNorecv (srcOf 0x07 c) then (s.injReport.noRecv c true, true)
  else if s.injArmed evArcMismatch (srcOf 0x07 c) then (s.injReport.mismatch c true, true)
  else if !s.circTarget m then (s.noRecv c, true)
  else if s.reaches (.ring 0 0 0 0) r then (((s.objWrite (hIdx r.h) r.lo m.data).msgSignal m).complete m, true)
  else (s, false)

def execCirculationArrival (m : Msg) (s : State) : Host.Outcome State Fault Refusal := .next (s.arriveIn m (fun s => s.circArrived m))

/-- Whether a collective message matches the module's collective of its number (R303). -/
def collMatches (o : Op) (m : Msg) : Bool :=
  m.coll == collCode o.kind && m.clen == o.arcLen && m.efmt == o.arcEfmt && m.dtd == !o.tds.isEmpty

/-- What an arriving message of a collective makes the arch read here: the own terms of its half of the chunk (R304). -/
def ownRef (o : Op) (m : Msg) : ObjRef :=
  { h := o.arcSrc, lo := o.arcSoff + m.chunk * o.arcLen + (if m.following then 0 else o.arcLen / 2), n := o.arcLen / 2, wr := false }

/-- A DROPPED page that a running collective reaches is recomputed (R225, R270). -/
def State.needPages (s : State) (o : Op) : State :=
  match (s.refs o).find? (fun r => !s.reaches o.src r) with
  | some r =>
    let i := hIdx r.h
    if (s.obj i).st ≠ .dropped || s.recomputing i || s.warned then s
    else
      let (_, s, w) := s.beginRecompute o.src i (s.obj i).home
      s.settle w
  | none => s

/-- An arriving message of a collective, and whether it has been taken: discarded on a mismatch, left on its link while its collective does not run here or an object that
it reaches is held (R302). Each block read for it is verified, with what the detectors find (R299). -/
def State.collArrived (s : State) (m : Msg) (rs : Op → List ObjRef) (ds : List Detect) (take : State → Op → State) : State × Bool :=
  let c := m.course.val
  if s.injArmed evArcMismatch (srcOf 0x07 c) then (s.injReport.mismatch c true, true)
  else if s.injArmed evArcNorecv (srcOf 0x07 c) then (s.injReport.noRecv c true, true)
  else
    match s.arc.coll c with
    | none => (s, false)
    | some q =>
      if q.k ≠ m.tag.toNat then (s, false)
      else
        match s.findOp q.op with
        | none => (s, false)
        | some o =>
          if !collMatches o m then (s.mismatch c, true)
          else if !(s.refs o).all (s.reaches o.src) then (s.needPages o, false)
          else
            let f := s.detect (srcOf 0x07 c) o.core (rs o) ds
            let s := f.s
            if !(s.refs o).all (s.reaches o.src) then (s.settle f.again, false) else ((((take s o).complete m).collCheck c).settle f.again, true)

/-- An arriving reduction partial. -/
def State.partialArrived (s : State) (m : Msg) (ds : List Detect) : State × Bool :=
  s.collArrived m (fun o => [ownRef o m]) ds (fun s o => s.takePartial o m)

/-- An arriving gathered half. -/
def State.gatherArrived (s : State) (m : Msg) : State × Bool := s.collArrived m (fun _ => []) [] (fun s o => s.takeGather o m)

def execReductionPartialArrival (m : Met Msg) (s : State) : Host.Outcome State Fault Refusal :=
  .next (s.arriveIn m.of (fun s => s.partialArrived m.of m.found))

def execGatherArrival (m : Msg) (s : State) : Host.Outcome State Fault Refusal := .next (s.arriveIn m (fun s => s.gatherArrived m))

/-- An arriving contribution to the overflow OR. -/
def State.orArrived (s : State) (m : Msg) : State :=
  let c := m.course.val
  if s.injArmed evArcMismatch (srcOf 0x07 c) then s.injReport.mismatch c true
  else if s.injArmed evArcNorecv (srcOf 0x07 c) then s.injReport.noRecv c true
  else s.orArrive m

def execOrContributionArrival (m : Msg) (s : State) : Host.Outcome State Fault Refusal := .next (s.arriveIn m (fun s => (s.orArrived m, true)))

/-- An ARC.OVOR that waits for the delivery can complete. -/
def Op.orDone (o : Op) : Op := if o.kind = .arcOvor && o.st = .remote then { o with st := .started } else o

/-- The delivery of the job-wide OR (R68, R77): the outcome, STEP_OVERFLOW for a set OR, and everything that waited for the outcome. -/
def State.orDeliver (s : State) : State :=
  if !s.orReady then s
  else
    let v := s.arc.orValue 4
    let s := { s with arc := { s.arc with delivered := true, result := v } }
    let s := if s.nsb.outcome = 0 then { s with nsb := { s.nsb with outcome := if v then 2 else 1 } } else s
    let s := if v then s.ev (srcOf 0x09 3) evStepOverflow s.nsb.step.toNat else s
    let s := { s with ops := s.ops.map Op.orDone }
    s.wakeOutcome

def execOrDelivery (s : State) : Host.Outcome State Fault Refusal := .next s.orDeliver

/-- A remote signal (R325). A name that no counter has is applied to nothing; the completion still goes back. -/
def State.remoteSignal (s : State) (m : Msg) : State :=
  let s := match fullName 0 (leAt m.data 0 2) with
    | some (.ctx _ _) => s
    | some c => s.signal c (signed 32 (leAt m.data 4 4))
    | none => s
  s.complete m

def execRemoteSignalArrival (m : Msg) (s : State) : Host.Outcome State Fault Refusal := .next (s.arrive m (fun s => s.remoteSignal m))

/-- A refused demotion to a peer (R275): the object stays where it was. -/
def State.peerRefused (s : State) (o : Op) : State :=
  let i := hIdx o.hodHandle
  let ob := s.obj i
  let held := s.heldOn i
  let s := s.setObj i { ob with st := if ob.home = 0 then .fast else .slow, move := none }
  (s.refuse o o.hodHandle).settle held

/-- A completion (R302, R325): by the kind of message that it answers it returns one remote signal, lets a send or circulation complete, acknowledges a message of a
collective, or answers a demotion to the peer. -/
def State.completed (s : State) (m : Msg) : State :=
  if m.coll = 5 then { s with kst := { s.kst with out := s.kst.out - 1 } }.wakeOn .remoteLimit
  else
    match s.findOp m.op with
    | none => s
    | some o =>
      if m.coll = 2 || m.coll = 3 then
        match s.arc.coll o.arcCourse with
        | some q => if o.kind.collective then (s.setColl o.arcCourse { q with unacked := q.unacked - 1 }).collCheck o.arcCourse else s
        | none => s
      else if m.coll = 0 || m.coll = 1 then
        if (o.kind = .arcSend || o.kind = .arcCirc) && o.st = .remote then s.setOp { o with st := .started } else s
      else if m.coll = 7 && (o.kind = .hodDemote || o.kind = .demote) && o.st = .moving && m.dtd then s.peerRefused o
      else s

def execCompletionArrival (m : Msg) (s : State) : Host.Outcome State Fault Refusal := .next (s.arrive m (fun s => s.completed m))

/-- Whether a message is the owner's access to an object hosted here for it, which alone reaches it (R264, R267). -/
def State.ownerOf (s : State) (m : Msg) (n : Nat) : Bool :=
  let o := s.obj (hIdx m.tag.toNat)
  s.named m.tag.toNat && o.hosted && o.hnode == m.src.toNat && m.off + n ≤ o.bytes

/-- The owner's read of an object hosted here for it (R267, R297), verified before it leaves (R299), and whether it has been taken: while the object is held it stays on
its link (R270). -/
def State.peerRead (s : State) (m : Msg) (ds : List Detect) : State × Bool :=
  let r : ObjRef := { h := m.tag.toNat, lo := m.off, n := m.len, wr := false }
  if !s.ownerOf m m.len then (s, true)
  else if !s.reaches (.ring 0 0 0 0) r then (s, false)
  else
    let f := s.detect (srcOf 0x07 m.course) 0 [r] ds
    let s := f.s
    if s.reaches (.ring 0 0 0 0) r then
      (s.sendMsg { s.newMsg m.src.toNat 7 with tag := m.tag, off := m.off, len := m.len, op := m.op, data := s.objRead (hIdx m.tag.toNat) m.off m.len } |>.settle
        f.again, true)
    else (s.settle f.again, false)

def execPeerReadRequest (m : Met Msg) (s : State) : Host.Outcome State Fault Refusal := .next (s.arriveIn m.of (fun s => s.peerRead m.of m.found))

/-- Data from the owner of an object hosted here, acknowledged when written, or for an object of this module that is moving or recovering (R267, R282), and whether it has
been taken: a write into an object that is held stays on its link (R270, R281). -/
def State.peerWrite (s : State) (m : Msg) : State × Bool :=
  let i := hIdx m.tag.toNat
  let o := s.obj i
  let r : ObjRef := { h := m.tag.toNat, lo := m.off, n := m.data.length, wr := true }
  if s.ownerOf m m.data.length then
    if s.reaches (.ring 0 0 0 0) r then ((s.objWrite i m.off m.data).complete m, true) else (s, false)
  else if s.named m.tag.toNat && !o.hosted && m.off + m.data.length ≤ o.bytes && (o.recover.isSome || o.move.isSome) then
    ({ s with objMem := Mem.write s.objMem (objKey i m.off) m.data }, true)
  else (s, true)

def execPeerData (m : Msg) (s : State) : Host.Outcome State Fault Refusal := .next (s.arriveIn m (fun s => s.peerWrite m))

/-- A message that has waited on its link, by its kind, and whether it has been taken. -/
def State.takeMsg (s : State) (m : Msg) : State × Bool :=
  match m.kind with
  | 0 => s.sendArrived m
  | 1 => s.circArrived m
  | 2 => s.partialArrived m []
  | 3 => s.gatherArrived m
  | 4 => (s.orArrived m, true)
  | 6 => s.peerRead m []
  | 7 => s.peerWrite m
  | _ => (s, true)

/-- The messages that wait on their links are taken as far as their objects allow, those of one source and channel in their order (R270, R297). -/
def State.drainIn (s : State) : State :=
  s.arc.heldIn.foldl (fun s m => s.arriveIn m (fun s => s.takeMsg m)) { s with arc := { s.arc with heldIn := [] } }

/-- A neighbour's marker of a new epoch (R326). -/
def execEpochMarker (pair : Fin 8) (vc : Fin 4) (epoch : BitVec 8) (s : State) : Host.Outcome State Fault Refusal :=
  .next { s with kst := { s.kst with
    markers := if (pair.val, vc.val, epoch.toNat) ∈ s.kst.markers then s.kst.markers else s.kst.markers ++ [(pair.val, vc.val, epoch.toNat)] } }

end Sys2Proof.Machine
end

