-- ==== Sys2Proof/Machine/Effect.lean ====
section
/-! DEFINITION. What a long operation does to the memories: a list of writes worked out from the state at its completion, applied together
(R94, R97), and the same writes with free values where an uncorrectable error makes the results invalid (R100, R189). -/

namespace Sys2Proof.Machine

/-- A write: scratchpad bytes of a core, object bytes, an accumulator slot, a combine unit. -/
inductive Wr where
  | spad (k a : Nat) (bs : List Byte)
  | obj (i off : Nat) (bs : List Byte)
  | acc (k a j : Nat) (t : List W32)
  | combine (u : Nat) (t : List W32)
  deriving DecidableEq, Repr

/-- The writes of an operation, and whether a narrowing of it sets the step overflow flag (R65). -/
structure Eff where
  wrs : List Wr := []
  overflow : Bool := false
  deriving DecidableEq, Repr

/-- Puts the effects of two parts of an operation together. -/
def Eff.and (a b : Eff) : Eff := { wrs := a.wrs ++ b.wrs, overflow := a.overflow || b.overflow }

/-- Applies a write. -/
def State.wr (s : State) : Wr → State
  | .spad k a bs => s.spadWrite k a bs
  | .obj i off bs => s.objWrite i off bs
  | .acc k a j t => s.setAccSlot k a j t
  | .combine u t => { s with mtr := { s.mtr with combine := Tab.set [] s.mtr.combine u t } }

/-- Applies an operation's writes. -/
def State.applyEff (s : State) (e : Eff) : State :=
  let s := e.wrs.foldl State.wr s
  { s with overflow := s.overflow || e.overflow }

/-- Free FP32 words. -/
def State.freeWords (s : State) (n : Nat) : List W32 × State :=
  ((List.range n).map (fun j => Config.freeWord (s.free + j)), { s with free := s.free + n })

/-- Applies a write with an invalid result: free values in its place. -/
def State.wrFree (s : State) : Wr → State
  | .spad k a bs => let (b, s) := s.freeBytes bs.length; s.wr (.spad k a b)
  | .obj i off bs => let (b, s) := s.freeBytes bs.length; s.wr (.obj i off b)
  | .acc k a j t => let (w, s) := s.freeWords t.length; s.wr (.acc k a j w)
  | .combine u t => let (w, s) := s.freeWords t.length; s.wr (.combine u w)

/-- Applies an operation's writes with invalid results. DESIGN CHOICE (10): a narrowing to KIND gradient whose results are invalid does not set the step
overflow flag; R65 and R100 do not say whether it may. -/
def State.applyInvalid (s : State) (e : Eff) : State := e.wrs.foldl State.wrFree s

end Sys2Proof.Machine
end

