-- ==== Sys2Proof/Machine/Mov.lean ====
section
/-! DEFINITION. MOV: tile and block transfers between objects and the scratchpad (R131 to R135, R199 to R202). -/

namespace Sys2Proof.Machine

/-! ## Tiles -/

/-- Check 7 of a tile transfer (R104, R132). -/
def Tile.faults (t : Tile) (sb sc : Nat) : List Nat :=
  let l := blockLen t.td.f
  need (t.td.ok && (t.pitch == 0 || t.rowBytes ≤ t.pitch * 64) && (l == 0 || t.ext t.td.bdim % l == 0)) evIllegalEncoding
    ++ need (t.a % 64 == 0 && t.stop ≤ spadEnd && (l == 0 || t.o.getD t.td.bdim 0 % l == 0) && t.o.getD 0 0 * fmtBits t.td.f % 512 == 0
      && sb < 2 ^ 60 && sc < 2 ^ 40) evBoundsFault

/-- The word checks of a tile transfer (R131). -/
def movTileWord (i : Ins) : Bool := i.flagsBelow 1 && i.zero 89 89 && i.zero 19 0 && i.at 70 54 ≤ 98303

/-- The issue of a tile transfer. -/
def movTile (kind : LKind) (x : Fin 512) (i : Ins) (s : State) : Host.Outcome State Fault Refusal :=
  .next (s.issueLong x i (movTileWord i) (fun s =>
    let td := s.tdAt x (i.at 70 54)
    let sb := s.reg x i.sb
    let sc := s.reg x (i.at 75 71)
    ((tileOf i td (s.reg x i.sa).toNat sb.toNat sc.toNat).faults sb.toNat sc.toNat,
      { id := 0, src := .ctx x, kind := kind, unit := .move, ins := i, core := coreOf x, off := 0, regs := [s.reg x i.sa, sb, sc], tds := [td] })))

def execMovLdt (x : Fin 512) (i : Ins) (s : State) : Host.Outcome State Fault Refusal := movTile .movLdt x i s
def execMovStt (x : Fin 512) (i : Ins) (s : State) : Host.Outcome State Fault Refusal := movTile .movStt x i s

/-- What MOV.LDT writes: the rows and the scale bytes of the tile (R132, R199). A last odd half-byte and the rest of the last scale line are
free values. -/
def State.ldt (s : State) (o : Op) : Eff :=
  let t := o.tile
  let row (r : Nat) : Wr :=
    let a := t.a + r * t.step
    let keep := (s.padByte (a + t.rowBytes - 1)).toNat / 16
    .spad o.core a (packUnits keep (unitsOf t.td.w (s.rowCodes t.td (t.elem 0 r) (t.t0 + 1))))
  { wrs := (List.range (t.t1 + 1)).map row
      ++ (if blockLen t.td.f = 0 then []
          else [.spad o.core t.scaleAddr (s.scaleLine t.scaleAddr (t.blocks.map (fun x => BitVec.ofNat 8 (s.scaleCodeAt t.td x))))]) }

/-- Whether coordinates lie in the tile. -/
def Tile.holds (t : Tile) (x : List Nat) : Bool :=
  (List.range 5).all (fun d => t.o.getD d 0 ≤ x.getD d 0 && x.getD d 0 < t.o.getD d 0 + t.ext d)

/-- The number of the tile's scale byte for the block of `x`. -/
def Tile.blockNo (t : Tile) (x : List Nat) : Nat :=
  let j (d : Nat) : Nat := (x.getD d 0 - t.o.getD d 0) / (if d = t.td.bdim then blockLen t.td.f else 1)
  j 0 + t.blocksAlong 0 * j 1

/-- The byte at offset `off` of a changed block, from the byte `old` there and the tile's scratchpad bytes (the table of R201). -/
def Tile.newByte (t : Tile) (data : Nat → Nat) (scale : Nat → Nat) (old off : Nat) : Nat :=
  match t.td.scaleOfByte off with
  | some n =>
    let x := t.td.blockOf n
    if t.holds x then (if t.td.blockLogical x then scale (t.blockNo x) else 0) else old
  | none =>
    match t.td.elemOfByte off with
    | none => 0
    | some (x, b) =>
      let unit (x : List Nat) (b keep : Nat) : Nat :=
        if !t.td.padded x then 0
        else if t.holds x then
          (if t.td.logical x then data (2 * ((x.getD 1 0 - t.o.getD 1 0) * t.step) + (x.getD 0 0 - t.o.getD 0 0) * t.td.w + b) else 0)
        else keep
      if t.td.w = 1 then unit x 0 (old % 16) + 16 * unit (x.set 0 (x.getD 0 0 + 1)) 0 (old / 16)
      else unit x (2 * b) (old % 16) + 16 * unit x (2 * b + 1) (old / 16)

/-- The writes that store a tile: every changed integrity block whole. `data` gives the tile's 4-bit units, row by row, and `scale` its scale
bytes. -/
def State.tileStore (s : State) (t : Tile) (data scale : Nat → Nat) : List Wr :=
  let i := hIdx t.td.handle
  t.changed.map (fun b =>
    .obj i (4096 * b) ((s.objRead i (4096 * b) 4096).zipIdx.map (fun p =>
      BitVec.ofNat 8 (t.newByte data scale p.1.toNat (4096 * b + p.2)))))

/-- What MOV.STT writes. -/
def State.stt (s : State) (o : Op) : Eff :=
  let t := o.tile
  let bytes := (s.spadRead o.core t.a (t.stop - t.a)).toArray
  let byte (j : Nat) : Nat := (bytes.getD j 0).toNat
  { wrs := s.tileStore t (fun u => byte (u / 2) / 16 ^ (u % 2) % 16) (fun n => byte (t.scaleAddr - t.a + n)) }

/-- Whether a tile store leaves nothing of a block as it was, so that the block needs no read (R254). -/
def Tile.covers (t : Tile) (b : Nat) : Bool :=
  (List.range 4096).all (fun j => t.newByte (fun _ => 0) (fun _ => 0) 0 (4096 * b + j) == t.newByte (fun _ => 0) (fun _ => 0) 255 (4096 * b + j))

/-- The ranges that a MOV reads and verifies (R134). -/
def State.movReads (s : State) (o : Op) : List ObjRef :=
  let blocks (l : List Nat) : List ObjRef := l.map (fun b => { h := o.tile.td.handle, lo := 4096 * b, n := 4096, wr := false })
  match o.kind with
  | .movLdt => blocks o.tile.changed
  | .movStt => blocks (o.tile.changed.filter (fun b => !o.tile.covers b))
  | .movLdb | .movStb | .movPref => s.refs o
  | _ => []

/-! ## Block transfers (R133) -/

/-- The word checks of a block transfer: which of SA, SB and SC it uses. -/
def movBlockWord (i : Ins) (sa sc : Bool) : Bool :=
  i.flagsBelow 1 && i.zero 89 89 && i.zero 65 0 && (sa || i.zero 99 95) && (sc || i.zero 75 71)

/-- The bounds of R133 that an address, an offset and a length meet. -/
def movLenOk (n : Nat) : Bool := n % 64 == 0 && 64 ≤ n && n ≤ 6 * 2 ^ 20
def movSpadOk (a n : Nat) : Bool := a % 64 == 0 && a + n ≤ spadEnd

/-- Check 7 of a block transfer: SA, SB, SC and SD. -/
def movFaults (kind : LKind) (sa sb sc sd : Nat) : List Nat :=
  need (movLenOk sd && (match kind with
    | .movLdb | .movStb => movSpadOk sa sd && sb < 2 ^ 24 && sc % 64 == 0
    | .movSpcpy => movSpadOk sa sd && movSpadOk sb sd
    | .movFill => movSpadOk sa sd
    | _ => sb < 2 ^ 24 && sc % 64 == 0)) evBoundsFault

/-- The issue of a block transfer. -/
def movBlock (kind : LKind) (sa sc : Bool) (x : Fin 512) (i : Ins) (s : State) : Host.Outcome State Fault Refusal :=
  .next (s.issueLong x i (movBlockWord i sa sc) (fun s =>
    let r := [s.reg x i.sa, s.reg x i.sb, s.reg x (i.at 75 71), s.reg x (i.at 70 66)]
    let n (j : Nat) : Nat := (r.getD j 0).toNat
    (movFaults kind (n 0) (n 1) (n 2) (n 3),
      { id := 0, src := .ctx x, kind := kind, unit := .move, ins := i, core := coreOf x, off := 0, regs := r })))

def execMovLdb (x : Fin 512) (i : Ins) (s : State) : Host.Outcome State Fault Refusal := movBlock .movLdb true true x i s
def execMovStb (x : Fin 512) (i : Ins) (s : State) : Host.Outcome State Fault Refusal := movBlock .movStb true true x i s
def execMovSpcpy (x : Fin 512) (i : Ins) (s : State) : Host.Outcome State Fault Refusal := movBlock .movSpcpy true false x i s
def execMovFill (x : Fin 512) (i : Ins) (s : State) : Host.Outcome State Fault Refusal := movBlock .movFill true false x i s
def execMovPref (x : Fin 512) (i : Ins) (s : State) : Host.Outcome State Fault Refusal := movBlock .movPref false true x i s

/-- The pattern of MOV.FILL, repeated to `n` bytes. -/
def fillBytes (p n : Nat) : List Byte := (List.range (n / 8)).flatMap (fun _ => toBytes 8 p)

/-- What a MOV operation writes (R134). -/
def State.movEff (s : State) (o : Op) : Eff :=
  let r (j : Nat) : Nat := (o.regs.getD j 0).toNat
  match o.kind with
  | .movLdt => s.ldt o
  | .movStt => s.stt o
  | .movLdb => { wrs := [.spad o.core (r 0) (s.objRead (hIdx (r 1)) (r 2) (r 3))] }
  | .movStb => { wrs := [.obj (hIdx (r 1)) (r 2) (s.spadRead o.core (r 0) (r 3))] }
  | .movSpcpy => { wrs := [.spad o.core (r 1) (s.spadRead o.core (r 0) (r 3))] }
  | .movFill => { wrs := [.spad o.core (r 0) (fillBytes (r 1) (r 3))] }
  | _ => {}

/-- The integrity blocks that a range touches. -/
def ObjRef.blocks (r : ObjRef) : List Nat := if r.n = 0 then [] else (List.range ((r.lo + r.n - 1) / 4096 + 1 - r.lo / 4096)).map (fun j => r.lo / 4096 + j)

/-- The lines of mortar that a MOV accesses: the sixteen of each block that it reads and of each that it writes, whole blocks both (R134, R185); an access to a peer's
footing is never cached, and MOV.PREF with NOMTR accesses none (R187). -/
def State.movLines (s : State) (o : Op) : Nat :=
  let near (r : ObjRef) : Bool := (s.obj (hIdx r.h)).home < 2
  let reads := ((s.movReads o).filter near).map (fun r => (r.blocks.filter r.verifies).length)
  let writes := ((s.refs o).filter (fun r => r.wr && near r)).map (fun r => r.blocks.length)
  if o.kind = .movPref && o.ins.flag 0 then 0 else 16 * (reads ++ writes).foldl (· + ·) 0

/-- Adds line accesses to MTR_HIT and MTR_MISS, which saturate (R192). -/
def State.countLine (s : State) (h m : Nat) : State :=
  let add (v : W64) (n : Nat) : W64 := BitVec.ofNat 64 (min (v.toNat + n) (2 ^ 64 - 1))
  { s with mtr := { s.mtr with hit := add s.mtr.hit h, miss := add s.mtr.miss m } }

/-- Counts the line accesses of a MOV as hits and misses; which of them hit is not architected (R185, R192). -/
def State.countLines (s : State) (o : Op) : State :=
  let n := s.movLines o
  if n = 0 then s
  else
    let (k, s) := s.fresh
    let h := Config.choose k % (n + 1)
    s.countLine h (n - h)

/-- Counts the line accesses of instruction fetch since the counters were last read (R192): at most one for each instruction fetched. How many those are, and how many
of them hit, are free values. DESIGN CHOICE (24). -/
def State.countFetches (s : State) : State :=
  let n := (s.cores.map (fun (p : Nat × Core) => p.2.fetched)).foldl (· + ·) 0
  let (j, s) := s.fresh
  let (k, s) := s.fresh
  let a := Config.choose j % (n + 1)
  let h := Config.choose k % (a + 1)
  let cores := (s.cores.map (fun (p : Nat × Core) => (p.1, { p.2 with fetched := 0 }))).filter (fun p => p.2 != ({} : Core))
  { s with cores := cores }.countLine h (a - h)

end Sys2Proof.Machine
end

