-- ==== Sys2Proof/Machine/Narrow.lean ====
section
/-! DEFINITION. Scratchpad areas and FP32 matrices, and the narrowing of a matrix into a tile with its scales (R47 to R55, R65, R69 to R73, R155,
R176, R177). -/

namespace Sys2Proof.Machine

/-- FP32 values by row and column. -/
abbrev Mat := Array (Array W32)

/-- Element (r, c); +0 beyond what the matrix holds. -/
def Mat.at (m : Mat) (r c : Nat) : W32 := (m.getD r #[]).getD c 0

/-- A matrix from its elements. -/
def matOf (rows cols : Nat) (f : Nat → Nat → W32) : Mat :=
  ((List.range rows).map (fun r => ((List.range cols).map (fun c => f r c)).toArray)).toArray

/-- An area register (R152, R168): address and PITCH. -/
structure SArea where
  a : Nat
  pitch : Nat
  deriving DecidableEq, Repr

def areaOf (v : Nat) : SArea := { a := fld v 22 0, pitch := fld v 41 32 }

/-- Whether an area register holds only its fields and an aligned address. -/
def areaRegOk (v : Nat) : Bool := v < 2 ^ 42 && fld v 31 23 == 0 && fld v 5 0 == 0

/-- The bytes of a packed row of `cols` elements of a format. -/
def packed (f : Fmt) (cols : Nat) : Nat := ceilDiv (cols * fmtBits f) 8

/-- Whether a pitch is zero or at least the packed row. -/
def SArea.pitchOk (r : SArea) (f : Fmt) (cols : Nat) : Bool := r.pitch == 0 || packed f cols ≤ r.pitch * 64

/-- The distance between the rows of an area. -/
def SArea.step (r : SArea) (f : Fmt) (cols : Nat) : Nat := if r.pitch = 0 then roundUp (packed f cols) 64 else r.pitch * 64

/-- The tile that an area holds, laid out as R132 gives. -/
def SArea.tile (r : SArea) (td : Td) (o : List Nat) (rows cols : Nat) : Tile :=
  { td := td, a := r.a, o := o, t0 := cols - 1, t1 := rows - 1, pitch := r.pitch }

/-- The values of an FP32 or BF16 area: codes of a row, widened exactly. -/
def State.areaVals (s : State) (k : Nat) (r : SArea) (f : Fmt) (rows cols : Nat) : Mat :=
  ((List.range rows).map (fun i =>
    ((Mem.codes s.spad (spadKey k (r.a + i * r.step f cols)) 0 (fmtBits f / 4) cols).map (fun c =>
      if f = .bf16 then BitVec.ofNat 32 (c * 65536) else BitVec.ofNat 32 c)).toArray)).toArray

/-- The write of one row of FP32 values. -/
def fpBytes (vs : List W32) : List Byte := vs.flatMap (fun v => toBytes 4 v.toNat)

/-- The writes of an FP32 matrix into an area. -/
def areaWrites (k : Nat) (r : SArea) (rows cols : Nat) (m : Mat) : List Wr :=
  (List.range rows).map (fun i => .spad k (r.a + i * r.step .fp32 cols) (fpBytes ((List.range cols).map (fun c => m.at i c))))

/-- The writes of a row of elements of `w` bytes from address `a`: one for each run of elements that are written, none for an element left as it
is. -/
def rowWrites (k w : Nat) : Nat → List (Option (List Byte)) → List Wr
  | _, [] => []
  | a, none :: r => rowWrites k w (a + w) r
  | a, some b :: r =>
    match rowWrites k w (a + w) r with
    | .spad j c bs :: t => if j = k ∧ c = a + w then .spad k a (b ++ bs) :: t else .spad k a b :: .spad j c bs :: t
    | t => .spad k a b :: t

/-! ## Narrowing -/

/-- A narrowing mode: RNE, RTZ or SR. -/
inductive NMode where
  | rne
  | rtz
  | sr
  deriving DecidableEq, Repr

/-- The drain rounding of a KIND (R70): RNE for weights and activations, SR for gradients, moments and masters. -/
def kindMode (kind : Nat) : NMode := if kind ≤ 1 then .rne else .sr

/-- KIND gradient. -/
def Td.grad (t : Td) : Bool := t.kind == 2

/-- The rounding of the element at coordinates `x` (R51 to R53). -/
def State.rmAt (s : State) (t : Td) (m : NMode) (x : List Nat) : Rm :=
  match m with
  | .rne => .rne
  | .rtz => .rtz
  | .sr => .sr (srWord s.nsb.key s.nsb.step (BitVec.ofNat 32 t.srid) (t.index x))

/-- The code of a value under a scale code, and whether it sets the overflow flag for KIND gradient (R47, R65). -/
def State.narrow1 (s : State) (t : Td) (m : NMode) (x : List Nat) (scale : Nat) (v : W32) : Nat × Bool :=
  if blockLen t.f = 0 then narrowVal t.f (s.rmAt t m x) (val32 v)
  else if scale = 0xFF then (nanCode t.f, true)
  else narrowVal t.f (s.rmAt t m x) ((val32 v).scale (127 - (scale : Int)))

/-- The scale code of the block that begins at tile position (c, r) (R71, R72): elements beyond the logical extent count as zero. -/
def Tile.blockScale (t : Tile) (v : Mat) (c r : Nat) : Nat :=
  let l := blockLen t.td.f
  scaleCode t.td.f t.td.grad ((List.range (if t.td.bdim ≤ 1 then l else 1)).foldl (fun a j =>
    let c' := if t.td.bdim = 0 then c + j else c
    let r' := if t.td.bdim = 1 then r + j else r
    if t.td.logical (t.elem c' r') then amax2 a (val32 (v.at r' c')) else a) (.fin false 0 0))

/-- The scale codes of a tile, in the order of its scale bytes. -/
def Tile.scaleCodes (t : Tile) (v : Mat) : Array Nat :=
  (t.blocks.map (fun x => t.blockScale v (x.getD 0 0 - t.o.getD 0 0) (x.getD 1 0 - t.o.getD 1 0))).toArray

/-- The code at tile position (c, r), and its overflow: zero beyond the logical extent. -/
def State.narrowAt (s : State) (t : Tile) (m : NMode) (scales : Array Nat) (v : Mat) (c r : Nat) : Nat × Bool :=
  let x := t.elem c r
  if t.td.logical x then s.narrow1 t.td m x (if blockLen t.td.f = 0 then 0 else scales.getD (t.blockNo x) 0) (v.at r c)
  else (0, false)

/-- Narrows a matrix into a tile area on core `k`: the rows, the scale area, and the overflow flag where KIND is gradient. -/
def State.narrowTile (s : State) (k : Nat) (t : Tile) (m : NMode) (v : Mat) : Eff :=
  let scales := t.scaleCodes v
  let rows := (List.range (t.t1 + 1)).map (fun r => (List.range (t.t0 + 1)).map (fun c => s.narrowAt t m scales v c r))
  { wrs := (rows.zipIdx.map (fun p =>
        let a := t.a + p.2 * t.step
        let keep := (s.padByte (a + t.rowBytes - 1)).toNat / 16
        .spad k a (packUnits keep (unitsOf t.td.w (p.1.map Prod.fst)))))
      ++ (if blockLen t.td.f = 0 then [] else [.spad k t.scaleAddr (s.scaleLine t.scaleAddr (scales.toList.map (BitVec.ofNat 8)))])
    overflow := t.td.grad && rows.any (fun r => r.any Prod.snd) }

/-- The exact FP32 value of a code under its scale (R176): beyond the largest finite value it is infinite. -/
def widen1 (f : Fmt) (code scale : Nat) : W32 :=
  if blockLen f ≠ 0 && scale = 0xFF then 0x7FC00000#32
  else round32 .rne ((decodeFmt f code).scale (if blockLen f = 0 then 0 else (scale : Int) - 127))

/-- The codes of a tile area's row in the scratchpad. -/
def State.tileCodes (s : State) (k : Nat) (t : Tile) (r : Nat) : Array Nat :=
  (Mem.codes s.spad (spadKey k (t.a + r * t.step)) 0 t.td.w (t.t0 + 1)).toArray

/-- The scale bytes of a tile area in the scratchpad. -/
def State.tileScales (s : State) (k : Nat) (t : Tile) : Array Nat :=
  ((s.spadRead k t.scaleAddr t.scales).map BitVec.toNat).toArray

/-- Widens a tile area to FP32. -/
def State.widenTile (s : State) (k : Nat) (t : Tile) : Mat :=
  let sc := s.tileScales k t
  ((List.range (t.t1 + 1)).map (fun r =>
    let cs := s.tileCodes k t r
    ((List.range (t.t0 + 1)).map (fun c => widen1 t.td.f (cs.getD c 0) (sc.getD (t.blockNo (t.elem c r)) 0))).toArray)).toArray

end Sys2Proof.Machine
end

