-- ==== Sys2Proof/Machine/Mat.lean ====
section
/-! DEFINITION. MAT: products, drains, clears and split partials (R145 to R164, R190, R191), with the block accumulation of R56 to R60. -/

namespace Sys2Proof.Machine

/-! ## Operands -/

/-- An operand in the scratchpad: its format, TR bit, codes by row, scale bytes and row length. -/
structure Opnd where
  f : Fmt
  tr : Bool
  codes : Array (Array Nat)
  scales : Array Nat
  cols : Nat
  deriving Repr

/-- Reads an operand area: `outer` output rows or columns by `klen` (R148). -/
def State.opnd (s : State) (k : Nat) (r : SArea) (f : Fmt) (tr : Bool) (outer klen : Nat) : Opnd :=
  let rows := if tr then klen else outer
  let cols := if tr then outer else klen
  let n := if blockLen f = 0 then 0 else outer * klen / blockLen f
  { f := f, tr := tr, cols := cols
    codes := ((List.range rows).map (fun i => (Mem.codes s.spad (spadKey k (r.a + i * r.step f cols)) 0 (fmtBits f / 4) cols).toArray)).toArray
    scales := ((s.spadRead k (r.a + rows * r.step f cols) n).map BitVec.toNat).toArray }

/-- The scale code of the block that holds (outer index `m`, reduction index `k`). -/
def Opnd.scale (o : Opnd) (m k : Nat) : Nat :=
  let l := blockLen o.f
  if l = 0 then 127 else o.scales.getD (if o.tr then k / l * o.cols + m else m * (o.cols / l) + k / l) 0

/-- The unscaled value at (m, k); NaN under scale code 0xFF (R36, R57). -/
def Opnd.value (o : Opnd) (m k : Nat) : FVal :=
  if o.scale m k = 0xFF then .nan
  else decodeFmt o.f (if o.tr then (o.codes.getD k #[]).getD m 0 else (o.codes.getD m #[]).getD k 0)

/-- The product block length of a pair (R44). -/
def pairBlock (f g : Fmt) : Nat := if f = .ge3 ∨ g = .ge3 then 16 else 32

/-- One output element: R56 over `klen` reduction indices from the initial value, beginning at index `ka` of A and `kb` of B. -/
def dotAt (a b : Opnd) (klen m n ka kb : Nat) (init : W32) : W32 :=
  let l := pairBlock a.f b.f
  (List.range (klen / l)).foldl (fun acc j =>
    accBlock acc (blockSum ((List.range l).map (fun i => (a.value m (ka + l * j + i), b.value n (kb + l * j + i)))))
      ((a.scale m (ka + l * j) : Int) + (b.scale n (kb + l * j) : Int) - 254)) init

/-- One output element over whole operands. -/
def dot (a b : Opnd) (klen m n : Nat) (init : W32) : W32 := dotAt a b klen m n 0 0 init

/-! ## Products: fields and checks -/

/-- ACC, DRN, TRA and TRB of a product (R151), and its SMASK (R150). -/
def matAcc (i : Ins) : Bool := i.flag 0
def matDrn (i : Ins) : Bool := i.flag 1
def matTra (i : Ins) : Bool := i.flag 2
def matTrb (i : Ins) : Bool := i.flag 3
def matSmask (i : Ins) : Nat := i.at 9 2

/-- The word checks of a product (R149 to R151). -/
def matProductWord (kind : LKind) (i : Ins) : Bool :=
  i.flagsBelow 4 && i.zero 89 89 && i.zero 1 0 && i.at 70 54 ≤ 98303 && i.at 53 37 ≤ 98303 && i.at 36 20 ≤ 98303
    && (kind != .matFwd || (!matTra i && !matTrb i))
    && (matDrn i || (i.zero 36 20 && i.zero 19 15 && i.zero 14 10))

/-- The shape register of a product (R152). -/
def shapeK (v : Nat) : Nat := 32 * (fld v 11 0 + 1)
def shapeM (v : Nat) : Nat := fld v 15 12 + 1
def shapeN (v : Nat) : Nat := fld v 19 16 + 1
def shapeMask (v : Nat) : Nat := fld v 54 32

/-- The slots of a mask, ascending (R153). -/
def slotsOf (m : Nat) : List Nat := setBits 8 m

/-- The tile rows of a pass (R154), for GM, GN and P. -/
def passRows (gm gn p : Nat) : Nat := if gm * gn ≤ p then gm else p / gn

/-- The number of passes. -/
def passes (gm gn p : Nat) : Nat := ceilDiv gm (passRows gm gn p)

/-- The slot check of R154. -/
def passOk (gm gn p : Nat) (acc drn : Bool) : Bool :=
  p != 0 && gn ≤ 8 && gn ≤ p && (gm * gn ≤ p || (!acc && drn))

/-- Whether a range lies in the scratchpad. -/
def inSpad (a n : Nat) : Bool := a + n ≤ spadEnd

/-- The bytes of an area of `rows` rows with its scale area, for a format. DESIGN CHOICE (29): the spec does not say whether the unused bytes
after the last row of a pitched BF16 or FP32 area belong to it; here they do, for overlap. -/
def areaLen (r : SArea) (f : Fmt) (rows cols : Nat) : Nat :=
  rows * r.step f cols + (if blockLen f = 0 then 0 else roundUp (rows * cols / blockLen f) 64)

/-- The bytes of an area up to its last element or scale line. DESIGN CHOICE (29): 'beyond 0x5F_FFFF' of R164 is judged on them, as R132 and R174
judge a tile and a VEC area, so the unused bytes after the last row of a pitched BF16 or FP32 area do not count. -/
def areaReach (r : SArea) (f : Fmt) (rows cols : Nat) : Nat :=
  if blockLen f = 0 then (rows - 1) * r.step f cols + (if rows = 0 then 0 else packed f cols) else areaLen r f rows cols

/-- Whether two ranges share a byte. -/
def meets (a n b m : Nat) : Bool := a < b + m && b < a + n

/-- Whether the range from `lo` of `n` indices along the blocked dimension of a descriptor covers whole blocks (R73): it starts at a multiple of L
and ends at one, or at the logical extent. -/
def Td.wholeRange (t : Td) (lo n : Nat) : Bool :=
  blockLen t.f == 0 || (lo % blockLen t.f == 0 && ((lo + n) % blockLen t.f == 0 || lo + n == t.ext.getD t.bdim 0 + 1))

/-- Whether a descriptor may be the destination of a drain of `rows` × `cols` at an origin (R70, R73, R104). Along a dimension above 1 the
destination holds index 0 alone (R152). -/
def destOk (t : Td) (o0 o1 rows cols : Nat) : Bool :=
  t.ok && (match t.bdim with
    | 0 => t.wholeRange o0 cols
    | 1 => t.wholeRange o1 rows
    | _ => t.wholeRange 0 1)

/-- The mask descriptor of MAT.WGRADM (R161): control, block mask and row mask words, and whether every other bit is zero. DESIGN CHOICE (107): a
misaligned one is read where it stands; one beyond the scratchpad is not read. -/
def State.maskWords (s : State) (k a gm gn : Nat) : Bool × List Nat :=
  let bs := s.spadRead k a 320
  let c := leAt bs 0 8
  let bm := leAt bs 16 16
  let rm := leAt bs 32 256
  (c < 4 && leAt bs 8 8 == 0 && leAt bs 288 32 == 0 && bm < 2 ^ (gm * gn) && rm < 2 ^ (128 * gm),
    [if bitOf c 0 then bm else 0, if bitOf c 1 then rm else 0])

/-- The operation of a product as it is issued: SA, SB, SC, SD and SE, its descriptors, and its mask. -/
def State.productOp (s : State) (kind : LKind) (x : Nat) (i : Ins) : Op :=
  let sc := (s.reg x (i.at 75 71)).toNat
  { id := 0, src := .ctx x, kind := kind, ins := i, core := coreOf x, off := 0
    unit := match kind with | .matFwd => .farray | .matDgrad => .darray | _ => .warray
    regs := [s.reg x i.sa, s.reg x i.sb, s.reg x (i.at 75 71), s.reg x (i.at 19 15), s.reg x (i.at 14 10)]
    tds := [s.tdAt x (i.at 70 54), s.tdAt x (i.at 53 37)] ++ (if matDrn i then [s.tdAt x (i.at 36 20)] else [])
    words := if kind = .matWgradm then (s.maskWords (coreOf x) (shapeMask sc) (shapeM sc) (shapeN sc)).2 else [] }

def Op.r (o : Op) (j : Nat) : Nat := (o.regs.getD j 0).toNat
def Op.td (o : Op) (j : Nat) : Td := o.tds.getD j (tdOfBytes [])

/-- Check 7 of a product (R152, R154, R164). -/
def State.productFaults (s : State) (o : Op) : List Nat :=
  let i := o.ins
  let k := shapeK (o.r 2)
  let gm := shapeM (o.r 2)
  let gn := shapeN (o.r 2)
  let ma := shapeMask (o.r 2)
  let p := (slotsOf (matSmask i)).length
  let (a, b, d) := (areaOf (o.r 0), areaOf (o.r 1), areaOf (o.r 3))
  let (ta, tb, tc) := (o.td 0, o.td 1, o.td 2)
  let cols (tr : Bool) (n : Nat) : Nat := if tr then n else k
  let rows (tr : Bool) (n : Nat) : Nat := if tr then k else n
  let bd (t : Td) (tr : Bool) : Bool := blockLen t.f == 0 || t.bdim == (if tr then 1 else 0)
  let la := areaLen a ta.f (rows (matTra i) (128 * gm)) (cols (matTra i) (128 * gm))
  let lb := areaLen b tb.f (rows (matTrb i) (128 * gn)) (cols (matTrb i) (128 * gn))
  let ld := areaLen d tc.f (128 * gm) (128 * gn)
  let mask := o.kind == .matWgradm
  need (ta.ok && tb.ok && bd ta (matTra i) && bd tb (matTrb i)
      && a.pitchOk ta.f (cols (matTra i) (128 * gm)) && b.pitchOk tb.f (cols (matTrb i) (128 * gn))
      && (!matDrn i || (destOk tc (fld (o.r 4) 19 0) (fld (o.r 4) 39 20) (128 * gm) (128 * gn) && d.pitchOk tc.f (128 * gn)))
      && (!mask || !inSpad ma 320 || (s.maskWords o.core ma gm gn).1)) evIllegalEncoding
    ++ need (passOk gm gn p (matAcc i) (matDrn i)) evAccOvercommit
    ++ need (areaRegOk (o.r 0) && areaRegOk (o.r 1) && o.r 2 < 2 ^ 55 && fld (o.r 2) 31 20 == 0
      && (if mask then ma % 64 == 0 && inSpad ma 320 else ma == 0)
      && inSpad a.a (areaReach a ta.f (rows (matTra i) (128 * gm)) (cols (matTra i) (128 * gm)))
      && inSpad b.a (areaReach b tb.f (rows (matTrb i) (128 * gn)) (cols (matTrb i) (128 * gn)))
      && (!matDrn i || (areaRegOk (o.r 3) && o.r 4 < 2 ^ 40 && inSpad d.a (areaReach d tc.f (128 * gm) (128 * gn)) && !meets d.a ld a.a la && !meets d.a ld b.a lb))) evBoundsFault

/-- ACC_REPASS of a product that has just entered its queue: passes, GM, GN, P and the instruction offset (R194). DESIGN CHOICE (109): R154 gives no
moment for the record; it is made on entry to the queue, so a product that faults at check 8 has made it too. -/
def State.repass (s t : State) (x : Nat) (i : Ins) (kind : LKind) : State :=
  if !(t.ops.any (fun o => s.nextOp ≤ o.id && o.src == .ctx x && o.kind == kind)) then t
  else
    let sc := (s.productOp kind x i).r 2
    let p := (slotsOf (matSmask i)).length
    let n := passes (shapeM sc) (shapeN sc) p
    if 1 < n then
      t.ev (srcOf 0x01 x) evAccRepass n (shapeM sc) (toBytes 4 (shapeN sc) ++ toBytes 4 p ++ toBytes 7 (s.pcUnits x))
    else t

/-- Whether the injected ACC_OVERCOMMIT applies to the next MAT of a context. -/
def State.injOvercommit (s : State) (x : Nat) : Bool := s.injArmed evAccOvercommit (srcOf 0x01 x)

/-- A MAT instruction: its decode may report an injected ACC_OVERCOMMIT (R440). -/
def State.matIssue (s : State) (x : Nat) (i : Ins) (word : Bool) (op : State → List Nat × Op) : State :=
  s.issueLong x i word (fun s => if s.injOvercommit x then ([evAccOvercommit], (op s).2) else op s)

/-- After the issue of a MAT instruction that an injected ACC_OVERCOMMIT stopped, the point has reported once. -/
def State.matInjected (s t : State) (x : Nat) : State :=
  if s.injOvercommit x && (t.ctx x).st == .faulted && (s.ctx x).st == .running then t.injReport else t

/-- A product. -/
def matProduct (kind : LKind) (x : Fin 512) (i : Ins) (s : State) : Host.Outcome State Fault Refusal :=
  .next (s.repass (s.matInjected (s.matIssue x i (matProductWord kind i)
    (fun s => (s.productFaults (s.productOp kind x i), s.productOp kind x i))) x) x i kind)

def execMatFwd (x : Fin 512) (i : Ins) (s : State) : Host.Outcome State Fault Refusal := matProduct .matFwd x i s
def execMatDgrad (x : Fin 512) (i : Ins) (s : State) : Host.Outcome State Fault Refusal := matProduct .matDgrad x i s
def execMatWgrad (x : Fin 512) (i : Ins) (s : State) : Host.Outcome State Fault Refusal := matProduct .matWgrad x i s
def execMatWgradm (x : Fin 512) (i : Ins) (s : State) : Host.Outcome State Fault Refusal := matProduct .matWgradm x i s

/-! ## What a product does (R153 to R155, R161, R162) -/

/-- The array of an operation: 0 F, 1 D, 2 W. -/
def Op.arr (o : Op) : Nat := match o.unit with | .farray => 0 | .darray => 1 | _ => 2

/-- Whether element (m, n) of a group with `gn` tiles in a row is masked. -/
def Op.masked (o : Op) (gn m n : Nat) : Bool :=
  (o.words.getD 0 0).testBit (m / 128 * gn + n / 128) || (o.words.getD 1 0).testBit m

/-- The origin that a register of R152 gives. -/
def originOf (v : Nat) : List Nat := [fld v 19 0, fld v 39 20, 0, 0, 0]

/-- The slot of tile (i, j) of a group. -/
def slotAt (slots : List Nat) (gm gn i j : Nat) : Nat :=
  slots.getD (i % passRows gm gn slots.length * gn + j) 0

/-- The words of a slot, all of them. -/
def fullSlot (t : List W32) : List W32 := if t.length = 16384 then t else List.replicate 16384 0

/-- The elements of a product: those that are not masked by R56, the others +0 or what their slot holds. -/
def State.productMat (s : State) (o : Op) : Mat :=
  let k := shapeK (o.r 2)
  let gm := shapeM (o.r 2)
  let gn := shapeN (o.r 2)
  let slots := slotsOf (matSmask o.ins)
  let a := s.opnd o.core (areaOf (o.r 0)) (o.td 0).f (matTra o.ins) (128 * gm) k
  let b := s.opnd o.core (areaOf (o.r 1)) (o.td 1).f (matTrb o.ins) (128 * gn) k
  let held := (List.range 8).map (fun j => (s.accSlot o.core o.arr j).toArray)
  matOf (128 * gm) (128 * gn) (fun m n =>
    let init := if matAcc o.ins then (held.getD (slotAt slots gm gn (m / 128) (n / 128)) #[]).getD (128 * (m % 128) + n % 128) 0 else 0
    if o.masked gn m n then init else dot a b k m n init)

/-- The words of tile (i, j) of a matrix. -/
def Mat.tileWords (v : Mat) (i j : Nat) : List W32 :=
  (List.range 16384).map (fun e => v.at (128 * i + e / 128) (128 * j + e % 128))

/-- What a product writes: its slots, pass after pass, and its fused drain, in which masked elements are zero. -/
def State.productEff (s : State) (o : Op) : Eff :=
  let gm := shapeM (o.r 2)
  let gn := shapeN (o.r 2)
  let slots := slotsOf (matSmask o.ins)
  let v := s.productMat o
  let e : Eff := { wrs := (List.range gm).flatMap (fun i => (List.range gn).map (fun j =>
    .acc o.core o.arr (slotAt slots gm gn i j) (v.tileWords i j))) }
  if matDrn o.ins then
    e.and (s.narrowTile o.core ((areaOf (o.r 3)).tile (o.td 2) (originOf (o.r 4)) (128 * gm) (128 * gn)) (kindMode (o.td 2).kind)
      (matOf (128 * gm) (128 * gn) (fun m n => if o.masked gn m n then 0 else v.at m n)))
  else e

/-! ## MAT.DRAIN and MAT.CLEAR (R157 to R159) -/

/-- The ARR field, and the unit of the array that it names. -/
def matArr (i : Ins) : Nat := i.flags.toNat % 4
def arrUnit : Nat → CoreUnit
  | 0 => .farray
  | 1 => .darray
  | _ => .warray

def drnDual (i : Ins) : Bool := i.flag 2
def drnRaw (i : Ins) : Bool := i.flag 3
def drnEpi (i : Ins) : Nat := i.flags.toNat / 16 % 4
def drnSmask (i : Ins) : Nat := i.at 31 24
def drnGn (i : Ins) : Nat := i.at 23 20 + 1

/-- The word checks of MAT.DRAIN. -/
def matDrainWord (i : Ins) : Bool :=
  let n := (slotsOf (drnSmask i)).length
  i.flagsBelow 6 && matArr i != 3 && i.zero 89 89 && i.zero 19 0 && i.at 70 54 ≤ 98303 && i.at 53 37 ≤ 98303
    && drnGn i ≤ 8 && n % drnGn i == 0
    && (!drnRaw i || (!drnDual i && i.zero 70 54 && i.zero 94 90 && i.zero 75 71))
    && (drnDual i || (i.zero 53 37 && i.zero 94 90))
    && (drnEpi i != 0 || i.zero 36 32)

/-- The operation of MAT.DRAIN: SA, SB, SC and SE, and its descriptors. -/
def State.drainOp (s : State) (x : Nat) (i : Ins) : Op :=
  { id := 0, src := .ctx x, kind := .matDrain, ins := i, core := coreOf x, off := 0, unit := arrUnit (matArr i)
    regs := [s.reg x i.sa, s.reg x i.sb, s.reg x (i.at 75 71), s.reg x (i.at 36 32)]
    tds := if drnRaw i then [] else s.tdAt x (i.at 70 54) :: (if drnDual i then [s.tdAt x (i.at 53 37)] else []) }

/-- The tile rows of a drain. -/
def drnGm (i : Ins) : Nat := (slotsOf (drnSmask i)).length / drnGn i

/-- Check 7 of MAT.DRAIN (R157, R164). DESIGN CHOICE (139): with EPI 1 no bias row is read, and the bias address is still checked for its alignment and its zero bits, but
not for its range. -/
def drainFaults (o : Op) : List Nat :=
  let i := o.ins
  let rows := 128 * drnGm i
  let cols := 128 * drnGn i
  let area (j : Nat) : SArea := areaOf (o.r j)
  let o0 := fld (o.r 2) 19 0
  let o1 := fld (o.r 2) 39 20
  let (t1, t2) := (o.td 0, o.td 1)
  let one (j : Nat) (f : Fmt) : Bool := areaRegOk (o.r j) && inSpad (area j).a (areaReach (area j) f rows cols)
  need (if drnRaw i then (area 0).pitchOk .fp32 cols
      else destOk t1 o0 o1 rows cols && (area 0).pitchOk t1.f cols
        && (!drnDual i || (destOk t2 o0 o1 rows cols && (area 1).pitchOk t2.f cols && t1.fmt == t2.fmt && t1.kind == t2.kind && t1.ext == t2.ext
          && t1.bdim != t2.bdim))) evIllegalEncoding
    ++ need ((if drnRaw i then one 0 .fp32 else one 0 t1.f) && (!drnDual i || one 1 t2.f) && o.r 2 < 2 ^ 40
      && fld (o.r 3) 31 23 == 0 && fld (o.r 3) 5 0 == 0 && (drnEpi i < 2 || inSpad (fld (o.r 3) 22 0) (512 * drnGn i))) evBoundsFault

def execMatDrain (x : Fin 512) (i : Ins) (s : State) : Host.Outcome State Fault Refusal :=
  .next (s.matInjected (s.matIssue x i (matDrainWord i) (fun s => (drainFaults (s.drainOp x i), s.drainOp x i))) x)

/-- The contents of the slots of MAT.DRAIN or MAT.PDRAIN, which it reads at its start and then leaves to the array's next operation (R163). -/
def State.drainSnap (s : State) (o : Op) : List (List W32) := (slotsOf (drnSmask o.ins)).map (s.accSlot o.core o.arr)

/-- The epilogue (R158). -/
def epilogue (epi : Nat) (mul bias v : W32) : W32 :=
  match epi with
  | 0 => v
  | 1 => fmul32 .rne v mul
  | 2 => fadd32 .rne v bias
  | _ => ffma32 .rne v mul bias

/-- What MAT.DRAIN writes, from the slots that it read when it started (R163). DESIGN CHOICE (108): no rule forbids that the two areas of a DUAL
drain overlap or orders their writes; the second copy is written last. -/
def State.drainEff (s : State) (o : Op) : Eff :=
  let i := o.ins
  let rows := 128 * drnGm i
  let cols := 128 * drnGn i
  let held := o.snap.map List.toArray
  let bias := (s.areaVals o.core { a := fld (o.r 3) 22 0, pitch := 0 } .fp32 1 cols)
  let v := matOf rows cols (fun m n =>
    epilogue (drnEpi i) (BitVec.ofNat 32 (fld (o.r 3) 63 32)) (if drnEpi i < 2 then 0 else bias.at 0 n)
      ((held.getD (m / 128 * drnGn i + n / 128) #[]).getD (128 * (m % 128) + n % 128) 0))
  if rows = 0 then {}
  else if drnRaw i then { wrs := areaWrites o.core (areaOf (o.r 0)) rows cols v }
  else
    (o.tds.zipIdx.map (fun p => s.narrowTile o.core ((areaOf (o.r p.2)).tile p.1 (originOf (o.r 2)) rows cols) (kindMode p.1.kind) v)).foldl
      Eff.and {}

/-- The word checks of MAT.CLEAR. -/
def matClearWord (i : Ins) : Bool := i.flagsBelow 2 && matArr i != 3 && i.zero 99 89 && i.zero 75 32 && i.zero 23 0

def execMatClear (x : Fin 512) (i : Ins) (s : State) : Host.Outcome State Fault Refusal :=
  .next (s.matInjected (s.matIssue x i (matClearWord i) (fun _ =>
    ([], { id := 0, src := .ctx x, kind := .matClear, ins := i, core := coreOf x, off := 0, unit := arrUnit (matArr i) }))) x)

/-- What MAT.CLEAR writes. -/
def clearEff (o : Op) : Eff := { wrs := (slotsOf (drnSmask o.ins)).map (fun j => .acc o.core o.arr j []) }

/-! ## Split partials (R59, R60, R160, R191) -/

/-- The word checks of MAT.PDRAIN and MAT.COMBINE. -/
def matSplitWord (acc : Bool) (i : Ins) : Bool :=
  i.flagsBelow (if acc then 3 else 2) && matArr i != 3 && i.zero 89 89 && i.zero 75 32 && i.zero 23 0 && (slotsOf (drnSmask i)).length == 1

/-- The fields of the register SB: S, i and nblocks. -/
def splitS (v : Nat) : Nat := fld v 6 0
def splitI (v : Nat) : Nat := fld v 13 8
def splitBlocks (v : Nat) : Nat := fld v 47 16

/-- The operation of MAT.PDRAIN or MAT.COMBINE: SA and SB. -/
def State.splitOp (s : State) (kind : LKind) (x : Nat) (i : Ins) : Op :=
  { id := 0, src := .ctx x, kind := kind, ins := i, core := coreOf x, off := 0, unit := arrUnit (matArr i)
    regs := [s.reg x i.sa, s.reg x i.sb] }

/-- Check 7 of MAT.PDRAIN and MAT.COMBINE. -/
def State.splitFaults (s : State) (o : Op) : List Nat :=
  let v := o.r 1
  let n := splitS v
  need (1 ≤ n && n ≤ 64 && splitI v < n && n ≤ splitBlocks v && (o.kind == .matPdrain || splitI v == 0)) evIllegalEncoding
    ++ need (o.r 0 < 1024 && o.r 0 + n ≤ 256 * s.mtr.caWays && fld v 7 7 == 0 && fld v 15 14 == 0 && v < 2 ^ 48) evBoundsFault

def matSplit (kind : LKind) (acc : Bool) (x : Fin 512) (i : Ins) (s : State) : Host.Outcome State Fault Refusal :=
  .next (s.matInjected (s.matIssue x i (matSplitWord acc i) (fun s => (s.splitFaults (s.splitOp kind x i), s.splitOp kind x i))) x)

def execMatPdrain (x : Fin 512) (i : Ins) (s : State) : Host.Outcome State Fault Refusal := matSplit .matPdrain false x i s
def execMatCombine (x : Fin 512) (i : Ins) (s : State) : Host.Outcome State Fault Refusal := matSplit .matCombine true x i s

/-- The slot of MAT.PDRAIN and MAT.COMBINE. -/
def Op.oneSlot (o : Op) : Nat := (slotsOf (drnSmask o.ins)).headD 0

/-- What MAT.PDRAIN writes, from the slot that it read when it started (R163). -/
def pdrainEff (o : Op) : Eff :=
  { wrs := [.combine (o.r 0 + splitI (o.r 1)) (fullSlot (o.snap.headD []))] }

/-- Part `i` of a combine area: a unit that no part has been written to holds undefined words (R190). -/
def State.part (s : State) (o : Op) (i : Nat) : Array W32 :=
  match Tab.get [] s.mtr.combine (o.r 0 + i) with
  | [] => ((List.range 16384).map (fun j => Config.freeWord (s.free + 16384 * i + j))).toArray
  | t => t.toArray

/-- What MAT.COMBINE writes: R60 in ascending order of the parts. -/
def State.combineEff (s : State) (o : Op) : Eff :=
  let init := if o.ins.flag 2 then (s.accSlot o.core o.arr o.oneSlot).toArray else #[]
  let parts := (List.range (splitS (o.r 1))).map (s.part o)
  { wrs := [.acc o.core o.arr o.oneSlot ((List.range 16384).map (fun j =>
      parts.foldl (fun a p => fadd32 .rne a (p.getD j 0)) (init.getD j 0)))] }

/-- What a MAT operation writes. -/
def State.matEff (s : State) (o : Op) : Eff :=
  match o.kind with
  | .matDrain => s.drainEff o
  | .matClear => clearEff o
  | .matPdrain => pdrainEff o
  | .matCombine => s.combineEff o
  | _ => s.productEff o

end Sys2Proof.Machine
end

