-- ==== Sys2Proof/Machine/Vec.lean ====
section
/-! DEFINITION. VEC: elementwise operations, special functions, reductions, conversions and optimiser updates (R165 to R184), with the SETIMM
latch (R130). -/

namespace Sys2Proof.Machine

/-! ## Issue -/

/-- The context's SETIMM latch becomes invalid. -/
def State.clearLatch (s : State) (x : Nat) : State := s.setCtx x { s.ctx x with latchValid := false }

/-- The value of the immediate field, which a valid latch replaces (R130). -/
def State.immOf (s : State) (x : Nat) (i : Ins) : W32 := if (s.ctx x).latchValid then (s.ctx x).latch else BitVec.ofNat 32 (i.at 31 0)

/-- The entry of a VEC instruction into its queue: an operation with an immediate consumes the latch. -/
def State.enqueueVec (s : State) (x : Nat) (imm : Bool) (o : Op) : State :=
  let t := s.enqueue x o
  if imm && t.nextOp != s.nextOp then t.clearLatch x else t

/-- A VEC instruction past checks 1 to 6, with the latch check of R130. -/
def State.runVec (s : State) (x : Nat) (i : Ins) (imm : Bool) (op : State → List Nat × Op) : State :=
  s.checked x (need (imm || !(s.ctx x).latchValid) evIllegalEncoding ++ (op s).1)
    (fun s => s.enqueueVec x imm { (op s).2 with sig := i.sig, ins := i })

/-- The issue of a VEC instruction. -/
def State.issueVec (s : State) (x : Nat) (i : Ins) (word imm : Bool) (op : State → List Nat × Op) : State :=
  s.issue x i (word && i.sigOk (coreOf x)) (fun s => (s.clearLatch x).skipLong x i) (fun s => s.runVec x i imm op)

/-! ## Fields (R166, R167) -/

def vecMz (i : Ins) : Bool := i.flag 0
def vecRmBits (i : Ins) : Nat := i.flags.toNat / 2 % 4
def vecRm (i : Ins) : Rm := if vecRmBits i = 1 then .rtz else .rne
def vecWid (i : Ins) : Bool := i.flag 3

/-- What an operation takes: B, C, an immediate, exactness, and whether it reduces. -/
structure VecForm where
  b : Bool := false
  c : Bool := false
  imm : Bool := false
  exact : Bool := false
  red : Bool := false
  deriving DecidableEq, Repr

/-- The forms of R170 and R172. -/
def vecForm : LKind → VecForm
  | .vecAdd | .vecSub | .vecMul => { b := true }
  | .vecFma => { b := true, c := true }
  | .vecMax | .vecMin => { b := true, exact := true }
  | .vecAbs => { exact := true }
  | .vecMuli | .vecAddi => { imm := true }
  | .vecSel => { b := true, c := true, imm := true, exact := true }
  | .vecRsum => { red := true }
  | .vecRmax | .vecRamax => { exact := true, red := true }
  | _ => {}

/-- Whether the operation reads an area C: an elementwise source, or a reduction's C where SC is not s0. -/
def vecUsesC (f : VecForm) (i : Ins) : Bool := f.c || (f.red && !i.zero 70 66)

/-- The word checks of an operation in the layout of R166. DESIGN CHOICE (140): a reduction whose SC is s0 has FC and BC of C zero, or raises ILLEGAL_ENCODING. -/
def vecWord (f : VecForm) (i : Ins) : Bool :=
  i.flagsBelow 3 && i.zero 89 89 && i.zero 43 32 && i.sa != 0 && (f.imm || i.zero 31 0)
    && i.at 55 54 ≤ 1
    && (if f.b then i.at 53 52 ≤ 1 && i.at 49 48 ≤ 2 else i.zero 53 52 && i.zero 49 48 && i.zero 75 71)
    && (if vecUsesC f i then i.at 51 50 ≤ 1 && i.at 47 46 ≤ 2 else i.zero 51 50 && i.zero 47 46 && i.zero 70 66)
    && i.at 45 44 ≤ 2 && (!i.zero 60 56 || i.zero 45 44)
    && vecRmBits i ≤ (if f.exact then 0 else 1)
    && (!f.red || (!vecMz i && (i.zero 70 66 || i.at 47 46 == 2)))

/-! ## Areas and the bytes they access (R168, R169, R174) -/

/-- A source as an operation reads it: its area, format, broadcast form, and whether it is s0. -/
structure Source where
  r : SArea
  f : Fmt
  form : Nat
  none : Bool
  deriving DecidableEq, Repr

/-- The format of a code of R166. -/
def vecFmt (v : Nat) : Fmt := if v = 1 then .bf16 else .fp32

/-- The columns and rows of a shape register. -/
def shapeCols (v : Nat) : Nat := fld v 15 0 + 1
def shapeRows (v : Nat) : Nat := fld v 31 16 + 1

/-- The rows and columns that a source area holds. -/
def Source.dims (q : Source) (rows cols : Nat) : Nat × Nat :=
  match q.form with
  | 0 => (rows, cols)
  | 1 => (1, cols)
  | _ => (1, rows)

/-- The byte ranges of the rows of an area: first byte and length. -/
def rowRanges (a step n w : Nat) : List (Nat × Nat) := (List.range n).map (fun j => (a + j * step, w))

/-- The byte ranges that a source accesses. -/
def Source.ranges (q : Source) (rows cols : Nat) : List (Nat × Nat) :=
  if q.none then [] else rowRanges q.r.a (q.r.step q.f (q.dims rows cols).2) (q.dims rows cols).1 (packed q.f (q.dims rows cols).2)

/-- Whether two lists of rising, disjoint ranges share a byte; `n` bounds their lengths together. -/
def rangesMeet : Nat → List (Nat × Nat) → List (Nat × Nat) → Bool
  | n + 1, (a, w) :: r, (b, v) :: t =>
    meets a w b v || (if a + w ≤ b + v then rangesMeet n r ((b, v) :: t) else rangesMeet n ((a, w) :: r) t)
  | _, _, _ => false

def overlap (l m : List (Nat × Nat)) : Bool := rangesMeet (l.length + m.length) l m

/-- Whether every range lies in the scratchpad. -/
def rangesIn (l : List (Nat × Nat)) : Bool := l.all (fun p => p.1 + p.2 ≤ spadEnd)

/-- The distance between the rows of an element mask. -/
def maskStep (cols : Nat) : Nat := ceilDiv cols 512 * 64

/-- The byte ranges that a mask occupies (R173). -/
def maskRanges (a mk rows cols : Nat) : List (Nat × Nat) :=
  match mk with
  | 0 => rowRanges a (maskStep cols) rows (ceilDiv cols 8)
  | 1 => [(a, ceilDiv rows 8)]
  | _ => [(a, ceilDiv cols 8)]

/-- The bits of a mask: its bytes from its address, its kind and columns. -/
structure MaskBits where
  bytes : Array Byte
  kind : Nat
  cols : Nat
  none : Bool

/-- Whether element (r, c) is masked. -/
def MaskBits.at (m : MaskBits) (r c : Nat) : Bool :=
  let bit (base j : Nat) : Bool := (m.bytes.getD (base + j / 8) 0).getLsbD (j % 8)
  if m.none then false
  else match m.kind with
    | 0 => bit (r * maskStep m.cols) c
    | 1 => bit 0 r
    | _ => bit 0 c

/-- Reads a mask from the scratchpad; s0 masks nothing. -/
def State.maskBits (s : State) (k : Nat) (none : Bool) (a mk rows cols : Nat) : MaskBits :=
  let n := match mk with
    | 0 => rows * maskStep cols
    | 1 => ceilDiv rows 8
    | _ => ceilDiv cols 8
  { bytes := if none then #[] else (s.spadRead k a n).toArray, kind := mk, cols := cols, none := none }

/-! ## Elementwise operations, special functions and reductions (R170 to R172) -/

/-- The operation in the layout of R166: SD, SA, SB, SC, SS and SM, and its immediate. -/
def State.vecOp (s : State) (kind : LKind) (x : Nat) (i : Ins) : Op :=
  { id := 0, src := .ctx x, kind := kind, ins := i, core := coreOf x, off := 0, unit := .vector, imm := s.immOf x i
    regs := [s.reg x (i.at 99 95), s.reg x (i.at 94 90), s.reg x (i.at 75 71), s.reg x (i.at 70 66), s.reg x (i.at 65 61), s.reg x (i.at 60 56)] }

/-- The sources of an operation: A, and B and C where it uses them. -/
def Op.vecA (o : Op) : Source := { r := areaOf (o.r 1), f := vecFmt (o.ins.at 55 54), form := 0, none := o.ins.zero 94 90 }
def Op.vecB (o : Op) : Source := { r := areaOf (o.r 2), f := vecFmt (o.ins.at 53 52), form := o.ins.at 49 48, none := o.ins.zero 75 71 }
def Op.vecC (o : Op) : Source := { r := areaOf (o.r 3), f := vecFmt (o.ins.at 51 50), form := o.ins.at 47 46, none := o.ins.zero 70 66 }

/-- The destination of an operation, as rows of FP32 values: a reduction's is one packed row. -/
def Op.vecD (o : Op) : Source :=
  { r := areaOf (o.r 0), f := .fp32, form := if (vecForm o.kind).red then 2 else 0, none := false }

/-- Whether the destination may overlap a source: elementwise the same area, for a reduction its C (R174). DESIGN CHOICE (141): a BF16 source at the destination's
address, pitch and form is not the same area, for its elements are not those of the destination. -/
def Op.vecSame (o : Op) (q : Source) (isC : Bool) (rows cols : Nat) : Bool :=
  let d := o.vecD
  q.f == .fp32 && q.r.a == d.r.a && q.form == d.form
    && (if (vecForm o.kind).red then isC else q.r.step q.f (q.dims rows cols).2 == d.r.step d.f (d.dims rows cols).2)

/-- Check 7 of an operation in the layout of R166. -/
def vecFaults (o : Op) : List Nat :=
  let f := vecForm o.kind
  let i := o.ins
  let rows := shapeRows (o.r 4)
  let cols := shapeCols (o.r 4)
  let d := o.vecD
  let qs : List (Source × Bool × Nat) :=
    [(o.vecA, false, o.r 1)] ++ (if f.b then [(o.vecB, false, o.r 2)] else []) ++ (if vecUsesC f i then [(o.vecC, true, o.r 3)] else [])
  let qs := qs.filter (fun p => !p.1.none)
  let dr := d.ranges rows cols
  let mr := if i.zero 60 56 then [] else maskRanges (fld (o.r 5) 22 0) (i.at 45 44) rows cols
  need (d.r.pitchOk d.f (d.dims rows cols).2 && qs.all (fun p => p.1.r.pitchOk p.1.f (p.1.dims rows cols).2)) evIllegalEncoding
    ++ need (areaRegOk (o.r 0) && o.r 4 < 2 ^ 32 && qs.all (fun p => areaRegOk p.2.2)
      && (i.zero 60 56 || (o.r 5 < 2 ^ 23 && o.r 5 % 64 == 0))
      && rangesIn dr && rangesIn mr && qs.all (fun p => rangesIn (p.1.ranges rows cols))
      && !overlap dr mr
      && qs.all (fun p => o.vecSame p.1 p.2.1 rows cols || !overlap dr (p.1.ranges rows cols))) evBoundsFault

/-- The issue of an operation in the layout of R166. -/
def vecIssue (kind : LKind) (x : Fin 512) (i : Ins) (s : State) : Host.Outcome State Fault Refusal :=
  .next (s.issueVec x i (vecWord (vecForm kind) i) (vecForm kind).imm (fun s => (vecFaults (s.vecOp kind x i), s.vecOp kind x i)))

def execVecAdd (x : Fin 512) (i : Ins) (s : State) : Host.Outcome State Fault Refusal := vecIssue .vecAdd x i s
def execVecSub (x : Fin 512) (i : Ins) (s : State) : Host.Outcome State Fault Refusal := vecIssue .vecSub x i s
def execVecMul (x : Fin 512) (i : Ins) (s : State) : Host.Outcome State Fault Refusal := vecIssue .vecMul x i s
def execVecFma (x : Fin 512) (i : Ins) (s : State) : Host.Outcome State Fault Refusal := vecIssue .vecFma x i s
def execVecMax (x : Fin 512) (i : Ins) (s : State) : Host.Outcome State Fault Refusal := vecIssue .vecMax x i s
def execVecMin (x : Fin 512) (i : Ins) (s : State) : Host.Outcome State Fault Refusal := vecIssue .vecMin x i s
def execVecAbs (x : Fin 512) (i : Ins) (s : State) : Host.Outcome State Fault Refusal := vecIssue .vecAbs x i s
def execVecMuli (x : Fin 512) (i : Ins) (s : State) : Host.Outcome State Fault Refusal := vecIssue .vecMuli x i s
def execVecAddi (x : Fin 512) (i : Ins) (s : State) : Host.Outcome State Fault Refusal := vecIssue .vecAddi x i s
def execVecSel (x : Fin 512) (i : Ins) (s : State) : Host.Outcome State Fault Refusal := vecIssue .vecSel x i s
def execVecExp2 (x : Fin 512) (i : Ins) (s : State) : Host.Outcome State Fault Refusal := vecIssue .vecExp2 x i s
def execVecLog2 (x : Fin 512) (i : Ins) (s : State) : Host.Outcome State Fault Refusal := vecIssue .vecLog2 x i s
def execVecRcp (x : Fin 512) (i : Ins) (s : State) : Host.Outcome State Fault Refusal := vecIssue .vecRcp x i s
def execVecRsqrt (x : Fin 512) (i : Ins) (s : State) : Host.Outcome State Fault Refusal := vecIssue .vecRsqrt x i s
def execVecRsum (x : Fin 512) (i : Ins) (s : State) : Host.Outcome State Fault Refusal := vecIssue .vecRsum x i s
def execVecRmax (x : Fin 512) (i : Ins) (s : State) : Host.Outcome State Fault Refusal := vecIssue .vecRmax x i s
def execVecRamax (x : Fin 512) (i : Ins) (s : State) : Host.Outcome State Fault Refusal := vecIssue .vecRamax x i s

/-- The result of an elementwise operation or special function (R170, R171). -/
def vecElem (kind : LKind) (rm : Rm) (imm a b c : W32) : W32 :=
  match kind with
  | .vecAdd => fadd32 rm a b
  | .vecSub => fsub32 rm a b
  | .vecMul => fmul32 rm a b
  | .vecFma => ffma32 rm a b c
  | .vecMax => fmax32 a b
  | .vecMin => fmin32 a b
  | .vecAbs => fabs32 a
  | .vecMuli => fmul32 rm a imm
  | .vecAddi => fadd32 rm a imm
  | .vecSel => canon32 (if (val32 a).gt (val32 imm) then b else c)
  | .vecExp2 => fexp232 rm a
  | .vecLog2 => flog232 rm a
  | .vecRcp => frcp32 rm a
  | _ => frsqrt32 rm a

/-- The values that a source gives at (r, c). -/
def State.sourceVals (s : State) (k : Nat) (q : Source) (rows cols : Nat) : Nat → Nat → W32 :=
  let m : Mat := if q.none then #[] else s.areaVals k q.r q.f (q.dims rows cols).1 (q.dims rows cols).2
  fun r c => if q.none then 0 else
    match q.form with
    | 0 => m.at r c
    | 1 => m.at 0 c
    | _ => m.at 0 r

/-- The identity and the operation of a reduction (R172). -/
def redId : LKind → W32
  | .vecRsum => 0x80000000#32
  | .vecRmax => 0xFF800000#32
  | _ => 0#32

def redOp (kind : LKind) (rm : Rm) (a b : W32) : W32 :=
  match kind with
  | .vecRsum => fadd32 rm a b
  | .vecRmax => fmax32 a b
  | _ => fmax32 (fabs32 a) (fabs32 b)

/-- One level of the pairwise tree. -/
def pairUp (op : W32 → W32 → W32) : List W32 → List W32
  | a :: b :: r => op a b :: pairUp op r
  | l => l

/-- A reduction of one row: 256 lanes over the chunks in ascending order, then eight levels of the tree. -/
def reduceRow (kind : LKind) (rm : Rm) (cols : Nat) (f : Nat → W32) : W32 :=
  let lanes := (List.range 256).map (fun j =>
    (List.range (ceilDiv cols 256)).foldl (fun a c =>
      redOp kind rm a (if 256 * c + j < cols then f (256 * c + j) else redId kind)) (redId kind))
  ((List.range 8).foldl (fun l _ => pairUp (redOp kind rm) l) lanes).headD 0

/-- What an operation in the layout of R166 writes; with MZ 0 a masked element is not written (R173). -/
def State.vecEff (s : State) (o : Op) : Eff :=
  let k := o.core
  let rows := shapeRows (o.r 4)
  let cols := shapeCols (o.r 4)
  let rm := vecRm o.ins
  let a := s.sourceVals k o.vecA rows cols
  let b := s.sourceVals k o.vecB rows cols
  let c := s.sourceVals k o.vecC rows cols
  let m := s.maskBits k (o.ins.zero 60 56) (o.r 5) (o.ins.at 45 44) rows cols
  let d := areaOf (o.r 0)
  if (vecForm o.kind).red then
    { wrs := areaWrites k d 1 rows (matOf 1 rows (fun _ r =>
        let v := reduceRow o.kind rm cols (fun j => if m.at r j then redId o.kind else a r j)
        if o.ins.zero 70 66 then v else redOp o.kind rm (c r 0) v)) }
  else
    { wrs := (List.range rows).flatMap (fun r => rowWrites k 4 (d.a + r * d.step .fp32 cols) ((List.range cols).map (fun j =>
        if m.at r j then (if vecMz o.ins then some (toBytes 4 0) else none)
        else some (toBytes 4 (vecElem o.kind rm o.imm (a r j) (b r j) (c r j)).toNat)))) }

/-! ## VEC.CVT (R175, R176) -/

/-- The word checks of VEC.CVT. -/
def vecCvtWord (i : Ins) : Bool :=
  i.flagsBelow 4 && !vecMz i && vecRmBits i ≤ (if vecWid i then 0 else 2) && i.zero 89 89 && i.zero 48 0 && i.at 70 54 ≤ 98303
    && (if vecWid i then i.sa != 0 else i.sb != 0)

/-- The operation of VEC.CVT: SF, ST, SE and SS, and its descriptor. -/
def State.cvtOp (s : State) (x : Nat) (i : Ins) : Op :=
  { id := 0, src := .ctx x, kind := .vecCvt, ins := i, core := coreOf x, off := 0, unit := .vector
    regs := [s.reg x i.sa, s.reg x i.sb, s.reg x (i.at 75 71), s.reg x (i.at 53 49)], tds := [s.tdAt x (i.at 70 54)] }

/-- The tile area of VEC.CVT, and its FP32 area. -/
def Op.cvtTile (o : Op) : Tile :=
  (areaOf (o.r 1)).tile (o.td 0) [fld (o.r 2) 19 0, fld (o.r 2) 39 20, fld (o.r 2) 59 40, 0, 0] (shapeRows (o.r 3)) (shapeCols (o.r 3))

def Op.cvtF (o : Op) : Source := { r := areaOf (o.r 0), f := .fp32, form := 0, none := o.ins.zero 99 95 }

/-- Whether a tile covers whole blocks from a block boundary. -/
def Tile.whole (t : Tile) : Bool :=
  blockLen t.td.f == 0 || (t.td.bdim ≤ 1 && t.ext t.td.bdim % blockLen t.td.f == 0 && t.o.getD t.td.bdim 0 % blockLen t.td.f == 0)

/-- The byte ranges of a tile area with its scales. -/
def Tile.ranges (t : Tile) : List (Nat × Nat) :=
  rowRanges t.a t.step (t.t1 + 1) t.rowBytes ++ (if t.scales = 0 then [] else [(t.scaleAddr, t.scales)])

/-- Whether a tile's pitch is zero or at least its packed row. -/
def Tile.pitchOk (t : Tile) : Bool := t.pitch == 0 || t.rowBytes ≤ t.pitch * 64

/-- Check 7 of VEC.CVT. -/
def cvtFaults (o : Op) : List Nat :=
  let t := o.cvtTile
  let f := o.cvtF
  let rows := shapeRows (o.r 3)
  let cols := shapeCols (o.r 3)
  let tr := if o.ins.sb = 0 then [] else t.ranges
  let fr := f.ranges rows cols
  need (t.td.ok && t.whole && (o.ins.sb == 0 || t.pitchOk) && (f.none || f.r.pitchOk .fp32 cols)) evIllegalEncoding
    ++ need ((f.none || areaRegOk (o.r 0)) && (o.ins.sb == 0 || areaRegOk (o.r 1)) && o.r 2 < 2 ^ 60 && o.r 3 < 2 ^ 32
      && rangesIn tr && rangesIn fr && !overlap tr fr) evBoundsFault

def execVecCvt (x : Fin 512) (i : Ins) (s : State) : Host.Outcome State Fault Refusal :=
  .next (s.issueVec x i (vecCvtWord i) false (fun s => (cvtFaults (s.cvtOp x i), s.cvtOp x i)))

/-- The narrowing mode of RM. -/
def vecMode (i : Ins) : NMode :=
  match vecRmBits i with
  | 0 => .rne
  | 1 => .rtz
  | _ => .sr

/-- What VEC.CVT writes. -/
def State.cvtEff (s : State) (o : Op) : Eff :=
  let rows := shapeRows (o.r 3)
  let cols := shapeCols (o.r 3)
  if vecWid o.ins then
    { wrs := areaWrites o.core (areaOf (o.r 0)) rows cols (if o.ins.sb = 0 then #[] else s.widenTile o.core o.cvtTile) }
  else
    s.narrowTile o.core o.cvtTile (vecMode o.ins) (if o.cvtF.none then #[] else s.areaVals o.core (areaOf (o.r 0)) .fp32 rows cols)

/-! ## Optimiser updates (R178 to R181) -/

/-- The word checks of an optimiser update. -/
def vecOptWord (i : Ins) : Bool :=
  i.flags == 0 && i.zero 89 89 && i.zero 56 32 && i.at 60 59 ≤ 2 && (!i.zero 65 61 || i.zero 60 59) && i.at 58 57 ≤ 1

/-- The OPB of R178: the five TD words, the five area words and the eight parameters, and whether the rest is zero. -/
structure Opb where
  tdw : List Nat
  area : List Nat
  par : List Nat
  rest : Bool
  deriving DecidableEq, Repr

def opbOf (bs : List Byte) : Opb :=
  { tdw := (List.range 5).map (fun j => leAt bs (4 * j) 4)
    area := (List.range 5).map (fun j => leAt bs (24 + 8 * j) 8)
    par := (List.range 8).map (fun j => leAt bs (64 + 4 * j) 4)
    rest := leAt bs 20 4 == 0 && leAt bs 96 32 == 0 }

/-- Whether TD word `j` is valid. -/
def Opb.valid (b : Opb) (j : Nat) : Bool := bitOf (b.tdw.getD j 0) 31

/-- The form of an OPB: words that must be valid are, words that are not valid are zero with their area words, reserved fields are zero. -/
def Opb.ok (b : Opb) (aw : Bool) : Bool :=
  b.rest && b.valid 0 && b.valid 1 && b.valid 3 && (b.valid 2 == aw)
    && (List.range 5).all (fun j => if b.valid j then fld (b.tdw.getD j 0) 30 17 == 0 else b.tdw.getD j 0 == 0 && b.area.getD j 0 == 0)
    && (aw || ((List.range 6).all (fun j => b.par.getD (j + 1) 0 == 0)))

/-- The operation of an optimiser update. `regs`: the OPB address, SB, SE, SS and SM, then the area words of the valid TD words; `words`: the
outcome in force and the parameters. -/
def State.optOp (s : State) (kind : LKind) (x : Nat) (i : Ins) : Op :=
  let b := opbOf (s.spadRead (coreOf x) (s.reg x i.sa).toNat 128)
  let v := (List.range 5).filter b.valid
  { id := 0, src := .ctx x, kind := kind, ins := i, core := coreOf x, off := 0, unit := .vector, imm := s.immOf x i, lstep := s.nsb.lstep.toInt
    regs := [s.reg x i.sa, s.reg x i.sb, s.reg x (i.at 75 71), s.reg x (i.at 70 66), s.reg x (i.at 65 61)]
      ++ v.map (fun j => BitVec.ofNat 64 (b.area.getD j 0))
    tds := v.map (fun j => s.tdAt x (fld (b.tdw.getD j 0) 16 0))
    words := s.nsb.outcome :: b.par }

/-- How many of the descriptors are the master weight and the moments. -/
def Op.optMoms (o : Op) : Nat := if o.kind = .vecOptaw then 3 else 2

/-- The tile of the descriptor at place `j` of an update. -/
def Op.optTile (o : Op) (j : Nat) : Tile :=
  (areaOf (o.r (5 + j))).tile (o.td j) [fld (o.r 2) 19 0, fld (o.r 2) 39 20, fld (o.r 2) 59 40, 0, 0] (shapeRows (o.r 3)) (shapeCols (o.r 3))

/-- The gradient area. -/
def Op.optG (o : Op) : Source := { r := areaOf (o.r 1), f := vecFmt (o.ins.at 58 57), form := 0, none := o.ins.sb == 0 }

/-- Whether a tile covers whole blocks in the sense of R73, so that its range may also end at the logical extent (R179). -/
def Tile.wholeBlocks (t : Tile) : Bool := t.td.wholeRange (t.o.getD t.td.bdim 0) (t.ext t.td.bdim)

/-- Check 7 of an optimiser update, with the OPB read. A condition that lies in an OPB or a descriptor beyond the scratchpad is not judged; the
others are, in the order of R117. DESIGN CHOICE (107): a misaligned OPB is read where it stands, and an ILLEGAL_ENCODING found in it comes before
the BOUNDS_FAULT of its address. DESIGN CHOICE (108): R174 is silent on an overlap of the two weight copies, which is accepted; the second copy is
written last. -/
def optFaults (b : Opb) (o : Op) : List Nat :=
  let aw := o.kind == .vecOptaw
  let i := o.ins
  let rows := shapeRows (o.r 3)
  let cols := shapeCols (o.r 3)
  let m := o.optMoms
  let all := (List.range o.tds.length).map o.optTile
  let g := o.optG
  let gr := g.ranges rows cols
  let mr := if i.zero 65 61 then [] else maskRanges (fld (o.r 4) 22 0) (i.at 60 59) rows cols
  let apart (l : List Tile) : Bool := l.all (fun t => !overlap t.ranges gr && !overlap t.ranges mr)
  let inPad := o.r 0 + 128 ≤ spadEnd
  let read : List Bool := ((List.range 5).filter b.valid).map (fun j => fld (b.tdw.getD j 0) 16 0 ≤ 98303)
  let td (j : Nat) (p : Td → Bool) : Bool := !read.getD j true || p (o.td j)
  let illegal := !(b.ok aw && td 0 (fun t => t.fmt == 4 && t.kind == 4)
    && (List.range o.tds.length).all (fun j => td j (fun t => t.ok && (o.optTile j).pitchOk && (j < m || (o.optTile j).wholeBlocks)))
    && (List.range (m - 1)).all (fun j => td (j + 1) (fun t => t.fmt == 4 && t.kind == 3))
    && td m (fun t => t.kind == 0)
    && (o.tds.length ≤ m + 1 || td (m + 1) (fun t => t.kind == 0
      && td m (fun f => t.fmt == f.fmt && t.ext == f.ext && t.bdim != f.bdim))))
  need (!(inPad && illegal) && (g.none || g.r.pitchOk g.f cols)) evIllegalEncoding
      ++ need (inPad && read.all id && o.r 0 % 64 == 0 && o.r 2 < 2 ^ 60 && o.r 3 < 2 ^ 32 && (g.none || areaRegOk (o.r 1))
        && (i.zero 65 61 || (o.r 4 < 2 ^ 23 && o.r 4 % 64 == 0))
        && (List.range o.tds.length).all (fun j => areaRegOk (o.r (5 + j)))
        && rangesIn gr && rangesIn mr && all.all (fun t => rangesIn t.ranges)
        && apart all
        && (List.range m).all (fun j => (all.drop (j + 1)).all (fun t => !overlap (o.optTile j).ranges t.ranges))) evBoundsFault

/-- The issue of an optimiser update past checks 1 to 6: held while the step has no outcome (R181). -/
def State.runOpt (s : State) (kind : LKind) (x : Nat) (i : Ins) : State :=
  if s.nsb.outcome = 0 then s.wait x .outcome
  else s.runVec x i true (fun s => (optFaults (opbOf (s.spadRead (coreOf x) (s.reg x i.sa).toNat 128)) (s.optOp kind x i), s.optOp kind x i))

def vecOpt (kind : LKind) (x : Fin 512) (i : Ins) (s : State) : Host.Outcome State Fault Refusal :=
  .next (s.issue x i (vecOptWord i && i.sigOk (coreOf x)) (fun s => (s.clearLatch x).skipLong x i) (fun s => s.runOpt kind x i))

def execVecOptaw (x : Fin 512) (i : Ins) (s : State) : Host.Outcome State Fault Refusal := vecOpt .vecOptaw x i s
def execVecOptms (x : Fin 512) (i : Ins) (s : State) : Host.Outcome State Fault Refusal := vecOpt .vecOptms x i s

/-- The new master weight and moments of one element (R180), before narrowing. -/
def optElem (aw : Bool) (p : List Nat) (lr : W32) (lstep : Int) (gin w m v : W32) : List W32 :=
  let q (j : Nat) : W32 := BitVec.ofNat 32 (p.getD j 0)
  let g := round32 .rne ((val32 gin).scale (-lstep))
  let nlr := lr ^^^ 0x80000000#32
  if aw then
    let m1 := ffma32 .rne (q 0) m (fmul32 .rne (q 1) g)
    let v1 := ffma32 .rne (q 2) v (fmul32 .rne (q 3) (fmul32 .rne g g))
    let r := frsqrt32 .rne (fadd32 .rne (fmul32 .rne v1 (q 5)) (q 6))
    let u := fmul32 .rne (fmul32 .rne m1 (q 4)) r
    [ffma32 .rne nlr (ffma32 .rne (q 7) w u) w, m1, v1]
  else
    let m1 := ffma32 .rne (q 0) m g
    [ffma32 .rne nlr (ffma32 .rne (q 7) w m1) w, m1]

/-- What an optimiser update writes; nothing under the outcome SKIP, and nothing of the master weight and the moments where an element is masked or
lies beyond the logical extent (R181). -/
def State.optEff (s : State) (o : Op) : Eff :=
  let k := o.core
  let rows := shapeRows (o.r 3)
  let cols := shapeCols (o.r 3)
  let n := o.optMoms
  let g := s.sourceVals k o.optG rows cols
  let mk := s.maskBits k (o.ins.zero 65 61) (o.r 4) (o.ins.at 60 59) rows cols
  let old := ((List.range n).map (fun j => s.areaVals k (areaOf (o.r (5 + j))) .bf16 rows cols)).toArray
  let at_ (j r c : Nat) : W32 := (old.getD j #[]).at r c
  let beyond (r c : Nat) : Bool := !(o.td 0).logical ((o.optTile 0).elem c r)
  let kept (r c : Nat) : Bool := mk.at r c || beyond r c
  let new : Array (Array (Array W32)) := ((List.range rows).map (fun r => ((List.range cols).map (fun c =>
    if kept r c then ((List.range n).map (fun j => at_ j r c)).toArray
    else
      ((optElem (o.kind == .vecOptaw) (o.words.drop 1) o.imm o.lstep (g r c) (at_ 0 r c) (at_ 1 r c) (at_ 2 r c)).zipIdx.map (fun p =>
        BitVec.ofNat 32 ((s.narrow1 (o.td p.2) .sr ((o.optTile p.2).elem c r) 0 p.1).1 * 65536))).toArray)).toArray)).toArray
  let val (j r c : Nat) : W32 := ((new.getD r #[]).getD c #[]).getD j 0
  if o.words.headD 0 = 2 then {}
  else
    let e : Eff := { wrs := (List.range n).flatMap (fun j => (List.range rows).flatMap (fun r =>
      rowWrites k 2 ((areaOf (o.r (5 + j))).a + r * (areaOf (o.r (5 + j))).step .bf16 cols)
        ((List.range cols).map (fun c => if kept r c then none else some (toBytes 2 ((val j r c).toNat / 65536)))))) }
    let master := matOf rows cols (fun r c => if beyond r c then 0 else val 0 r c)
    ((List.range (o.tds.length - n)).map (fun j => s.narrowTile k (o.optTile (n + j)) .rne master)).foldl
      (fun a b => { a.and b with overflow := false }) e

/-- What a VEC operation writes. -/
def State.vectorEff (s : State) (o : Op) : Eff :=
  match o.kind with
  | .vecCvt => s.cvtEff o
  | .vecOptaw | .vecOptms => s.optEff o
  | _ => s.vecEff o

end Sys2Proof.Machine
end

