-- ==== Sys2Proof/Machine/Att.lean ====
section
/-! DEFINITION. ATT: voussoir's forward and backward attention (R203 to R218, R229). -/

namespace Sys2Proof.Machine

/-! ## The attention command block (R207, R208, R210) -/

/-- Bytes `a` to `a + n - 1` of the ACB, which an operation keeps as `words`. -/
def acbAt (w : List Nat) (a n : Nat) : Nat := ((w.drop a).take n).foldr (fun b v => b + 256 * v) 0

def acbBq (w : List Nat) : Nat := 64 * 2 ^ fld (acbAt w 0 8) 1 0
def acbBk (w : List Nat) : Nat := 128 * 2 ^ fld (acbAt w 0 8) 3 2
def acbD (w : List Nat) : Nat := fld (acbAt w 0 8) 11 4 + 1
def acbNqb (w : List Nat) : Nat := fld (acbAt w 0 8) 31 16 + 1
def acbNkb (w : List Nat) : Nat := fld (acbAt w 0 8) 47 32 + 1
def acbNq (w : List Nat) : Nat := acbNqb w * acbBq w
def acbNk (w : List Nat) : Nat := acbNkb w * acbBk w
def acbPf (w : List Nat) : Nat := acbAt w 16 1
def acbSf (w : List Nat) : Nat := acbAt w 17 1
def acbMode (w : List Nat) : Nat := acbAt w 64 2

/-- Operand entry `e`: its area word, TD word and origin word. -/
def entArea (w : List Nat) (e : Nat) : Nat := acbAt w (128 + 16 * e) 8
def entTd (w : List Nat) (e : Nat) : Nat := acbAt w (136 + 16 * e) 4
def entOrg (w : List Nat) (e : Nat) : Nat := acbAt w (140 + 16 * e) 4

/-- The tensor entries that a command uses, and its FP32 entries, by whether it is ATT.BWD and whether LAST is set (R208). -/
def attTensors (bwd last : Bool) : List Nat := if bwd then [0, 1, 7, 8, 9, 10, 11] else if last then [0, 1, 2, 3] else [0, 1, 2]
def attFp (bwd last : Bool) : List Nat := if bwd then [6, 12, 13, 14, 15] else if last then [4, 5, 6] else [4, 5]

/-- The entries that a command writes. -/
def attOutputs (bwd last : Bool) : List Nat := if bwd then [13, 14, 15] else if last then [3, 4, 5, 6] else [4, 5]

/-- The tensor entries that are blocked along dimension 1 (R208); entry 3 may be either. -/
def attDim1 (e : Nat) : Bool := e == 2 || e == 7 || e == 10 || e == 11

/-- Whether an entry holds key rows. -/
def attKeyRows (e : Nat) : Bool := e == 1 || e == 2 || e == 7 || e == 8 || e == 14 || e == 15

/-- The rows and columns of an entry's area, in elements of its format. -/
def entDims (w : List Nat) (e : Nat) : Nat × Nat :=
  if e = 5 then (1, 2 * acbNq w)
  else if e = 6 || e = 12 then (1, acbNq w)
  else (if attKeyRows e then acbNk w else acbNq w, acbD w)

def attBwd (o : Op) : Bool := o.kind == .attBwd
def attFirst (i : Ins) : Bool := i.flag 0
def attLast (i : Ins) : Bool := i.flag 1

/-- The descriptor of a tensor entry of an operation. -/
def Op.attTd (o : Op) (e : Nat) : Td :=
  o.td ((attTensors (attBwd o) (attLast o.ins)).findIdx (· == e))

/-- The tile of a tensor entry. -/
def Op.attTile (o : Op) (e : Nat) : Tile :=
  let n := (entDims o.words e).1
  (areaOf (entArea o.words e)).tile (o.attTd e) [0, fld (entOrg o.words e) 19 0, 0, 0, 0] n (acbD o.words)

/-- The byte ranges of an entry's area. -/
def Op.attRanges (o : Op) (e : Nat) : List (Nat × Nat) :=
  if (attTensors (attBwd o) (attLast o.ins)).contains e then (o.attTile e).ranges
  else
    let d := entDims o.words e
    let r := areaOf (entArea o.words e)
    rowRanges r.a (r.step .fp32 d.2) d.1 (4 * d.2)

/-! ## Issue (R205 to R210, R229) -/

/-- The word checks of an ATT instruction. -/
def attWord (bwd : Bool) (i : Ins) : Bool :=
  i.flagsBelow (if bwd then 0 else 2) && i.zero 94 89 && i.zero 75 32 && i.zero 23 0

/-- The operation of an ATT instruction: SA, the ACB, and the descriptors of its tensor entries. -/
def State.attOp (s : State) (kind : LKind) (x : Nat) (i : Ins) : Op :=
  let w := (s.spadRead (coreOf x) (s.reg x i.sa).toNat 384).map BitVec.toNat
  { id := 0, src := .ctx x, kind := kind, ins := i, core := coreOf x, off := 0, unit := .voussoir, regs := [s.reg x i.sa], words := w
    tds := (attTensors (kind == .attBwd) (attLast i)).map (fun e => s.tdAt x (fld (entTd w e) 16 0)) }

/-- The slots that each array needs (R205). -/
def attTs (w : List Nat) : Nat := ceilDiv (acbBq w) 128 * (acbBk w / 128)
def attTv (w : List Nat) : Nat := ceilDiv (acbBq w) 128 * ceilDiv (acbD w) 128
def attTw (w : List Nat) : Nat := acbBk w / 128 * ceilDiv (acbD w) 128
def attSlots (bwd : Bool) (w : List Nat) : Nat :=
  if bwd then max (attTs w + attTv w) (2 * attTw w) else attTs w + attTv w

/-- The codes and reserved fields of the ACB but for its entries (R207, R210). -/
def acbOk (bwd : Bool) (w : List Nat) : Bool :=
  let v := acbAt w 0 8
  let m := acbMode w
  let grp (n b : Nat) : Bool := n == 0 || n % b == 0
  fld v 1 0 ≤ 2 && fld v 3 2 ≤ 2 && fld v 15 12 == 0 && v < 2 ^ 48 && acbD w % 32 == 0
    && (acbPf w == 0 || acbPf w == 1 || acbPf w == 4)
    && (if bwd then 2 ≤ acbSf w && acbSf w ≤ 4 else acbAt w 12 4 == 0 && acbSf w == 0 && acbAt w 20 8 == 0)
    && acbAt w 18 2 == 0 && acbAt w 28 36 == 0
    && m < 8 && acbAt w 66 6 == 0 && acbAt w 75 1 == 0 && acbAt w 79 1 == 0 && grp (acbAt w 80 4) (acbBq w) && grp (acbAt w 88 4) (acbBk w)
    && (if bitOf m 1 then 1 ≤ acbAt w 96 4 && acbAt w 96 4 < 2 ^ 24 else acbAt w 96 4 == 0)
    && (if bitOf m 2 then acbAt w 100 4 < 2 ^ 23 else acbAt w 100 8 == 0)
    && acbAt w 108 20 == 0

/-- The forms of the operand entries (R208). -/
def entriesOk (bwd last : Bool) (w : List Nat) : Bool :=
  (List.range 16).all (fun e =>
    if (attTensors bwd last).contains e then
      bitOf (entTd w e) 31 && fld (entTd w e) 30 17 == 0 && entOrg w e < 2 ^ 20
    else if (attFp bwd last).contains e then entTd w e == 2 ^ 31 && entOrg w e == 0
    else entArea w e == 0 && entTd w e == 0 && entOrg w e == 0)

/-- The descriptor of a tensor entry (R208, R229). -/
def Op.attTdOk (o : Op) (e : Nat) : Bool :=
  let t := o.attTd e
  let l := blockLen t.f
  t.ok && t.ndim == 2 && t.ext.getD 0 0 + 1 == acbD o.words
    && (l == 0 || (if e = 3 then t.bdim ≤ 1 else t.bdim == (if attDim1 e then 1 else 0)))
    && (l == 0 || t.bdim != 1 || fld (entOrg o.words e) 19 0 % (if e = 3 then 32 else l) == 0)

/-- Check 7 of an ATT instruction; an ACB or a descriptor beyond the scratchpad is not read, and the other conditions are judged. DESIGN CHOICE
(107): a misaligned ACB is read where it stands. -/
def attFaults (o : Op) : List Nat :=
  let bwd := attBwd o
  let last := attLast o.ins
  let w := o.words
  let ts := attTensors bwd last
  let used := ts ++ attFp bwd last
  let outs := attOutputs bwd last
  if spadEnd < o.r 0 + 384 then [evBoundsFault]
  else
    let read (e : Nat) : Bool := fld (entTd w e) 16 0 ≤ 98303
    need (acbOk bwd w && entriesOk bwd last w && ts.all (fun e => !read e || (o.attTdOk e && (o.attTile e).pitchOk))
        && (attFp bwd last).all (fun e => (areaOf (entArea w e)).pitchOk .fp32 (entDims w e).2)) evIllegalEncoding
      ++ need (attSlots bwd w ≤ (slotsOf (drnSmask o.ins)).length) evAccOvercommit
      ++ need (o.r 0 % 64 == 0 && ts.all read && used.all (fun e => areaRegOk (entArea w e) && rangesIn (o.attRanges e))
        && outs.all (fun e => used.all (fun f => e == f || !overlap (o.attRanges e) (o.attRanges f)))) evBoundsFault

def attIssue (kind : LKind) (x : Fin 512) (i : Ins) (s : State) : Host.Outcome State Fault Refusal :=
  .next (s.issueLong x i (attWord (kind == .attBwd) i) (fun s => (attFaults (s.attOp kind x i), s.attOp kind x i)))

def execAttFwd (x : Fin 512) (i : Ins) (s : State) : Host.Outcome State Fault Refusal := attIssue .attFwd x i s
def execAttBwd (x : Fin 512) (i : Ins) (s : State) : Host.Outcome State Fault Refusal := attIssue .attBwd x i s

/-! ## Positions (R210 to R212) -/

/-- The position of row `r` under POS0, GRP and GAP. -/
def posOf (p0 grp gap r : Nat) : Nat := if grp = 0 then p0 + r else p0 + r / grp * gap + r % grp

def acbQpos (w : List Nat) (r : Nat) : Nat := posOf (acbAt w 72 4) (acbAt w 80 4) (acbAt w 84 4) r
def acbKpos (w : List Nat) (r : Nat) : Nat := posOf (acbAt w 76 4) (acbAt w 88 4) (acbAt w 92 4) r

/-- The start positions of the documents. -/
def State.docTable (s : State) (o : Op) : List Nat :=
  let bs := s.spadRead o.core (acbAt o.words 100 4) (4 * acbAt o.words 104 4)
  (List.range (acbAt o.words 104 4)).map (fun j => leAt bs (4 * j) 4)

/-- The document of a position: the index of the last entry not above it. -/
def docOf (t : List Nat) (p : Nat) : Nat := (t.filter (fun d => d ≤ p)).length - 1

/-- Whether a list ascends strictly. -/
def ascends : List Nat → Bool
  | a :: b :: r => a < b && ascends (b :: r)
  | _ => true

/-- The checks of an ATT command at its start: positions and the document table, whose entries are read only where it lies in the scratchpad (R229). -/
def State.attFaults8 (s : State) (o : Op) : List Nat :=
  let w := o.words
  let inPad := acbAt w 100 4 + 4 * acbAt w 104 4 ≤ spadEnd
  let t := if inPad then s.docTable o else []
  need ((List.range (acbNq w)).all (fun r => acbQpos w r < 2 ^ 24) && (List.range (acbNk w)).all (fun r => acbKpos w r < 2 ^ 24)
    && (!bitOf (acbMode w) 2 || (1 ≤ acbAt w 104 4 && acbAt w 104 4 ≤ 65536 && (!inPad || (t.head? == some 0 && ascends t))))) evIllegalEncoding
    ++ need (!bitOf (acbMode w) 2 || (acbAt w 100 4 % 64 == 0 && inPad)) evBoundsFault

/-- Whether query row `q` sees key row `k` (R211). DESIGN CHOICE (110): entry 0 decides for a query row, and entry 1 for a key row, whether it lies
beyond its tensor, and a row whose index equals the number of rows lies beyond it (the field holds that number less 1). -/
def attSees (o : Op) (docs : List Nat) (q k : Nat) : Bool :=
  let w := o.words
  let m := acbMode w
  let (qp, kp) := (acbQpos w q, acbKpos w k)
  let row (e r : Nat) : Bool := fld (entOrg w e) 19 0 + r ≤ (o.attTd e).ext.getD 1 0
  row 0 q && row 1 k
    && (!bitOf m 0 || kp ≤ qp)
    && (!bitOf m 1 || (qp < kp + acbAt w 96 4 && (bitOf m 0 || kp < qp + acbAt w 96 4)))
    && (!bitOf m 2 || docOf docs kp == docOf docs qp)

/-- Whether a pair of blocks holds a visible element (R212). -/
def attPair (o : Op) (docs : List Nat) (qb kb : Nat) : Bool :=
  let bq := acbBq o.words
  let bk := acbBk o.words
  (List.range bq).any (fun r => (List.range bk).any (fun c => attSees o docs (bq * qb + r) (bk * kb + c)))

/-! ## Operands -/

/-- The operand of a tensor entry: `tr` where the reduction runs along its rows. -/
def State.attOpnd (s : State) (o : Op) (e : Nat) (tr : Bool) : Opnd :=
  let n := (entDims o.words e).1
  let d := acbD o.words
  if tr then s.opnd o.core (areaOf (entArea o.words e)) (o.attTd e).f true d n
  else s.opnd o.core (areaOf (entArea o.words e)) (o.attTd e).f false n d

/-- The values of an FP32 entry. -/
def State.attVals (s : State) (o : Op) (e : Nat) : Mat :=
  let d := entDims o.words e
  s.areaVals o.core (areaOf (entArea o.words e)) .fp32 d.1 d.2

/-- The writes of an FP32 entry. -/
def attWrites (o : Op) (e : Nat) (m : Mat) : List Wr :=
  let d := entDims o.words e
  areaWrites o.core (areaOf (entArea o.words e)) d.1 d.2 m

/-- A narrowed block of a product's operand A: `outer` rows by `len` values along its reduction, and whether an element set the overflow flag.
`rm` gives the rounding of an element. -/
def narrowOpnd (f : Fmt) (grad : Bool) (outer len : Nat) (rm : Nat → Nat → Rm) (v : Nat → Nat → W32) : Opnd × Bool :=
  let l := blockLen f
  let scale (r j : Nat) : Nat :=
    scaleCode f grad ((List.range l).foldl (fun a i => amax2 a (val32 (v r (l * j + i)))) (.fin false 0 0))
  let scales : Array Nat := if l = 0 then #[] else
    ((List.range outer).flatMap (fun r => (List.range (len / l)).map (fun j => scale r j))).toArray
  let one (r c : Nat) : Nat × Bool :=
    if l = 0 then narrowVal f (rm r c) (val32 (v r c))
    else
      let k := scales.getD (r * (len / l) + c / l) 0
      if k = 0xFF then (nanCode f, true) else narrowVal f (rm r c) ((val32 (v r c)).scale (127 - (k : Int)))
  let cs := (List.range outer).map (fun r => (List.range len).map (fun c => one r c))
  ({ f := f, tr := false, cols := len, scales := scales, codes := (cs.map (fun r => (r.map Prod.fst).toArray)).toArray },
    cs.any (fun r => r.any Prod.snd))

/-- The FP32 value of an element of a narrowed operand. -/
def Opnd.value32 (o : Opnd) (r c : Nat) : W32 :=
  widen1 o.f ((o.codes.getD r #[]).getD c 0) (if blockLen o.f = 0 then 0 else o.scales.getD (r * (o.cols / blockLen o.f) + c / blockLen o.f) 0)

/-- Minus infinity. -/
def negInf : W32 := 0xFF800000#32

/-! ## ATT.FWD (R213, R214) -/

/-- What one query row carries from block to block: m, l and o. -/
structure AttRow where
  m : W32
  l : W32
  o : List W32
  deriving DecidableEq, Repr

/-- One key block of the forward loop for query row `q`. -/
def attFwdBlock (op : Op) (docs : List Nat) (qd kd vk : Opnd) (q kb : Nat) (a : AttRow) : AttRow :=
  let w := op.words
  let bk := acbBk w
  let d := acbD w
  let sc : W32 := BitVec.ofNat 32 (acbAt w 8 4)
  let s : Array W32 := ((List.range bk).map (fun c =>
    if attSees op docs q (bk * kb + c) then fmul32 .rne (dot qd kd d q (bk * kb + c) 0) sc else negInf)).toArray
  let mn := s.foldl fmax32 a.m
  if mn = negInf then a
  else
    let alpha := fexp232 .rne (fsub32 .rne a.m mn)
    let p (_ c : Nat) : W32 := if attSees op docs q (bk * kb + c) then fexp232 .rne (fsub32 .rne (s.getD c 0) mn) else 0
    let pn := (narrowOpnd ((fmtOf (acbPf w)).getD .bf16) false 1 bk (fun _ _ => .rne) p).1
    let ls := reduceRow .vecRsum .rne bk (fun c => pn.value32 0 c)
    { m := mn
      l := ffma32 .rne alpha a.l ls
      o := a.o.zipIdx.map (fun x => ffma32 .rne alpha x.1 (dotAt pn vk bk 0 x.2 0 (bk * kb) 0)) }

/-- What ATT.FWD writes. -/
def State.attFwdEff (s : State) (op : Op) : Eff :=
  let w := op.words
  let d := acbD w
  let nq := acbNq w
  let docs := if bitOf (acbMode w) 2 then s.docTable op else []
  let qd := s.attOpnd op 0 false
  let kd := s.attOpnd op 1 false
  let vk := s.attOpnd op 2 true
  let st := s.attVals op 5
  let oa := s.attVals op 4
  let pairs := (List.range (acbNqb w)).map (fun qb => (List.range (acbNkb w)).filter (fun kb => attPair op docs qb kb))
  let rows : Array AttRow := ((List.range nq).map (fun q =>
    let a : AttRow := if attFirst op.ins then { m := negInf, l := 0, o := List.replicate d 0 }
      else { m := st.at 0 (2 * q), l := st.at 0 (2 * q + 1), o := (List.range d).map (fun j => oa.at q j) }
    (pairs.getD (q / acbBq w) []).foldl (fun a kb => attFwdBlock op docs qd kd vk q kb a) a)).toArray
  let row (q : Nat) : AttRow := rows.getD q { m := 0, l := 0, o := [] }
  let stats := matOf 1 (2 * nq) (fun _ c => if c % 2 = 0 then (row (c / 2)).m else (row (c / 2)).l)
  let e : Eff := { wrs := attWrites op 4 (matOf nq d (fun q j => (row q).o.getD j 0)) ++ attWrites op 5 stats }
  if attLast op.ins then
    let none (q : Nat) : Bool := (row q).m == negInf || (row q).l &&& 0x7FFFFFFF#32 == 0
    let out := matOf nq d (fun q j => if none q then 0 else fmul32 .rne ((row q).o.getD j 0) (frcp32 .rne (row q).l))
    let lse := matOf 1 nq (fun _ q => if none q then negInf else fadd32 .rne (row q).m (flog232 .rne (row q).l))
    (e.and { wrs := attWrites op 6 lse }).and (s.narrowTile op.core (op.attTile 3) (kindMode (op.attTd 3).kind) out)
  else e

/-! ## ATT.BWD (R216 to R218) -/

/-- What ATT.BWD gathers: dQ, and the accumulators dK and dV of the key block, with the overflow flag. -/
structure AttBack where
  dq : Mat
  dk : Mat
  dv : Mat
  any : Bool
  ovf : Bool

/-- The operands of ATT.BWD. -/
structure AttOps where
  qd : Opnd
  kd : Opnd
  kk : Opnd
  vd : Opnd
  dod : Opnd
  doq : Opnd
  qq : Opnd
  lse : Mat
  dd : Mat

/-- One pair of blocks of the backward loop. -/
def State.attBwdPair (s : State) (op : Op) (docs : List Nat) (x : AttOps) (kb : Nat) (a : AttBack) (qb : Nat) : AttBack :=
  let w := op.words
  let bq := acbBq w
  let bk := acbBk w
  let d := acbD w
  let sc : W32 := BitVec.ofNat 32 (acbAt w 8 4)
  let dsc : W32 := BitVec.ofNat 32 (acbAt w 12 4)
  let pf := (fmtOf (acbPf w)).getD .bf16
  let sf := (fmtOf (acbSf w)).getD .bf16
  if !attPair op docs qb kb then a
  else
    let sees (r c : Nat) : Bool := attSees op docs (bq * qb + r) (bk * kb + c)
    let p := matOf bq bk (fun r c =>
      if sees r c then
        fexp232 .rne (fsub32 .rne (fmul32 .rne (dot x.qd x.kd d (bq * qb + r) (bk * kb + c) 0) sc) (x.lse.at 0 (bq * qb + r)))
      else 0)
    let ds := matOf bq bk (fun r c =>
      if sees r c then
        fmul32 .rne (fmul32 .rne (p.at r c)
          (fsub32 .rne (dot x.dod x.vd d (bq * qb + r) (bk * kb + c) 0) (x.dd.at 0 (bq * qb + r)))) dsc
      else 0)
    let rm (srid r c : Nat) : Rm :=
      .sr (srWord s.nsb.key s.nsb.step (BitVec.ofNat 32 srid) (acbQpos w (bq * qb + r) * 2 ^ 24 + acbKpos w (bk * kb + c)))
    let pq := (narrowOpnd pf false bk bq (fun _ _ => .rne) (fun c r => p.at r c)).1
    let dsk := narrowOpnd sf true bq bk (fun r c => rm (acbAt w 20 4) r c) (fun r c => ds.at r c)
    let dsq := narrowOpnd sf true bk bq (fun c r => rm (acbAt w 24 4) r c) (fun c r => ds.at r c)
    { dv := matOf bk d (fun c j => dotAt pq x.doq bq c j 0 (bq * qb) (a.dv.at c j))
      dk := matOf bk d (fun c j => dotAt dsq.1 x.qq bq c j 0 (bq * qb) (a.dk.at c j))
      dq := matOf (acbNq w) d (fun q j =>
        if q / bq = qb then fadd32 .rne (a.dq.at q j) (dotAt dsk.1 x.kk bk (q % bq) j 0 (bk * kb) 0) else a.dq.at q j)
      any := true
      ovf := a.ovf || dsk.2 || dsq.2 }

/-- What ATT.BWD writes. -/
def State.attBwdEff (s : State) (op : Op) : Eff :=
  let w := op.words
  let d := acbD w
  let nk := acbNk w
  let bk := acbBk w
  let docs := if bitOf (acbMode w) 2 then s.docTable op else []
  let x : AttOps := { qd := s.attOpnd op 0 false, kd := s.attOpnd op 1 false, kk := s.attOpnd op 7 true, vd := s.attOpnd op 8 false,
                      dod := s.attOpnd op 9 false, doq := s.attOpnd op 10 true, qq := s.attOpnd op 11 true,
                      lse := s.attVals op 6, dd := s.attVals op 12 }
  let blocks : List (Nat × Mat × Mat) × AttBack := (List.range (acbNkb w)).foldl (fun acc kb =>
    let b := (List.range (acbNqb w)).foldl (fun a qb => s.attBwdPair op docs x kb a qb) { acc.2 with dk := #[], dv := #[], any := false }
    (if b.any then acc.1 ++ [(kb, b.dk, b.dv)] else acc.1, b)) ([], { dq := s.attVals op 13, dk := #[], dv := #[], any := false, ovf := false })
  let out (e : Nat) (f : Nat × Mat × Mat → Mat) : Mat :=
    let old := s.attVals op e
    matOf nk d (fun k j => match blocks.1.find? (fun b => b.1 == k / bk) with
      | some b => fadd32 .rne (old.at k j) ((f b).at (k % bk) j)
      | none => old.at k j)
  { wrs := attWrites op 13 blocks.2.dq ++ attWrites op 14 (out 14 (fun b => b.2.1)) ++ attWrites op 15 (out 15 (fun b => b.2.2))
    overflow := blocks.2.ovf }

/-- The slots that an ATT command leaves at +0 (R205). -/
def attCleared (o : Op) : List Wr :=
  (if attBwd o then [0, 1, 2] else [0]).flatMap (fun a => (slotsOf (drnSmask o.ins)).map (fun j => .acc o.core a j []))

/-- What an ATT command writes. -/
def State.attEff (s : State) (o : Op) : Eff :=
  (if attBwd o then s.attBwdEff o else s.attFwdEff o).and { wrs := attCleared o }

end Sys2Proof.Machine
end

