-- ==== Sys2Proof/Machine/Entry.lean ====
section
/-! DEFINITION. Ring entries: their fields, the fetch of a command of ring 0 with the checks common to all, the object commands, code load, and
the START entries of rings 1 to 31 (R377 to R383, R138 to R141). -/

namespace Sys2Proof.Machine

/-! ## Fields of an entry (R379) -/

/-- Bytes `a` to `a + n - 1` of an entry. -/
def entAt (e : BitVec 512) (a n : Nat) : Nat := e.toNat / 256 ^ a % 256 ^ n

def entOp (e : BitVec 512) : Nat := entAt e 0 2
def entFlags (e : BitVec 512) : Nat := entAt e 2 1
def entTag (e : BitVec 512) : Nat := entAt e 4 4

/-- Whether the header holds no bit that must be zero. -/
def entHead (e : BitVec 512) : Bool := entFlags e < 2 && entAt e 3 1 == 0

/-- The bytes of an entry. -/
def entBytes (e : BitVec 512) : List Byte := toBytes 64 e.toNat

/-- The opcodes of ring 0 (R381). -/
def ring0Ops : List Nat := [0x01, 0x02, 0x03, 0x04, 0x05, 0x06, 0x10, 0x11, 0x12, 0x13, 0x14, 0x15, 0x16]

/-- The bytes 8 to 63 that an opcode uses, as (first, count); the rest must be zero. -/
def entUsed : Nat → List (Nat × Nat)
  | 0x01 => [(8, 3), (12, 10), (32, 4), (40, 8)]
  | 0x02 | 0x03 | 0x06 | 0x10 | 0x15 => [(8, 4)]
  | 0x04 => [(8, 5), (14, 2)]
  | 0x05 => [(8, 7)]
  | 0x14 => [(8, 16)]
  | _ => []

/-- Whether every byte that an opcode does not use is zero. -/
def entZeros (op : Nat) (e : BitVec 512) : Bool :=
  (List.range 56).all (fun j => (entUsed op).any (fun p => p.1 ≤ j + 8 && j + 8 < p.1 + p.2) || entAt e (j + 8) 1 == 0)

/-! ## Ring 0 (R381, R382) -/

/-- Whether a capture or the replay check holds NUM.STEPBEGIN (R337, R350). -/
def State.held (s : State) : Bool :=
  s.prs.capture != .none || s.ctxs.any (fun p => p.2.st == .waiting && p.2.wait == .stepBegin)
    || (match s.prs.replay with | some r => r.held | none => false)

/-- Whether mason can take a command of ring 0 now: one at a time, and during a restore SOURCE_DONE alone. -/
def State.ring0Free (s : State) (op : Nat) : Bool :=
  s.canFetch 0 && (if s.prs.restore = .none then s.msn.busy.isNone else op == 0x15)

/-- Mason takes the entry at the head of ring 0. An entry that is another command's is not this one's; a reserved opcode or a non-zero reserved byte
is answered MALFORMED; before start-up step 8 every command is answered NOJOB (R423); after a class M event only JOB_STOP and PREEMPT act. `run` is given the state after the fetch and the entry's count. A command that gets so far while what it reads
is held waits (`waits`), with the ring. -/
def State.ring0 (s : State) (op : Nat) (e : BitVec 512) (run : State → Nat → State) (waits : Bool := false) : State :=
  if !s.ring0Free op || s.entryAt 0 (s.ring 0).head.toNat != some (entBytes e) then s
  else if entOp e ≠ op && entOp e ∈ ring0Ops then s
  else
    let c := (s.ring 0).head.toNat
    let t := s.fetch 0 (entTag e) (entFlags e)
    if entOp e ≠ op || !entHead e || !entZeros op e then t.answer 0 c stMalformed 0
    else if s.pln.stage < 8 then t.answer 0 c stNojob 0
    else if s.pln.stopped && op ≠ 0x11 && op ≠ 0x13 then t.answer 0 c stRefused 0
    else if s.warned || waits then s
    else run t c

/-- Runs a hod command of ring 0 as a request (R270). -/
def State.ringRequest (s : State) (e : BitVec 512) (c : Nat) (kind : LKind) (regs : List W64) (words : List Nat) : State :=
  let o : Op := { id := s.nextOp, src := .ring 0 c (entTag e) (entFlags e), kind := kind, ins := {}, core := 0, off := 0, regs := regs, words := words, st := .started }
  let s := { s with
    ops := s.ops ++ [o]
    nextOp := s.nextOp + 1
    msn := { s.msn with busy := some (c, entTag e, entFlags e, entOp e) } }
  s.settle [o.id]

/-- Whether a handle names an object that a command of the runtime may act on. -/
def State.ringHandleOk (s : State) (h : Nat) : Bool := s.named h && (s.obj (hIdx h)).kind != .image && !(s.obj (hIdx h)).hosted

/-- The operands of CREATE in range: KIND, PG, HOME, EPRIO, SIZE, replica, and for a page its descriptor's place. A command names no peer, so HOME 2 is
out of range. DEDUCED. -/
def createOk (e : BitVec 512) : Bool :=
  let kind := entAt e 8 1
  let pg := entAt e 9 1
  let size := entAt e 12 4
  (kind == 0 || kind == 2) && pg ≤ (if kind = 0 then 12 else 10) && entAt e 10 1 < 32 && fld (entAt e 10 1) 1 0 ≤ 1
    && 1 ≤ size && size ≤ 2 ^ 24 && size % 2 ^ pg == 0 && (kind == 0 || size == 2 ^ pg)
    && entAt e 16 4 < 2 ^ 24 && !bitOf (entAt e 20 2) 14
    && (if kind = 0 then entAt e 32 32 == 0 else entAt e 32 4 < 2 ^ 24 && entAt e 40 8 % 64 == 0)

/-- The eight words of the descriptor that a CREATE of a page names. -/
def State.createPage (s : State) (e : BitVec 512) : List Nat :=
  (List.range 8).map (fun j => leAt (s.objRead (hIdx (entAt e 32 4)) (entAt e 40 8 + 8 * j) 8) 0 8)

/-- Whether the descriptor lies in a DATA object. -/
def State.createSource (s : State) (e : BitVec 512) : Bool :=
  s.ringHandleOk (entAt e 32 4) && (s.obj (hIdx (entAt e 32 4))).kind == .data && entAt e 40 8 + 64 ≤ (s.obj (hIdx (entAt e 32 4))).bytes

/-- CREATE (R381). A descriptor with a reserved field set or a reserved code is rejected with ILLEGAL_ENCODING (R9), which the hod detects (R223), and with the
status of R381. DEDUCED (131). -/
def State.runCreate (s : State) (e : BitVec 512) (c : Nat) : State :=
  let w := [entAt e 8 1, entAt e 9 1, entAt e 10 1, entAt e 12 4, entAt e 16 4, entAt e 20 2]
  if !createOk e then s.answer 0 c stMalformed 0
  else if entAt e 8 1 = 0 then s.ringRequest e c .create [] w
  else if !s.createSource e then s.answer 0 c stRefused 0
  else
    let p := s.createPage e
    let s := if pageReservedOk p then s else s.ev (srcOf 0x05 0) evIllegalEncoding
    if fld (p.getD 0 0) 23 0 ≠ 0 || fld (p.getD 0 0) 27 24 ≠ entAt e 9 1 then s.answer 0 c stMalformed 0
    else if !pageFormOk p || !s.recipeOk p then s.answer 0 c stRefused 0
    else s.ringRequest e c .create [] (w ++ p)

/-- Whether mason's read of the DATA object with handle `h` must wait: it is moving or poisoned (R270, R281). -/
def State.waitsFor (s : State) (h : Nat) : Bool :=
  s.ringHandleOk h && (s.obj (hIdx h)).kind == .data && !((s.obj (hIdx h)).st == .fast || (s.obj (hIdx h)).st == .slow)

def execCreate (e : BitVec 512) (s : State) : Host.Outcome State Fault Refusal :=
  .next (s.ring0 0x01 e (fun s c => s.runCreate e c) (createOk e && entAt e 8 1 == 2 && s.createSource e && s.waitsFor (entAt e 32 4)))

/-- A command that names an object which it must be able to act on. -/
def State.runOnObject (s : State) (e : BitVec 512) (c : Nat) (ok : Bool) (kind : LKind) (arg : Nat) : State :=
  let h := entAt e 8 4
  if 2 ^ 24 ≤ h then s.answer 0 c stMalformed 0
  else if !(s.ringHandleOk h && ok) then (s.refusal h).answer 0 c stRefused 0
  else s.ringRequest e c kind [BitVec.ofNat 64 h, BitVec.ofNat 64 arg] []

def execDestroy (e : BitVec 512) (s : State) : Host.Outcome State Fault Refusal :=
  .next (s.ring0 0x02 e (fun s c => s.runOnObject e c true .destroy 0))

def execPromote (e : BitVec 512) (s : State) : Host.Outcome State Fault Refusal :=
  .next (s.ring0 0x03 e (fun s c => s.runOnObject e c true .promote 0))

/-- DEMOTE: target and node in the form of R274. -/
def State.runDemote (s : State) (e : BitVec 512) (c : Nat) : State :=
  let t := entAt e 12 1
  let n := entAt e 14 2
  if 1 < t || 2 ^ 14 ≤ n || (t = 0 && n ≠ 0) then s.answer 0 c stMalformed 0
  else s.runOnObject e c ((s.obj (hIdx (entAt e 8 4))).kind != .code && (t == 0 || s.arc.other n)) .demote (t + n * 2 ^ 16)

def execDemote (e : BitVec 512) (s : State) : Host.Outcome State Fault Refusal := .next (s.ring0 0x04 e (fun s c => s.runDemote e c))

/-! ## Registration (R332, R333, R336) -/

/-- The registration that an object will have from the next boundary on. -/
def Obj.nextRegistration (o : Obj) : Nat × Nat × Nat := o.regNext.getD o.registration

/-- The bytes of a manifest before its data area (R347): header, job image, contexts, scratchpad section and object list, each from a 4-KiB boundary. -/
def State.manifestLen (s : State) : Nat :=
  4096 + roundUp 16960 4096 + 512 * 512 + roundUp (64 * s.prs.spLen) 4096
    + roundUp ((s.objs.map (fun p => if p.2.st = .free || p.2.kind = .image then 0 else if p.2.kind = .page then 128 else 64)).foldl (· + ·) 0) 4096

/-- The bytes that `n` units of an object take in a data area: the units and their side-table entries, padded to 4 KiB (R348). -/
def dataLen (n : Nat) : Nat := n * 65536 + roundUp (64 * n) 4096

/-- The mirror set's bytes once object `i` has registration `r`. -/
def State.mirrorLen (s : State) (i : Nat) (r : Nat × Nat × Nat) : Nat :=
  s.manifestLen + (s.objs.map (fun p =>
    if p.2.st = .free || p.2.kind = .image then 0
    else if p.2.resolve (if p.1 = i then r else p.2.nextRegistration) = 2 then dataLen p.2.size else 0)).foldl (· + ·) 0

/-- Whether R333 or R336 refuses a registration. -/
def State.registerRefused (s : State) (i : Nat) (r : Nat × Nat × Nat) : Bool :=
  let o := s.obj i
  (o.kind == .page && o.rcp && 2 ≤ r.1)
    || (r.1 == 2 && o.kind != .code && 2 ^ 30 < o.bytes)
    || (o.resolve r == 2 && s.msn.job && s.prs.bvalid && s.prs.bres * 2 ^ 20 < s.mirrorLen i r)

/-- REGISTER. -/
def State.runRegister (s : State) (e : BitVec 512) (c : Nat) : State :=
  let h := entAt e 8 4
  let r := (entAt e 12 1, entAt e 13 1, entAt e 14 1)
  if 2 ^ 24 ≤ h || 4 < r.1 || 3 < r.2.1 || (r.2.1 == 1) != (r.2.2 != 0) then s.answer 0 c stMalformed 0
  else if !s.ringHandleOk h || s.registerRefused (hIdx h) r then s.answer 0 c stRefused 0
  else (s.setObj (hIdx h) { s.obj (hIdx h) with regNext := some r }).answer 0 c stOk 0

def execRegister (e : BitVec 512) (s : State) : Host.Outcome State Fault Refusal := .next (s.ring0 0x05 e (fun s c => s.runRegister e c))

/-! ## Code load (R138, R139) -/

/-- Whether no two of a list of ranges (start, length) share a byte; an empty one shares none. -/
def disjoint : List (Nat × Nat) → Bool
  | [] => true
  | a :: r => r.all (fun b => a.2 == 0 || b.2 == 0 || a.1 + a.2 ≤ b.1 || b.1 + b.2 ≤ a.1) && disjoint r

/-- The requirements of R138 on a header of 256 bytes in an object of `size` bytes. -/
def codeHeaderOk (d : List Byte) (size : Nat) : Bool :=
  let tx := leAt d 8 8
  let tl := leAt d 16 8
  let co := leAt d 24 8
  let cl := leAt d 32 8
  let n := leAt d 40 4
  let eo := leAt d 48 8
  leAt d 0 4 == 0x52544850 && leAt d 4 2 == 1 && leAt d 6 1 == 1 && leAt d 7 1 == 0
    && tx % 16 == 0 && 256 ≤ tx && 0 < tl && tl % 16 == 0 && co % 64 == 0 && cl % 64 == 0 && (cl != 0 || co == 0)
    && 1 ≤ n && n ≤ 256 && leAt d 44 4 == 0 && eo % 16 == 0 && leAt d 88 168 == 0
    && tx + tl ≤ size && co + cl ≤ size && eo + 16 * n ≤ size && disjoint [(0, 256), (tx, tl), (co, cl), (eo, 16 * n)]

/-- The requirements of R138 on the entry table. -/
def codeEntriesOk (d tab : List Byte) : Bool :=
  let n := leAt d 40 4
  let ids := (List.range n).map (fun j => leAt tab (16 * j + 8) 4)
  (List.range n).all (fun j => leAt tab (16 * j) 8 % 16 == 0 && leAt d 8 8 ≤ leAt tab (16 * j) 8 && leAt tab (16 * j) 8 < leAt d 8 8 + leAt d 16 8
    && leAt tab (16 * j + 12) 4 == 0) && ids.eraseDups.length == n

/-- Every requirement of R138, with the digest. -/
def State.codeOk (s : State) (i : Nat) : Bool :=
  let d := s.objRead i 0 256
  codeHeaderOk d (s.obj i).bytes && codeEntriesOk d (s.objRead i (leAt d 48 8) (16 * leAt d 40 4))
    && sha256 (s.objRead i (leAt d 8 8) (leAt d 16 8) ++ s.objRead i (leAt d 24 8) (leAt d 32 8)) == (d.drop 56).take 32

/-- An object becomes a code object: pinned for its life, and homed in footing. -/
def State.makeCode (s : State) (e : BitVec 512) (c h : Nat) : State :=
  let i := hIdx h
  let o := s.obj i
  let d := s.objRead i 0 256
  let s := s.setObj i { o with kind := .code, pins := o.pins + 1, loadPin := true, evict := false, codeText := some (leAt d 8 8, leAt d 16 8) }
  if o.home = 0 then s.answer 0 c stOk h else s.ringRequest e c .promote [BitVec.ofNat 64 h, BitVec.ofNat 64 h] [if o.evict then 1 else 0]

/-- CODE_LOAD; one that is a code object already is answered OK in every state. DESIGN CHOICE (132): the object must be of kind DATA; R138 and R139 name no kind,
and a page, in any state, is refused. -/
def State.runCodeLoad (s : State) (e : BitVec 512) (c : Nat) : State :=
  let h := entAt e 8 4
  if 2 ^ 24 ≤ h then s.answer 0 c stMalformed 0
  else if !s.ringHandleOk h then s.answer 0 c stRefused 0
  else if (s.obj (hIdx h)).kind = .code then s.answer 0 c stOk h
  else if (s.obj (hIdx h)).kind ≠ .data || !s.codeOk (hIdx h) then s.answer 0 c stRefused 0
  else s.makeCode e c h

def execCodeLoad (e : BitVec 512) (s : State) : Host.Outcome State Fault Refusal :=
  .next (s.ring0 0x06 e (fun s c => s.runCodeLoad e c) (s.waitsFor (entAt e 8 4)))

/-! ## START entries (R383) -/

/-- Whether a START entry is in its form. -/
def startOk (e : BitVec 512) : Bool :=
  entOp e == 0x100 && entHead e && entAt e 8 4 < 2 ^ 24 && (entAt e 16 1 < 64 || entAt e 16 1 == 0xFF) && (entAt e 17 1 < 8 || entAt e 17 1 == 0xFF)
    && entAt e 18 1 < 4 && entAt e 19 5 == 0 && entAt e 56 8 == 0

/-- Whether a context is reserved for recompute (R225). -/
def State.reserved (s : State) (x : Nat) : Bool := s.hod.dropEn && x % 8 == 7 && x / 8 % 16 == 15

/-- Whether a START entry names a reserved context. -/
def State.namesReserved (s : State) (e : BitVec 512) : Bool :=
  entAt e 16 1 < 64 && entAt e 17 1 < 8 && s.reserved (8 * entAt e 16 1 + entAt e 17 1)

/-- The context that an entry takes now: the lowest-numbered IDLE one that it allows, first over contexts and then over cores. -/
def State.pickCtx (s : State) (e : BitVec 512) : Option Nat :=
  (List.range 512).find? (fun x =>
    (entAt e 16 1 == 0xFF || x / 8 == entAt e 16 1) && (entAt e 17 1 == 0xFF || x % 8 == entAt e 17 1)
      && (s.ctx x).st == .idle && !s.reserved x)

/-- A context as a START entry starts it (R140): every other register has its reset value, the counters keep theirs. -/
def startCtx (c : Ctx) (e : BitVec 512) (pc : Nat) : Ctx :=
  let d : Ctx := { pc := BitVec.ofNat 64 pc, code := BitVec.ofNat 32 (entAt e 8 4), prio := BitVec.ofNat 2 (entAt e 18 1), st := .ready, ctr := c.ctr, sticky := c.sticky }
  (List.range 4).foldl (fun d j => d.setSreg (j + 1) (BitVec.ofNat 64 (entAt e (24 + 8 * j) 8))) d

/-- Discards every FAULTED context whose entry has been answered (R90, R383). -/
def State.discardFaulted (s : State) : State :=
  s.ctxKeys.foldl (fun s x => if (s.ctx x).st = .faulted && !(s.objs.any (fun q => q.2.recompute == some x)) then s.discardCtx x else s) s

/-- Answers an entry that waits with REFUSED. -/
def State.refuseStart (s : State) (t : Started) : State :=
  { s with hif := { s.hif with starts := s.hif.starts.filter (fun u => !(u.ring == t.ring && u.count == t.count)) } }.answer t.ring t.count stRefused 0

/-- Starts a waiting entry of ring `r` on its context. An entry whose code object or entry is gone by then is refused. -/
def State.dispatch (s : State) (t : Started) (x : Nat) : State :=
  match s.entryOf (entAt t.entry 8 4) (entAt t.entry 12 4) with
  | none =>
    s.refuseStart t
  | some pc =>
    let s := { s with
      hif := { s.hif with starts := s.hif.starts.map (fun (u : Started) => if u.ring = t.ring && u.count = t.count then { u with ctx := some x } else u) }
      msn := { s.msn with served := t.ring } }
    s.leave x (startCtx (s.ctx x) t.entry pc)

/-- The entry of a ring that waits for its context. -/
def State.waitingStart (s : State) (r : Nat) : Option Started := s.hif.starts.find? (fun t => t.ring == r && t.ctx.isNone)

/-- Whether mason can serve a ring from 1 to 31 now: the entry that waits on it can start, or is refused after a class M event, or no entry waits and the next
can be fetched. -/
def State.serveable (s : State) (r : Nat) : Bool :=
  match s.waitingStart r with
  | some t => s.pln.stopped || (s.pickCtx t.entry).isSome
  | none => r != 0 && s.canFetch r && (s.entryAt r (s.ring r).head.toNat).isSome

/-- The ring that mason serves next: the first that it can after the one served last (R383). -/
def State.nextServed (s : State) : Option Nat := ((List.range 32).map (fun j => (s.msn.served + 1 + j) % 32)).find? s.serveable

/-- Whether mason can serve a START entry at all now. -/
def State.startsHeld (s : State) : Bool := !s.msn.fw || s.msn.dead || s.warned || s.prs.restore != .none

/-- START: mason takes the entry at the head of ring `r`; no later entry passes a waiting one. -/
def State.start (s : State) (r : Nat) (e : BitVec 512) : State :=
  let t := s.discardFaulted
  if s.startsHeld || t.nextServed ≠ some r || (t.waitingStart r).isSome || t.entryAt r (t.ring r).head.toNat != some (entBytes e) then s
  else
    let c := (t.ring r).head.toNat
    let s := t.fetch r (entTag e) (entFlags e)
    let s := { s with msn := { s.msn with served := r } }
    if s.pln.stopped then s.answer r c stRefused 0
    else if !startOk e then s.answer r c stMalformed 0
    else if !s.msn.job then s.answer r c stNojob 0
    else if (s.entryOf (entAt e 8 4) (entAt e 12 4)).isNone || s.namesReserved e then s.answer r c stRefused 0
    else
      let t : Started := { ring := r, count := c, entry := e, ctx := none }
      let s := { s with hif := { s.hif with starts := s.hif.starts ++ [t] } }
      match s.pickCtx e with
      | some x => s.dispatch t x
      | none => s

def execStart (r : Fin 32) (e : BitVec 512) (s : State) : Host.Outcome State Fault Refusal := .next (s.start r e)

/-- START_DISPATCH; after a class M event the entry that waits is refused (R382). -/
def State.startDispatch (s : State) (r : Nat) : State :=
  let t := s.discardFaulted
  if s.startsHeld || t.nextServed ≠ some r then s
  else
    match t.waitingStart r with
    | none => s
    | some q =>
      if t.pln.stopped then t.refuseStart q
      else
        match t.pickCtx q.entry with
        | none => s
        | some x => t.dispatch q x

def execStartDispatch (r : Fin 32) (s : State) : Host.Outcome State Fault Refusal := .next (s.startDispatch r)

end Sys2Proof.Machine
end

