-- ==== Sys2Proof/Machine/Image.lean ====
section
/-! DEFINITION. What preservation writes, as bytes (R6): the NSB (R81), the context image (R112), the job image (R328), and the manifest with its object list and data
area (R347, R348). -/

namespace Sys2Proof.Machine

/-! ## The NSB as bytes (R81, R82) -/

/-- The NSB of a job description or manifest. Taint reads 0 (R82). -/
def nsbOf (bs : List Byte) : Nsb :=
  let b (a n : Nat) : Nat := leAt bs a n
  { step := BitVec.ofNat 64 (b 0 8), key := BitVec.ofNat 64 (b 8 8), cursor := BitVec.ofNat 64 (b 16 8), stride := BitVec.ofNat 32 (b 24 4)
    clean := BitVec.ofNat 16 (b 28 2), interval := BitVec.ofNat 16 (b 30 2), lstep := BitVec.ofNat 8 (b 32 1), lnext := BitVec.ofNat 8 (b 33 1)
    taint := false, outcome := fld (b 34 1) 2 1, applied := bitOf (b 34 1) 3, version := BitVec.ofNat 16 (b 36 2) }

/-- The 64 bytes of an NSB. -/
def Nsb.bytes (n : Nsb) : List Byte :=
  toBytes 8 n.step.toNat ++ toBytes 8 n.key.toNat ++ toBytes 8 n.cursor.toNat ++ toBytes 4 n.stride.toNat ++ toBytes 2 n.clean.toNat
    ++ toBytes 2 n.interval.toNat ++ [n.lstep, n.lnext]
    ++ toBytes 1 ((if n.taint then 1 else 0) + 2 * n.outcome + (if n.applied then 8 else 0)) ++ [0] ++ toBytes 2 n.version.toNat ++ List.replicate 26 0

/-! ## The context image (R112) -/

/-- The state code of a context image. -/
def Ctx.imageCode (c : Ctx) : Nat :=
  match c.st with
  | .idle => 0
  | .ready | .running => 1
  | .waiting => 3
  | .stopped => if c.priorWaiting then 3 else 1
  | .faulted => 5

/-- The 512 bytes of a context image. -/
def Ctx.image (c : Ctx) : List Byte :=
  toBytes 8 c.pc.toNat ++ toBytes 4 c.code.toNat ++ toBytes 1 (c.prio.toNat + 4 * c.imageCode) ++ toBytes 1 (setBit c.preds 0 true).toNat ++ toBytes 2 0
    ++ (List.range 32).flatMap (fun n => toBytes 8 (if n = 0 then 0 else (Tab.get 0 c.sr n).toNat))
    ++ (List.range 32).flatMap (fun n => toBytes 4 (Tab.get 0 c.ctr n).toNat)
    ++ toBytes 4 c.sticky.toNat ++ toBytes 4 c.latch.toNat ++ toBytes 1 (if c.latchValid then 1 else 0) ++ List.replicate 103 0

/-- The counters of a context image. -/
def imageCtrs (b : List Byte) : Tab W32 := (List.range 32).foldl (fun t n => Tab.set 0 t n (BitVec.ofNat 32 (leAt b (272 + 4 * n) 4))) []

/-- The context that mason restores from an image; none where a reserved byte is not zero or the state code is not 0, 1 or 3. -/
def Ctx.ofImage (b : List Byte) : Option Ctx :=
  let code := leAt b 12 1 / 4 % 16
  if b.length = 512 && leAt b 12 1 < 64 && leAt b 14 2 == 0 && leAt b 408 1 < 2 && (b.drop 409).all (fun v => v == 0) && (code == 0 || code == 1 || code == 3) then
    some
      { pc := BitVec.ofNat 64 (leAt b 0 8), code := BitVec.ofNat 32 (leAt b 8 4), prio := BitVec.ofNat 2 (leAt b 12 1)
        preds := setBit (BitVec.ofNat 8 (leAt b 13 1)) 0 false
        sr := (List.range 31).foldl (fun t n => Tab.set 0 t (n + 1) (BitVec.ofNat 64 (leAt b (24 + 8 * n) 8))) []
        ctr := imageCtrs b
        sticky := BitVec.ofNat 32 (leAt b 400 4), latch := BitVec.ofNat 32 (leAt b 404 4), latchValid := leAt b 408 1 == 1
        st := if code = 0 then .idle else .stopped, priorWaiting := code == 3 }
  else none

/-! ## The manifest (R328, R347, R348) -/

/-- The bytes that an object takes in the data area of a manifest (R348). -/
def Saved.len (q : Saved) : Nat :=
  if q.form = 1 then dataLen q.units.length
  else if q.form = 3 then q.units.length * 65536 + roundUp (ceilDiv q.obj.size 8 + 64 * q.units.length) 4096
  else 0

/-- The bytes of a manifest with its data (R347). -/
def Image.len (m : Image) : Nat :=
  4096 + roundUp 16960 4096 + 512 * 512 + roundUp (64 * m.spLen) 4096
    + roundUp ((m.objs.map (fun q => if q.obj.kind = .page then 128 else 64)).foldl (· + ·) 0) 4096
    + (m.objs.map Saved.len).foldl (· + ·) 0

/-- The cairn flash that an image takes, in units of 64 KiB. -/
def Image.flash (m : Image) : Nat := ceilDiv m.len 65536

/-- The cairn flash that images take. -/
def flashOf (l : List Image) : Nat := (l.map Image.flash).foldl (· + ·) 0

/-- Bytes padded with zeros to a 4-KiB boundary. -/
def pad4k (l : List Byte) : List Byte := l ++ List.replicate (roundUp l.length 4096 - l.length) 0

/-- The job image (R328): 4,096 counters, their sticky flags, and 64 zero bytes. -/
def Image.jobBytes (m : Image) : List Byte :=
  (List.range 4096).flatMap (fun j => toBytes 4 (Tab.get 0 m.jobCtr j).toNat)
    ++ (List.range 512).map (fun j => (List.range 8).foldl (fun v k => setBit v k (Tab.get false m.jobSat (8 * j + k))) (0 : Byte))
    ++ List.replicate 64 0

/-- The image of a context in its reset state. -/
def ctxImage0 : List Byte := ({} : Ctx).image

/-- The 512 context images, in order of context number. -/
def Image.ctxBytes (m : Image) : List Byte := (List.range 512).flatMap (fun x => Tab.get ctxImage0 m.ctxs x)

/-- The scratchpad section: SPKEEP of the 64 logical cores. -/
def Image.spadBytes (m : Image) : List Byte := (List.range 64).flatMap (fun k => Mem.read m.spad (spadKey k m.spBase) m.spLen)

/-- The data of an object in the data area: the bitmap of a delta, the units, and the side-table entries of their blocks. -/
def Saved.data (q : Saved) : List Byte :=
  let bytes (n : Nat) : List Byte := Mem.read q.bytes n 65536
  let map := (List.range (ceilDiv q.obj.size 8)).map (fun j =>
    (List.range 8).foldl (fun v k => setBit v k (8 * j + k ∈ q.units)) (0 : Byte))
  let units := q.units.flatMap (fun u => bytes (65536 * u))
  let entries := q.units.flatMap (fun u => (List.range 16).flatMap (fun b => toBytes 4 (crc32c (Mem.read q.bytes (65536 * u + 4096 * b) 4096))))
  if q.form = 1 then pad4k (units ++ entries) else if q.form = 3 then pad4k (map ++ units ++ entries) else []

/-- The 64-byte entry of the object list, with the page descriptor after that of a page; `off` is where its data lie in the data area. -/
def Saved.entry (q : Saved) (off : Nat) : List Byte :=
  let o := q.obj
  let r := o.registration
  toBytes 4 o.handle.toNat ++ toBytes 1 o.kind.num ++ toBytes 1 q.cls ++ toBytes 1 r.1 ++ toBytes 1 r.2.1 ++ toBytes 1 r.2.2 ++ toBytes 1 o.pg
    ++ toBytes 1 (o.home + (if o.evict then 4 else 0) + 8 * o.eprio) ++ toBytes 1 q.form ++ toBytes 4 o.size ++ toBytes 8 o.wstep.toNat ++ toBytes 8 q.src
    ++ toBytes 8 (if q.form = 1 || q.form = 3 then off else 0) ++ toBytes 4 q.digest ++ toBytes 2 (o.rnode + (if o.rvalid then 32768 else 0)) ++ toBytes 2 0
    ++ toBytes 4 o.rhandle ++ List.replicate 12 0
    ++ (if o.kind = .page then (List.range 8).flatMap (fun n => toBytes 8 (o.page.getD n 0).toNat) else [])

/-- The object list: entries in ascending table index, each with the offset that the data before it leave. -/
def Image.listBytes (m : Image) : List Byte :=
  (m.objs.foldl (fun (p : List Byte × Nat) q => (p.1 ++ q.entry p.2, p.2 + q.data.length)) ([], 0)).1

/-- The offsets of the parts of a manifest: job image, context images, scratchpad section, object list, data area. -/
def Image.offsets (m : Image) : List Nat :=
  let j := 4096
  let c := j + roundUp 16960 4096
  let p := c + 512 * 512
  let l := p + roundUp (64 * m.spLen) 4096
  [j, c, p, l, l + roundUp m.listBytes.length 4096]

/-- The bytes of a manifest from 256 to the end of the object list. -/
def Image.body (m : Image) : List Byte := List.replicate 3840 0 ++ pad4k m.jobBytes ++ m.ctxBytes ++ pad4k m.spadBytes ++ m.listBytes

/-- The 256-byte header of a manifest (R347), with the SHA-256 of its parts and its own CRC-32C. -/
def Image.header (m : Image) : List Byte :=
  let o (n : Nat) : List Byte := toBytes 8 (m.offsets.getD n 0)
  let a : Arc := { ring := m.ring, pos := m.pos }
  let h := toBytes 4 0x4E524143 ++ toBytes 2 1 ++ toBytes 1 1 ++ toBytes 1 (if m.seq = 0 then 1 else 0) ++ toBytes 8 m.jobId.toNat ++ toBytes 8 m.seq
    ++ toBytes 8 m.step.toNat ++ toBytes 2 m.node.toNat ++ toBytes 2 0 ++ toBytes 4 m.objs.length ++ toBytes 8 m.serial.toNat ++ m.nsb.bytes
    ++ toBytes 8 a.topo ++ toBytes 8 a.posWord ++ o 0 ++ o 1 ++ o 2 ++ toBytes 4 m.spBase ++ toBytes 4 m.spLen ++ o 3 ++ o 4
    ++ toBytes 8 (m.objs.flatMap Saved.data).length ++ sha256 m.body ++ List.replicate 36 0
  h ++ toBytes 4 (crc32c h)

/-- All the bytes of a manifest with its data area: what staging writes (R344) and a mirror slot holds (R340). -/
def Image.bytes (m : Image) : List Byte := pad4k (m.head ++ m.body) ++ m.objs.flatMap Saved.data

/-- A manifest with its header written. -/
def Image.sealed (m : Image) : Image := { m with head := m.header }

end Sys2Proof.Machine
end

