-- ==== Sys2Proof/Machine/Job.lean ====
section
/-! DEFINITION. The job: its description, the core map, job start, preemption and stop, and mason's watchdogs (R82, R109 to R111, R294, R295, R326,
R328, R336, R382, R384 to R386). -/

namespace Sys2Proof.Machine

/-! ## The NSB at job start (R82) -/

/-- The lowest bytes of the NSB's fields that R82 refuses. -/
def nsbBad (bs : List Byte) : List Nat :=
  let b (a n : Nat) : Nat := leAt bs a n
  let exp (v : Nat) : Bool := -64 ≤ signed 8 v && signed 8 v ≤ 63
  (if b 28 2 ≤ 999 then [] else [28]) ++ (if b 30 2 = 1000 then [] else [30]) ++ (if exp (b 32 1) then [] else [32]) ++ (if exp (b 33 1) then [] else [33])
    ++ (if fld (b 34 1) 2 1 ≠ 3 && fld (b 34 1) 7 4 = 0 then [] else [34]) ++ (if b 35 1 = 0 then [] else [35]) ++ (if b 36 2 = 1 then [] else [36])
    ++ (if b 38 26 = 0 then [] else [38])

/-- Whether R82 accepts the values of an NSB. -/
def Nsb.ok (n : Nsb) : Bool :=
  n.version == 1 && n.interval == 1000 && -64 ≤ n.lstep.toInt && n.lstep.toInt ≤ 63 && -64 ≤ n.lnext.toInt && n.lnext.toInt ≤ 63
    && n.clean ≤ 999 && n.outcome ≤ 2

/-! ## The core map (R109 to R111) -/

/-- The manufactured spare slot of a die (R14). -/
def spareOf (d : Nat) : Nat := 17 * d + (Config.spareSlot d).val

/-- The slot that first carries logical core `k`: the i-th non-spare slot of its die. -/
def homeSlot (k : Nat) : Nat :=
  let d := k / 16
  let p := 17 * d + k % 16
  if p < spareOf d then p else p + 1

/-- The slot that carries logical core `k` now, none where its die has too many failed slots: the spare takes over the first failed slot's number. -/
def State.mapped (s : State) (k : Nat) : Option Nat :=
  let p := homeSlot k
  let d := k / 16
  if !(s.slot p).failed then some p
  else if !(s.slot (spareOf d)).failed && (List.range (k % 16)).all (fun j => !(s.slot (homeSlot (16 * d + j))).failed) then some (spareOf d)
  else none

/-- Builds the map, recording CORE_SPARED for each substitution; none where a die lacks its 16 slots. -/
def State.buildMap (s : State) : Option State :=
  if (List.range 64).all (fun k => (s.mapped k).isSome) then
    let s := (List.range 68).foldl (fun s p => s.setSlot p { s.slot p with logical := none }) s
    let s := (List.range 64).foldl (fun s k => match s.mapped k with
      | some p => s.setSlot p { s.slot p with logical := some k }
      | none => s) s
    some ((List.range 64).foldl (fun s k => match s.mapped k with
      | some p =>
        if p = homeSlot k then s
        else s.ev (srcOf 0x01 (0x200 + p)) evCoreSpared k (homeSlot k) (toBytes 4 p) (s.slot (homeSlot k)).failInj
      | none => s) s)
  else none

/-! ## Stopping everything (R326, R351 step 1) -/

/-- Gives back what a page's recompute had obtained when it is abandoned (R225). -/
def State.dropRecompute (s : State) (i : Nat) : State :=
  let o := s.obj i
  let s := s.setObj i { o with recompute := none }
  if o.st = .dropped then let t := (s.giveDest o).1; t.setObj i { t.obj i with move := none }
  else if o.recover = some 1 then (s.recoverFrom i 1).1
  else s

/-- Abandons every recompute, running or waiting. -/
def State.dropRecomputes (s : State) : State :=
  let l := ((s.objs.filter (fun p => p.2.recompute.isSome)).map Prod.fst) ++ s.hod.recomputes.map Prod.fst
  l.foldl State.dropRecompute { s with hod := { s.hod with recomputes := [] } }

/-- Abandons every long operation of the contexts, without effect or signal. -/
def State.abandon (s : State) : State :=
  let l := s.ops.filter Op.ofAnyCtx
  let s := l.foldl State.unpin s
  { s with ops := s.ops.filter (fun o => !o.ofAnyCtx) }

/-- Removes the internal pins that a capture holds on what it reads (R337). -/
def State.unpinCapture (s : State) : State :=
  let s' := (s.prs.reads.map Prod.fst).eraseDups.foldl (fun s h =>
    if s.named h then s.setObj (hIdx h) { s.obj (hIdx h) with pins := (s.obj (hIdx h)).pins - 1 } else s) s
  { s' with prs := { s'.prs with reads := [] } }

/-- Step 1 of a restore: contexts stop and are discarded, operations are abandoned, and what belongs to the running step is cleared; the combine
units do not survive (R196). -/
def State.stopAll (s : State) : State :=
  let s := s.ctxKeys.foldl (fun s x => s.setCtx x { (({} : Ctx)) with ctr := (s.ctx x).ctr, sticky := (s.ctx x).sticky }) s
  let s := { s with cores := [] }
  let s := s.abandon.dropRecomputes.unpinCapture
  let s := { s with
    overflow := false
    acc := []
    arc := { s.arc with
      posted := [], colls := [], issued := [0, 0, 0, 0], done := [0, 0, 0, 0], sent := false, delivered := false, result := false
      orIn := false, orGot := [], orEarly := [], hold := false, holdNext := false }
    qry := { s.qry with streams := [], queue := [], engines := [] }
    kst := { s.kst with epoch := s.kst.epoch + 1, out := 0, quiesce := false }
    mtr := { s.mtr with combine := [] }
    prs := { s.prs with
      capture := .none, captured := none, gaveUp := none, replay := none, warned := false
      staged := match s.prs.capture with
        | .saving _ _ true => none
        | _ => s.prs.staged } }
  s.settle (s.ops.map Op.id)

/-- JOB_STOP (R382): the job ends, its open entries are answered ABORTED, and objects, images and a drain stay. -/
def State.stopJob (s : State) : State :=
  let s := s.stopAll
  let s := { s with
    kst := { s.kst with active := false }
    msn := { s.msn with job := false, preempt := false }
    prs := { s.prs with restore := .none }
    hif := { s.hif with starts := [] } }
  s.flush

/-- Answers every open entry of rings 1 to 31 with ABORTED. -/
def State.abortEntries (s : State) : State :=
  (List.range 31).foldl (fun s j =>
    ((s.ring (j + 1)).fetched.filter (fun f => f.answer.isNone)).foldl (fun s f => s.answer (j + 1) f.count stAborted 0) s) s

def execJobStop (e : BitVec 512) (s : State) : Host.Outcome State Fault Refusal :=
  .next (s.ring0 0x13 e (fun s c => (s.stopJob.abortEntries).answer 0 c stOk 0))

/-! ## Preemption (R382) -/

/-- Stops every READY, RUNNING or WAITING context; PREEMPT completes once no long operation is outstanding. -/
def State.preemptAll (s : State) : State :=
  let t := s.ctxKeys.foldl (fun u x => (u.takeBack x).stopCtx x) s
  ({ t with msn := { t.msn with preempt := false } }).preemptDone

/-- PREEMPT; during a capture or a replay hold it waits for the hold's end. -/
def State.runPreempt (s : State) (e : BitVec 512) (c : Nat) : State :=
  let s := { s with msn := { s.msn with busy := some (c, entTag e, entFlags e, 0x11), preempt := true } }
  if s.held then s else s.preemptAll

def execPreempt (e : BitVec 512) (s : State) : Host.Outcome State Fault Refusal := .next (s.ring0 0x11 e (fun s c => s.runPreempt e c))

/-- A PREEMPT that waited for a hold takes effect at its end. -/
def State.holdEnded (s : State) : State := if s.msn.preempt && !s.held then s.preemptAll else s

/-- RESUME. While a capture holds the contexts, it waits. -/
def execResume (e : BitVec 512) (s : State) : Host.Outcome State Fault Refusal :=
  .next (if s.prs.capture != .none then s
    else s.ring0 0x12 e (fun s c => (s.ctxKeys.foldl State.resumeCtx s).answer 0 c stOk 0))

/-! ## The job description (R384, R336) -/

/-- Fields of a job description. -/
structure Job where
  d : List Byte
  deriving Repr

def Job.at (j : Job) (a n : Nat) : Nat := leAt j.d a n
def Job.ring (j : Job) : List Nat := (List.range 4).map (fun c => j.at (80 + 2 * c) 2)
def Job.pos (j : Job) : List Nat := (List.range 4).map (fun c => j.at (88 + 2 * c) 2)
def Job.bvalid (j : Job) : Bool := bitOf (j.at 97 1) 7
def Job.bres (j : Job) : Nat := j.at 100 4
def Job.stage (j : Job) : Nat := j.at 104 4
def Job.loss (j : Job) : Option (Nat × Nat) := if bitOf (j.at 120 4) 31 then some (fld (j.at 120 4) 23 0, j.at 124 4) else none

/-- The lowest bytes of the fields of a job description that are out of range (R190, R294, R336, R349, R82). -/
def State.jobBad (s : State) (j : Job) : List Nat :=
  let no (b : Bool) (a : Nat) : List Nat := if b then [] else [a]
  let sint := j.at 98 2
  let mint := j.at 96 1
  no (j.at 0 4 == 0x424F4A54) 0 ++ no (j.at 4 2 == 1) 4 ++ no (fld (j.at 6 1) 2 0 ≤ 4 && fld (j.at 6 1) 7 4 == 0) 6 ++ no (j.at 7 1 == 0) 7
    ++ no (j.at 8 8 != 0) 8 ++ (nsbBad ((j.d.drop 16).take 64)).map (· + 16)
    ++ no (j.ring.foldl (· * ·) 1 ≤ 16384) 80
    ++ (List.range 4).flatMap (fun c => no (1 ≤ j.ring.getD c 0 && j.ring.getD c 0 ≤ 1024) (80 + 2 * c) ++ no (j.pos.getD c 0 < j.ring.getD c 0) (88 + 2 * c))
    ++ no (1 ≤ mint) 96 ++ no (fld (j.at 97 1) 6 2 == 0) 97 ++ no (sint ≤ 65280 && (mint == 0 || sint % mint == 0)) 98
    ++ no (j.bres % 2 == 0) 100 ++ no (j.stage % 2 == 0) 104 ++ no (1 ≤ j.at 108 1 && j.at 108 1 ≤ 15) 108
    ++ no (j.at 109 3 == 0) 109
    ++ no (j.at 112 4 % 64 == 0 && j.at 112 4 + j.at 116 4 ≤ spadEnd) 112 ++ no (j.at 116 4 % 64 == 0 && j.at 116 4 ≤ 2 ^ 20) 116
    ++ no (match j.loss with
        | some (h, _) => fld (j.at 120 4) 30 24 == 0 && s.named h && (s.obj (hIdx h)).kind == .data
        | none => true) 120
    ++ no (match j.loss with
        | some (h, off) => off % 4 == 0 && (!s.named h || off + 4 ≤ (s.obj (hIdx h)).bytes)
        | none => true) 124
    ++ no (1 ≤ j.at 128 4 && j.at 128 4 ≤ 60000) 128
    ++ no (j.at 132 124 == 0) 132

/-- The topology that a job description gives the arch (R294). -/
def State.topology (s : State) (j : Job) : Arc :=
  let a := { s.arc with ring := j.ring, pos := j.pos, valid := true }
  { a with node := BitVec.ofNat 14 (a.nodeAt j.pos) }

/-- Whether a neighbour in a course and direction answers as the topology asks, over a pair that is up (R295). -/
def State.neighbourOk (s : State) (a : Arc) (reports : List Neighbour) (c : Nat) (f : Bool) : Bool :=
  let (p, q) := pairPorts c f
  let n := a.n c
  let pos := a.pos.set c ((a.at c + (if f then 1 else n - 1)) % n)
  ((s.port p).inUse || (s.port q).inUse)
    && reports.any (fun r => r.course.val == c && r.following == f && r.node.toNat == a.neighbour c f && r.pos.toList == pos)

/-- The first course whose exchange fails, with whether an injection made it fail. -/
def State.topoMismatch (s : State) (a : Arc) (reports : List Neighbour) : Option (Nat × Bool) :=
  ((List.range 4).filter (fun c => 1 < a.n c)).findSome? (fun c =>
    if s.injArmed evArcTopoMismatch (srcOf 0x07 c) then some (c, true)
    else if s.neighbourOk a reports c true && s.neighbourOk a reports c false then none
    else some (c, false))

/-- The units of a size in MiB. -/
def mibUnits (n : Nat) : Nat := 16 * n

/-- The FREE indices of the object table. -/
def State.freeIndices (s : State) : Nat := 2 ^ 20 - 1 - (s.objs.filter (fun p => p.1 != 0 && p.2.st != .free)).length

/-- Whether the job's mirror slots and staging object can be had (R336): their capacity, and an index for each. -/
def State.jobRoom (s : State) (j : Job) : Bool :=
  (if j.bvalid && j.bres != 0 then 2 else 0) + (if j.stage ≠ 0 then 1 else 0) ≤ s.freeIndices && (if j.bvalid then 2 * mibUnits j.bres else 0) ≤ s.hod.freeFast && mibUnits j.stage ≤ s.hod.freeSlow

/-- An object of kind IMAGE at the next free index (R268). -/
def State.image (s : State) (home size : Nat) (hosted : Bool) (node : Nat) : State :=
  if size = 0 then s
  else
    match s.freeIndex with
    | none => s
    | some i =>
      let o : Obj := { handle := s.nextHandle i, st := if home = 0 then .fast else .slow, kind := .image, home := home, size := size, hosted := hosted, hnode := node }
      let s := s.install i o
      { s with prs := { s.prs with hosted := s.prs.hosted ++ [i] } }

/-- Frees the mirror slots and the staging object of an earlier job. -/
def State.freeImages (s : State) : State :=
  let s := s.prs.hosted.foldl (fun s i =>
    let o := s.obj i
    let s := { s with hod := if o.home = 0 then { s.hod with freeFast := s.hod.freeFast + o.size, allocFast := s.hod.allocFast + o.size }
                             else { s.hod with freeSlow := s.hod.freeSlow + o.size, allocSlow := s.hod.allocSlow + o.size } }
    s.setObj i { handle := o.handle }) s
  { s with prs := { s.prs with hosted := [] } }

/-- Creates the mirror slots for the predecessor in BCOURSE and the staging object; HOD_CAP_FAST and HOD_CAP_SLOW exclude them. -/
def State.jobImages (s : State) (j : Job) (a : Arc) : State :=
  let f := if j.bvalid then mibUnits j.bres else 0
  let t := mibUnits j.stage
  let pre := a.neighbour (fld (j.at 97 1) 1 0) false
  let s := { s with hod := { s.hod with
    freeFast := s.hod.freeFast - 2 * f, allocFast := s.hod.allocFast - 2 * f, freeSlow := s.hod.freeSlow - t, allocSlow := s.hod.allocSlow - t } }
  ((s.image 0 f true pre).image 0 f true pre).image 1 t false 0

/-- The settings of the preservation engine at job start (R336, R346): images of another job are freed, and
sequence numbers go on after those of this job, the one that still drains among them. -/
def Prs.start (p : Prs) (j : Job) : Prs :=
  let same := p.images.filter (fun m => m.jobId.toNat == j.at 8 8)
  let draining := p.staged.toList.filter (fun m => m.jobId.toNat == j.at 8 8)
  { p with
    jobId := BitVec.ofNat 64 (j.at 8 8), sint := j.at 98 2, mint := j.at 96 1, bcourse := fld (j.at 97 1) 1 0, bvalid := j.bvalid, dchain := j.at 108 1
    bres := j.bres, stage := j.stage, spBase := j.at 112 4, spLen := j.at 116 4, loss := j.loss, qlimit := j.at 128 4
    capture := .none, captured := none, gaveUp := none, reads := [], replaced := (same ++ draining).isEmpty, warned := false, restore := .none, replay := none, pendingSnap := none, slots := [{}, {}]
    images := same, flashFree := p.flashFree + (flashOf p.images - flashOf same)
    nextSeq := ((same ++ draining).map Image.seq).foldl max 0 + 1 }

/-- Orders 3 and 4 of R385, but for the core map: the NSB, and every counter and sticky flag 0. -/
def State.clearJob (s : State) (j : Job) : State :=
  { s with
    nsb := { nsbOf ((j.d.drop 16).take 64) with outcome := 0, applied := false }
    ctxs := s.ctxKeys.foldl (fun t x => Tab.set {} t x { s.ctx x with ctr := [], sticky := 0 }) s.ctxs
    kst := { s.kst with ctr := [], jsat := [], sys := [], syssat := [], epoch := 0, out := 0, markers := [], sent := [] } }

/-- Orders 5 and 6 of R385. -/
def State.startJob (s : State) (j : Job) : State :=
  let s := { s with
    kst := { s.kst with active := true }
    mtr := { s.mtr with caWays := fld (j.at 6 1) 2 0, combine := [] }
    hod := { s.hod with dropEn := bitOf (j.at 6 1) 3 }
    arc := { s.arc with sent := false, delivered := false, result := false, orIn := false, orGot := [], orEarly := [], hold := false, holdNext := false
                        issued := [0, 0, 0, 0], done := [0, 0, 0, 0], colls := [], posted := [] }
    msn := { s.msn with job := true } }
  ({ s with prs := s.prs.start j }.freeImages).jobImages j s.arc

/-- JOB_START (R385). The result of a refusal names the order of its row; what the orders before it did stays. DEDUCED (118): so does the topology when its exchange
fails. -/
def State.runJobStart (s : State) (e : BitVec 512) (c : Nat) (reports : List Neighbour) : State :=
  let h := entAt e 8 4
  let refuse (s : State) (v : Nat) : State := s.answer 0 c stRefused v
  if 2 ^ 24 ≤ h then s.answer 0 c stMalformed 0
  else if s.msn.job || s.pln.noJob then refuse s 0
  else if !(s.ringHandleOk h && (s.obj (hIdx h)).kind == .data && 256 ≤ (s.obj (hIdx h)).bytes) then refuse s 1
  else
    let j : Job := { d := s.objRead (hIdx h) 0 256 }
    match (s.jobBad j).min? with
    | some b => refuse s (1 + b * 2 ^ 16)
    | none =>
      let a := s.topology j
      let bad := s.topoMismatch a reports
      let s := { s with arc := a }
      match bad with
      | some (k, inj) =>
        let s := if inj then s.injReport else s
        refuse (s.ev (srcOf 0x07 k) evArcTopoMismatch 0 0 [] inj) (2 + k * 2 ^ 16)
      | none =>
        let s := s.clearJob j
        match s.buildMap with
        | none => refuse s 4
        | some s => if !(s.freeImages.jobRoom j) then refuse s 5 else (s.startJob j).answer 0 c stOk 0

def execJobStart (e : BitVec 512) (reports : List Neighbour) (s : State) : Host.Outcome State Fault Refusal :=
  .next (s.ring0 0x10 e (fun s c => s.runJobStart e c reports) (!s.msn.job && !s.pln.noJob && s.waitsFor (entAt e 8 4)))

/-! ## Watchdogs of mason (R386) -/

/-- MSN_WDOG: mason is dead until the module is reset. -/
def execMsnWdog (m : Fin 4) (s : State) : Host.Outcome State Fault Refusal :=
  .next (if !s.msn.fw || s.msn.dead then s
    else
      let r := s.injCheck evMsnWdog (srcOf 0x09 m.val)
      ({ r.2 with msn := { r.2.msn with dead := true, fault := setBit r.2.msn.fault 0 true } }).ev (srcOf 0x09 m.val) evMsnWdog 0 0 [] r.1)

end Sys2Proof.Machine
end

