-- ==== Sys2Proof/Machine/Prs.lean ====
section
/-! DEFINITION. Cairn and buttress: captures at a boundary, images and mirrors, the drain, the replay check and restore (R332 to R352). -/

namespace Sys2Proof

/-- The ANCHOR generation that the following neighbour of a replacement module holds (R351), by capture step: what another module holds is not this module's state. -/
opaque Config.neighbourAnchor : Nat → Option Machine.Image

end Sys2Proof

namespace Sys2Proof.Machine

/-! ## What a capture holds (R343, R347, R348) -/

/-- The digest of an object: CRC-32C over its side-table entries in block order (R348, R252). -/
def State.digest (s : State) (i : Nat) : Nat :=
  crc32c ((List.range (16 * (s.obj i).size)).flatMap (fun b => toBytes 4 (crc32c (s.objRead i (4096 * b) 4096))))

/-- The bytes of 64-KiB units of an object, by offset in it. -/
def State.unitCells (s : State) (i : Nat) (units : List Nat) : List Host.Cell :=
  s.objMem.filterMap (fun c =>
    if objKey i 0 ≤ c.1 && c.1 < objKey i (2 ^ 40) && (c.1 - objKey i 0) / 65536 ∈ units then some (c.1 - objKey i 0, c.2) else none)

/-- The objects that a manifest lists: not FREE and not IMAGE, in ascending table index. -/
def State.listed (s : State) : List (Nat × Obj) := s.objs.filter (fun p => p.2.st != .free && p.2.kind != .image)

/-- An entry of a manifest: its form, the image it names, and the units stored. -/
def State.savedAs (s : State) (i form src : Nat) (units : List Nat) : Saved :=
  { obj := s.obj i, idx := i, cls := (s.obj i).cls, form := form, src := src, units := units, bytes := s.unitCells i units
    digest := s.digest i }

/-- The units of a whole object. -/
def Obj.units (o : Obj) : List Nat := List.range o.size

/-- The entry of an object in an image, when the image holds it in some form. -/
def Image.entry (m : Image) (i : Nat) (h : BitVec 24) : Option Saved := m.objs.find? (fun q => q.idx == i && q.obj.handle == h && q.form != 0)

/-- The number of deltas in the chain that ends with an entry. -/
def chainLen (l : List Image) : Nat → Saved → Nat
  | 0, _ => 0
  | n + 1, q =>
    let next := (l.find? (fun m => m.seq == q.src)).bind (fun m => m.entry q.idx q.obj.handle)
    match q.form, next with
    | 2, some r => chainLen l n r
    | 3, some r => chainLen l n r + 1
    | _, _ => 0

/-- The images of the job that can be restored from. -/
def State.retained (s : State) : List Image := s.prs.images.filter (fun m => m.usable && m.jobId == s.prs.jobId)

/-- An object's entry in the next cairn image (R343). -/
def State.cairnEntry (s : State) (i : Nat) : Saved :=
  let o := s.obj i
  let l := s.retained
  if o.cls = 1 then s.savedAs i 0 0 []
  else
    match l.reverse.find? (fun m => match m.entry i o.handle with
      | some q => q.form != 2 && q.obj.wstep == o.wstep
      | none => false), l.getLast? with
    | some m, _ => s.savedAs i 2 m.seq []
    | none, some m =>
      match m.entry i o.handle with
      | some q =>
        if o.cls = 4 && q.cls == 4 && chainLen l (16 * l.length + 16) q + 1 ≤ s.prs.dchain && s.prs.images.getLast? == some m then
          s.savedAs i 3 m.seq (o.units.filter (· ∈ o.delta))
        else s.savedAs i 1 0 o.units
      | none => s.savedAs i 1 0 o.units
    | none, none => s.savedAs i 1 0 o.units

/-- What every manifest of boundary `b` holds besides its objects: the contexts, the job image, the NSB and SPKEEP of every core. -/
def State.manifest (s : State) (b seq : Nat) (objs : List Saved) : Image :=
  let m : Image :=
    { serial := Config.serial
      jobId := s.prs.jobId
      seq := seq
      step := BitVec.ofNat 64 b
      node := s.arc.node
      nsb := s.nsb
      ring := s.arc.ring
      pos := s.arc.pos
      jobCtr := s.kst.ctr
      jobSat := s.kst.jsat
      ctxs := (s.ctxs.map (fun p => (p.1, p.2.image))).filter (fun p => p.2 != ctxImage0)
      spBase := s.prs.spBase
      spLen := s.prs.spLen
      spad := s.spad.filter (fun c => s.prs.spBase ≤ c.1 % 2 ^ 23 && c.1 % 2 ^ 23 < s.prs.spBase + s.prs.spLen)
      objs := objs }
  m.sealed

/-- The cairn image of boundary `b`. -/
def State.cairnImage (s : State) (b : Nat) : Image := s.manifest b s.prs.nextSeq (s.listed.map (fun p => s.cairnEntry p.1))

/-- The number of the slot that has not the role ANCHOR: LATEST. -/
def Prs.latest (p : Prs) : Nat := (p.slots.findIdx? (fun q => !q.anchor)).getD 0

/-- What the slot to be written holds already of an object: its copy of the same WSTEP, which buttress does not send again (R341). -/
def State.inSlot (s : State) (o : Obj) (i : Nat) : Option Saved :=
  (((s.prs.slots[s.prs.latest]?).bind MirrorSlot.image).bind (fun m => m.entry i o.handle)).filter (fun q => q.form == 1 && q.obj.wstep == o.wstep)

/-- The mirror generation of boundary `b` (R340). -/
def State.mirrorImage (s : State) (b : Nat) : Image :=
  s.manifest b 0 (s.listed.map (fun p =>
    if p.2.cls = 2 then
      match s.inSlot p.2 p.1 with
      | some q => { q with obj := p.2, cls := 2 }
      | none => s.savedAs p.1 1 0 p.2.units
    else s.savedAs p.1 0 0 []))

/-- The objects that buttress sends (R341). -/
def State.mirrored (s : State) : List (Nat × Obj) := s.listed.filter (fun p => p.2.cls == 2 && (s.inSlot p.2 p.1).isNone)

/-- What staging or the mirror reads of an object, as handle, offset and length. -/
def Saved.reads (q : Saved) : List (Nat × Nat × Nat) :=
  if q.form = 1 then [(q.obj.handle.toNat, 0, q.obj.bytes)] else if q.form = 3 then q.units.map (fun u => (q.obj.handle.toNat, 65536 * u, 65536)) else []

/-- What a capture reads. -/
def State.captureReads (s : State) (b : Nat) (mirror snap : Bool) : List (Nat × Nat × Nat) :=
  (if mirror then s.mirrored.map (fun p => (p.2.handle.toNat, 0, p.2.bytes)) else []) ++ (if snap then (s.cairnImage b).objs.flatMap Saved.reads else [])

/-- The serial number of the following neighbour in BCOURSE, which hosts the mirrors. -/
def State.hostSerial (s : State) : BitVec 48 :=
  let (p, q) := pairPorts s.prs.bcourse true
  if (s.port p).inUse then (s.port p).serial else (s.port q).serial

/-- Buttress sends a mirror on the ordered data channel (R340, R341): peer data for each object that it sends, and then the manifest. Offsets are those of the slot; the
handle of the slot at its host is a free value. -/
def State.sendMirror (s : State) (m : Image) (sent : List (Nat × Obj)) : State :=
  let (k, s) := s.fresh
  let dst := s.arc.neighbour s.prs.bcourse true
  let put (s : State) (off : Nat) (data : List Byte) : State :=
    s.link { s.newMsg dst 7 with len := data.length, tag := BitVec.ofNat 32 (Config.choose k % 2 ^ 24), off := off, data := data } s.prs.bcourse true
  let list := pad4k (m.head ++ m.body)
  let s := (m.objs.foldl (fun (p : State × Nat) q =>
    (if sent.any (fun o => o.1 == q.idx) then put p.1 p.2 q.data else p.1, p.2 + q.data.length)) (s, list.length)).1
  put s 0 list

/-! ## Captures (R337 to R342) -/

/-- Whether the module is quiescent. -/
def State.quiescent (s : State) : Bool :=
  s.ctxs.all (fun p => p.2.st != .ready && p.2.st != .running) && !s.ops.any Op.ofAnyCtx && s.kst.out == 0

/-- CAPTURE_QUIESCENT. -/
def execCaptureQuiescent (s : State) : Host.Outcome State Fault Refusal :=
  .next (match s.prs.capture with
    | .quiesce b => if s.quiescent then { s with prs := { s.prs with capture := .barrier b } } else s
    | _ => s)

/-- PRS_QUIESCE_TIMEOUT. -/
def execPrsQuiesceTimeout (s : State) : Host.Outcome State Fault Refusal :=
  .next (match s.prs.capture with
    | .quiesce _ => s.quiesceTimeout false
    | _ => s)

/-- The sequence of the newest complete and usable image. -/
def State.newestImage (s : State) : Nat := (s.retained.map Image.seq).foldl max 0

/-- LATEST takes the role ANCHOR when the image of its boundary is complete on every module (R342). -/
def State.anchorMove (s : State) (others : List CaptureInfo) : State :=
  match s.prs.pendingSnap with
  | some (_, seq) =>
    if seq ≤ s.newestImage && others.all (fun o => seq ≤ o.newest) && s.prs.slots.any (fun q => !q.anchor && q.valid) then
      { s with prs := { s.prs with
        slots := s.prs.slots.zipIdx.map (fun p => { p.1 with anchor := p.2 == s.prs.latest })
        pendingSnap := none } }
    else s
  | none => s

/-- Whether this module cannot take an image of boundary `b`: a drain in progress, too little flash, or STAGE too small. -/
def State.noSnapshot (s : State) (b : Nat) : Bool :=
  s.prs.staged.isSome || decide (s.prs.flashFree < (s.cairnImage b).flash) || decide (s.prs.stage * 2 ^ 20 < (s.cairnImage b).len)

/-- Records that cairn skips a boundary, with the reason: 1 taint, 2 no room. -/
def State.snapSkip (s : State) (reason : Nat) (inj : Bool) : State := (s.prsFault 0).ev (prsSrc 0) evPrsSnapSkip reason 0 [] inj

/-- Records that buttress skips a boundary, with the reason: 1 taint, 3 a cairn boundary pending. -/
def State.mirrorSkip (s : State) (reason : Nat) : State := (s.prsFault 1).ev (prsSrc 1) evPrsMirrorSkip reason

/-- The end of a hold at boundary `b`: NUM.STEPBEGIN issues. -/
def State.captureOver (s : State) (b : Nat) : State :=
  ({ s with prs := { s.prs with capture := .none, captured := some b }, kst := { s.kst with quiesce := false } }).wakeStep.holdEnded

/-- Takes the internal pins of a capture on what it reads (R270, R337). -/
def State.pinCapture (s : State) (l : List (Nat × Nat × Nat)) : State :=
  let s := (l.map Prod.fst).eraseDups.foldl (fun s h => s.setObj (hIdx h) { s.obj (hIdx h) with pins := (s.obj (hIdx h)).pins + 1 }) s
  { s with prs := { s.prs with reads := l } }

/-- Order 3, and the beginning of order 4: contexts stop, what is captured is taken, and each source read holds its internal pin. The slot that buttress writes is not
valid until the end barrier. -/
def State.save (s : State) (b : Nat) (mirror snap : Bool) : State :=
  let s := s.ctxKeys.foldl State.stopCtx s
  let m := s.mirrorImage b
  let img := s.cairnImage b
  let sent := s.mirrored
  let s := s.pinCapture (s.captureReads b mirror snap)
  let s := { s with prs := { s.prs with
    capture := .saving b mirror snap
    slots := if mirror then s.prs.slots.set s.prs.latest { image := some m, host := s.hostSerial } else s.prs.slots
    staged := if snap then some img else s.prs.staged } }
  if mirror then s.sendMirror m sent else s

/-- The capture barrier of boundary `b` (R339). Registrations take effect at the boundary, before its capture (R332). -/
def State.captureBarrier (s : State) (b : Nat) (others : List CaptureInfo) : State :=
  let s := s.registrations.anchorMove others
  let mirror := s.mirrorDue b
  let snap := s.snapDue b
  if s.nsb.taint || others.any CaptureInfo.taint then
    let s := if mirror then s.mirrorSkip 1 else s
    (if snap then s.snapSkip 1 false else s).captureOver b
  else
    let (i, s) := if snap then s.injCheck evPrsSnapSkip (prsSrc 0) else (false, s)
    let full := snap && (i || s.noSnapshot b || others.any CaptureInfo.noSnapshot)
    let pend := mirror && s.prs.pendingSnap.isSome
    let s := if full then s.snapSkip 2 i else s
    let s := if pend then s.mirrorSkip 3 else s
    if (mirror && !pend) || (snap && !full) then s.save b (mirror && !pend) (snap && !full) else s.captureOver b


/-- The ranges that the capture in progress reads. An object destroyed meanwhile is read no more. -/
def State.captureRefs (s : State) : List ObjRef :=
  (s.prs.reads.filter (fun r => s.named r.1)).map (fun r => { h := r.1, lo := r.2.1, n := r.2.2, wr := false })

/-- Staging (R344): the image's bytes in the staging object, and the bits of what it holds cleared (R343). -/
def State.stage (s : State) (img : Image) : State :=
  let s := match s.prs.hosted.find? (fun i => (s.obj i).home == 1 && !(s.obj i).hosted) with
    | some i => s.objWrite i 0 img.bytes
    | none => s
  { s with objs := (s.objs.map (fun p => (p.1, { p.2 with delta := [] }))).filter (fun p => p.2 != {}) }

/-- The end of order 4: staging is done, the pins are given up, the slot becomes a valid LATEST, the drain begins, and the contexts resume. -/
def State.captureEnd (s : State) (b : Nat) (mirror snap : Bool) : State :=
  let s := s.unpinCapture
  let s := if snap then s.stage (s.prs.staged.getD {}) else s
  let p := { s.prs with replaced := false }
  let img := p.staged.getD {}
  let p := if mirror then
      { p with slots := p.slots.modify p.latest (fun q => { q with valid := true }), pendingSnap := if snap then some (b, img.seq) else p.pendingSnap }
    else p
  let p := if snap then { p with drain := BitVec.ofNat 64 img.len, nextSeq := p.nextSeq + 1, flashFree := p.flashFree - img.flash } else p
  let s := { s with prs := { p with capture := .none, captured := some b }, kst := { s.kst with quiesce := false } }
  (s.ctxKeys.foldl State.resumeCtx s).holdEnded

/-- What the reads of order 4 meet: `ds` beside the marks that stand already. -/
def State.captureFound (s : State) (snap : Bool) (ds : List Detect) : Found := s.detect (prsSrc (if snap then 0 else 1)) 0 s.captureRefs ds

/-- CAPTURE_BARRIER, with the errors that the reads of order 4 meet. What has begun since CAPTURE_QUIESCENT is waited for: contexts and counters are saved only
at a quiescent point (R327, R328). A supply warning lets nothing new start (R409). -/
def execCaptureBarrier (others : Met (List CaptureInfo)) (s : State) : Host.Outcome State Fault Refusal :=
  .next (match s.prs.capture with
    | .barrier b =>
      if s.quiescent && !s.warned then
        let t := s.captureBarrier b others.of
        match t.prs.capture with
        | .saving _ _ snap => if others.found.isEmpty then t else let f := t.captureFound snap others.found; f.s.settle f.again
        | _ => t
      else s
    | _ => s)

/-- CAPTURE_END_BARRIER: not once this module has stopped (R338), not while a supply warning keeps
contexts in their state (R409), and only past order 4, for which every source must be reached and its blocks must match (R253, R337). The host's writes held until then go on. -/
def execCaptureEndBarrier (s : State) : Host.Outcome State Fault Refusal :=
  .next (match s.prs.capture with
    | .saving b mirror snap =>
      if s.pln.stopped || s.msn.dead || s.warned then s else
      let f := s.captureFound snap []
      if s.captureRefs.all (f.s.reaches (.ring 0 0 0 0)) then
        (f.s.captureEnd b mirror snap).settle (f.again ++ (f.s.ops.filter (fun o => o.kind == .hostWrite)).map Op.id)
      else f.s.settle f.again
    | _ => s)

/-! ## The drain (R345, R346) -/

/-- The images that stay once a newer one is complete: the three newest of the job, and what they name. -/
def keepImages (l : List Image) : List Image :=
  let newest := ((l.filter Image.complete).reverse.take 3).map Image.seq
  let k := closure l l.length newest
  l.filter (fun m => m.seq ∈ k)

/-- CAIRN_DRAIN_COMPLETE: the image with its commit record is in flash; a flash page that cannot be read makes it unusable. -/
def State.drainComplete (s : State) (readable : Bool) : State :=
  match s.prs.staged, s.prs.capture with
  | some _, .saving _ _ true => s
  | none, _ => s
  | some m, _ =>
    let s := { s with prs := { s.prs with staged := none, drain := 0 } }
    if m.jobId ≠ s.prs.jobId then { s with prs := { s.prs with flashFree := s.prs.flashFree + m.flash } }
    else
      let all := s.prs.images ++ [{ m with complete := true, usable := readable }]
      let kept := keepImages all
      let s := { s with prs := { s.prs with images := kept, flashFree := s.prs.flashFree + (flashOf all - flashOf kept) } }
      if readable then s else s.flashError m.seq false

def execCairnDrainComplete (readable : Bool) (s : State) : Host.Outcome State Fault Refusal := .next (s.drainComplete readable)

/-! ## The replay check (R350) -/

/-- The end of the replay check. -/
def State.replayOver (s : State) : State := ({ s with prs := { s.prs with replay := none } }).wakeStep.holdEnded

/-- The barrier of the replay check, with this module's verdict `v`. -/
def State.replayDecide (s : State) (r : Replay) (v : Verdict) (others : List Verdict) : State :=
  let hold (nr : Bool) (s : State) : State := { s with prs := { s.prs with replay := some { r with held := true, noref := nr } } }
  if v = .differs then hold false ((s.prsFault 4).ev (prsSrc 0) evReplayMismatch r.step.toNat 0 [] r.inj)
  else if others.any (fun o => o == .differs) then hold false s
  else if v = .noReference || others.any (fun o => o == .noReference) then hold true ((s.prsFault 5).ev (prsSrc 0) evReplayNoref r.step.toNat)
  else (s.ev (prsSrc 0) evPrsReplayOk r.step.toNat).replayOver

/-- REPLAY_VERDICT. -/
def execReplayVerdict (others : List Verdict) (s : State) : Host.Outcome State Fault Refusal :=
  .next (match s.prs.replay with
    | some r =>
      match r.verdict with
      | some v => if r.held then s else s.replayDecide r v others
      | none => s
    | none => s)

/-- CONTINUE: only a job held by REPLAY_NOREF. -/
def execContinueJob (e : BitVec 512) (s : State) : Host.Outcome State Fault Refusal :=
  .next (s.ring0 0x16 e (fun s c => match s.prs.replay with
    | some r => if r.held && r.noref then s.replayOver.answer 0 c stOk 0 else s.answer 0 c stRefused 0
    | none => s.answer 0 c stRefused 0))

/-! ## Restore (R351, R352) -/

/-- Ends the RESTORE command. -/
def State.restoreDone (s : State) (status : Nat) : State :=
  let s := { s with prs := { s.prs with restore := .none }, kst := { s.kst with markers := [] } }
  match s.msn.busy with
  | some (c, _, _, _) => ({ s with msn := { s.msn with busy := none } }).answer 0 c status 0
  | none => s

/-- A step of a restore fails: the job stays stopped. -/
def State.restoreFail (s : State) (code b : Nat) (inj : Bool) : State := ((s.prsFault 6).ev (prsSrc 0) code b 0 [] inj).restoreDone stRefused

/-- The module's own image of boundary `b`, unless a page of its manifest cannot be read; with whether that was injected. -/
def State.ownImage (s : State) (job : W64) (b : Nat) (ds : List Detect) : Option Image × Bool × State :=
  match s.prs.images.find? (fun m => m.complete && m.usable && m.step.toNat == b && m.jobId == job) with
  | none => (none, false, s)
  | some m =>
    let (i, lost, s) := s.readFlash m.seq [m.seq] ds
    (if lost.isEmpty then some m else none, i, s)

/-- The ANCHOR generation on the following neighbour of a replacement module, when its capture step is `b`. -/
def State.anchorImage (s : State) (job : W64) (b : Nat) : Option Image :=
  if s.prs.replaced then (Config.neighbourAnchor b).filter (fun m => m.step.toNat == b && m.jobId == job) else none

/-- The checks of step 3 on a manifest: the header's CRC, its fields and the SHA-256 are those that its parts give. -/
def State.manifestOk (s : State) (m : Image) : Bool :=
  m.head == m.header && m.node == s.arc.node && m.ring == s.arc.ring && m.pos == s.arc.pos && m.nsb.ok

/-- The links that the job uses carry a marker of the new epoch on each virtual channel (R326), as port, channel and epoch. -/
def State.ownMarkers (s : State) : List (Nat × Nat × Nat) :=
  (List.range 4).flatMap (fun c => if s.arc.n c ≤ 1 then [] else [2 * c, 2 * c + 1].flatMap (fun p => (List.range 4).map (fun v => (p, v, s.kst.epoch.toNat))))

/-- What mason does at a restore besides step 1: it sends the markers of the new epoch, and each slot remembers the address of its last uncorrectable error (R108). -/
def State.restoreBegins (s : State) : State :=
  { s with
    slots := s.slots.map (fun p => (p.1, { p.2 with oldErrs := p.2.oldErrs ++ p.2.errs.filter (· ∉ p.2.oldErrs), errs := [] }))
    kst := { s.kst with sent := s.ownMarkers } }

/-- Steps 1 to 3. -/
def State.runRestore (s : State) (e : BitVec 512) (ds : List Detect) (c : Nat) : State :=
  if !s.msn.job then s.answer 0 c stRefused 0
  else
    let b := entAt e 16 8
    let job : W64 := BitVec.ofNat 64 (entAt e 8 8)
    let s := { s with msn := { s.msn with busy := some (c, entTag e, entFlags e, 0x14) } }.stopAll.restoreBegins
    let (own, gone, s) := s.ownImage job b ds
    let (i, s) := s.injCheck evPrsRestoreFail (prsSrc 0)
    match own, s.anchorImage job b with
    | some m, _ =>
      if i || !s.manifestOk m then s.restoreFail evPrsRestoreFail b i else { s with prs := { s.prs with restore := .nsbBarrier m true } }
    | none, some m =>
      if i || !s.manifestOk m then s.restoreFail evPrsRestoreFail b i
      else { s with prs := { s.prs with restore := .nsbBarrier m false, slots := [{}, { image := some m, host := s.hostSerial, valid := true, anchor := true }], pendingSnap := none } }
    | none, none => s.restoreFail evPrsRestoreFail b (i || gone)

def execRestore (e : Met (BitVec 512)) (s : State) : Host.Outcome State Fault Refusal :=
  .next (s.ring0 0x14 e.of (fun s c => s.runRestore e.of e.found c))

/-- Whether every marker of the new epoch has arrived, on each virtual channel of each link in use (R326). -/
def State.markersIn (s : State) : Bool := s.ownMarkers.all s.kst.markers.contains

/-- An NSB as 64 bytes without its taint bit. -/
def nsbKey (bs : List Byte) : List Byte := bs.set 34 ((bs.getD 34 0) &&& 0xFE)

/-- Gives back the destination of a move or recovery in progress, and leaves the object in its present home. -/
def State.stopMove (s : State) (i : Nat) : State × List Nat :=
  let o := s.obj i
  match o.move with
  | some _ =>
    let (s, w) := s.giveDest o
    (s.setObj i { s.obj i with move := none, recover := none }, w)
  | none => (s, [])

/-- Whether an object is one that an image lists. -/
def Image.lists (m : Image) (i : Nat) (o : Obj) : Bool := m.objs.any (fun q => q.idx == i && q.obj.handle == o.handle)

/-- Step 5: destroys what the list does not name. -/
def State.destroyUnlisted (s : State) (m : Image) : State :=
  s.listed.foldl (fun s p =>
    if m.lists p.1 p.2 then s
    else
      let (s, w) := s.stopMove p.1
      let (s, w') := s.freeObj p.1
      s.settle (w ++ w')) s

/-- Step 5: an object of the list that exists, or that its recipe will give again, as its entry stands. One that is to be created waits for `restoreCreate`. -/
def State.restoreObj (s : State) (q : Saved) : State :=
  let i := q.idx
  let (s, w) := s.stopMove i
  let o := s.obj i
  let local_ := if o.home = 0 then ObjSt.fast else .slow
  let keep (o : Obj) : Obj := { o with
    page := q.obj.page, evict := q.obj.evict, eprio := q.obj.eprio, rnode := q.obj.rnode, rhandle := q.obj.rhandle, rvalid := q.obj.rvalid
    reg := q.obj.reg, regNext := none, succ := q.obj.succ, delta := [], recover := none, recompute := none, inj := false }
  if s.named q.obj.handle.toNat then
    if q.obj.droppable then
      let (s, w') := if o.st = .dropped then (s, []) else s.vacate i
      (s.setObj i { keep (s.obj i) with st := .dropped }).settle (w ++ w')
    else (s.setObj i { keep o with st := local_ }).settle w
  else if q.obj.droppable then
    ((s.objZero i).setObj i { q.obj with st := .dropped, pins := 0, delta := [], move := none, recover := none, recompute := none }).settle w
  else s.settle w

/-- The objects of the list that step 5 creates. -/
def State.toCreate (s : State) (m : Image) : List Saved := m.objs.filter (fun q => !s.named q.obj.handle.toNat && !q.obj.droppable)

/-- The bytes of an entry, following SRCSEQ and applying the delta chain from its full copy; none where a part cannot be had. -/
def resolveBytes (l : List Image) : Nat → Saved → Option (List Host.Cell)
  | 0, _ => none
  | n + 1, q =>
    let next := (l.find? (fun m => m.seq == q.src && m.usable)).bind (fun m => m.entry q.idx q.obj.handle)
    match q.form, next with
    | 1, _ => some q.bytes
    | 2, some r => resolveBytes l n r
    | 3, some r => (resolveBytes l n r).map (fun base => (base.filter (fun c => !q.units.contains (c.1 / 65536)) ++ q.bytes).mergeSort (fun a b => a.1 ≤ b.1))
    | _, _ => none

/-- An object receives bytes: its blocks are sound, and every unit of it has been written (R343). -/
def State.giveBytes (s : State) (i : Nat) (cells : List Host.Cell) : State :=
  let s := s.objZero i
  let s := { s with objMem := cells.foldl (fun (m : Mem) (c : Host.Cell) => Mem.write m (objKey i c.1) [c.2]) s.objMem }
  s.setObj i { s.obj i with delta := (s.obj i).units }

/-- The bytes of an entry from an image that can be read, when their digest is the listed one. -/
def State.fromImage (s : State) (m : Image) (own : Bool) (q : Saved) : Option State :=
  let l := if own then s.prs.images.filter Image.usable else [m]
  if l.any (fun n => n.seq == m.seq) then
    ((resolveBytes l (16 * l.length + 16) q).map (s.giveBytes q.idx)).filter (fun t => t.digest q.idx == q.digest)
  else none

/-- The bytes of an entry from its data-parallel replica (R352). Whether that module has the bytes ready, and what they are, is a free value; their digest decides. -/
def State.fromReplica (s : State) (q : Saved) : Option State :=
  let (k, s) := s.fresh
  if q.obj.rvalid && Config.choose k % 2 = 0 then
    some (s.giveBytes q.idx ((List.range q.obj.bytes).map (fun a => (a, Config.replica k a)))) |>.filter (fun t => t.digest q.idx == q.digest)
  else none

/-- Step 6 for one entry: the state, and whether the runtime must bring the bytes; none where no source is left. A restore sets the WSTEP of every restored object
(R265). -/
def State.restoreBytes (s : State) (m : Image) (own : Bool) (q : Saved) : Option (State × Bool) :=
  let i := q.idx
  let s := s.setObj i { s.obj i with wstep := m.step }
  if q.obj.droppable then some (s, false)
  else if q.cls = 1 then some (if own then s else s.objZero i, false)
  else if own then (s.fromImage m true q).map (·, false)
  else if q.cls = 2 then ((s.fromImage m false q).orElse (fun _ => s.fromReplica q)).map (·, false)
  else some (match s.fromReplica q with
    | some t => (t, false)
    | none => (s, true))

/-- Step 6: the state and the objects that the runtime must write. -/
def State.restoreData (s : State) (m : Image) (own : Bool) : Option (State × List Nat) :=
  m.objs.foldl (fun t q => t.bind (fun p => (p.1.restoreBytes m own q).map (fun r => (r.1, if r.2 then p.2 ++ [q.idx] else p.2)))) (some (s, []))

/-- Step 8: the contexts from their images; none where R112 refuses one. -/
def Image.contexts (m : Image) : Option (Tab Ctx) :=
  if m.ctxs.all (fun p => (Ctx.ofImage p.2).isSome) then
    some ((m.ctxs.map (fun p => (p.1, (Ctx.ofImage p.2).getD {}))).filter (fun p => p.2 != {}))
  else none

/-- Steps 7 and 8. What step 7 has written stays where step 8 refuses an image. -/
def State.restoreRest (s : State) (m : Image) : State :=
  let s := { s with
    nsb := { m.nsb with taint := false }
    kst := { s.kst with ctr := m.jobCtr, jsat := m.jobSat, sys := [], syssat := [], markers := [] }
    spad := m.spad.foldl (fun (t : Mem) (c : Host.Cell) => Mem.write t c.1 [c.2]) []
    cores := []
    ctxs := (m.ctxs.map (fun (p : Nat × List Byte) => (p.1, ({ ctr := imageCtrs p.2, sticky := BitVec.ofNat 32 (leAt p.2 400 4) } : Ctx)))).filter (fun p => p.2 != ({} : Ctx)) }
  match m.contexts with
  | none => s.restoreFail evPrsRestoreFail m.step.toNat false
  | some ctxs =>
    { s with
      ctxs := ctxs
      prs := { s.prs with restore := .lastBarrier, captured := some m.step.toNat, replay := some { step := m.step }, replaced := false } }

/-- Step 6, and the steps after it unless the runtime has bytes to bring. What a move has poisoned since step 5 began is written like the rest. -/
def State.restoreFill (s : State) (m : Image) (own : Bool) : State :=
  let s := m.objs.foldl (fun s q =>
    let o := s.obj q.idx
    if o.st = .poisoned then s.setObj q.idx { o with st := if o.home = 0 then ObjSt.fast else .slow, recover := none, recompute := none, inj := false } else s) s
  match s.restoreData m own with
  | none => s.restoreFail evPrsRestoreFail m.step.toNat false
  | some (s, []) => s.restoreRest m
  | some (s, wanted) => { s with prs := { s.prs with restore := .sources m wanted } }

/-- Step 5 for the objects that are to be created: it waits while evictions make room (R273), and fails where they cannot. Mason writes an object only once its move is
over (R270). -/
def State.restoreCreate (s : State) (m : Image) (own : Bool) : List Saved → State
  | [] =>
    if m.objs.any (fun q => (s.obj q.idx).move.isSome && (s.obj q.idx).st != .poisoned) then { s with prs := { s.prs with restore := .table m own [] } }
    else s.restoreFill m own
  | q :: rest =>
    let (ok, s, w) := s.obtain q.obj.home q.obj.size 4 false
    let s := s.settle w
    if ok then
      (s.install q.idx { q.obj with
        st := if q.obj.home = 0 then ObjSt.fast else .slow, pins := if q.obj.loadPin then 1 else 0, regNext := none, wstep := BitVec.allOnes 64, epoch := 0
        move := none, recover := none, recompute := none, delta := [], inj := false }).restoreCreate m own rest
    else if s.warned || (q.obj.home = 0 && q.obj.size ≤ s.hod.freeFast + s.evicting) then
      { s with prs := { s.prs with restore := .table m own (q :: rest) } }
    else s.restoreFail evPrsRestoreFail m.step.toNat false

/-- A restore that waits in step 5 goes on, at a clock. -/
def State.restoreGoOn (s : State) : State :=
  match s.prs.restore with
  | .table m own left => s.restoreCreate m own left
  | _ => s

/-- Steps 4 to 8, with the flash pages of the image and of those its chains name that cannot be read. -/
def State.restoreSteps (s : State) (m : Image) (own : Bool) (ds : List Detect) : State :=
  match s.buildMap with
  | none => s.restoreFail evPrsRestoreFail m.step.toNat false
  | some s =>
    let s := if own then (s.readFlash m.seq (s.chainOf m.seq) ds).2.2 else s
    let t := m.objs.foldl State.restoreObj (s.destroyUnlisted m)
    t.restoreCreate m own (t.toCreate m)

/-- The barrier after step 3: every module's NSB must equal every other's in all fields but taint. -/
def State.nsbBarrier (s : State) (m : Image) (own : Bool) (others : List (BitVec 512)) (ds : List Detect) : State :=
  let (i, s) := s.injCheck evPrsNsbDiff (prsSrc 0)
  let mine := nsbKey m.nsb.bytes
  if i || others.any (fun o => nsbKey (entBytes o) != mine) then s.restoreFail evPrsNsbDiff m.step.toNat i
  else s.restoreSteps m own ds

/-- RESTORE_BARRIER. After step 8 the contexts resume and the replay check begins; a supply warning delays
both (R409). -/
def execRestoreBarrier (others : Met (List (BitVec 512))) (s : State) : Host.Outcome State Fault Refusal :=
  .next (match s.prs.restore with
    | .nsbBarrier m own => if s.markersIn && !s.warned then s.nsbBarrier m own others.of others.found else s
    | .lastBarrier => if s.warned then s else (s.ctxKeys.foldl State.resumeCtx s).restoreDone stOk
    | _ => s)

/-- SOURCE_DONE: the object written through BAR 2 is accepted when its digest is the listed one. -/
def State.runSourceDone (s : State) (h c : Nat) : State :=
  match s.prs.restore with
  | .sources m wanted =>
    let i := hIdx h
    match m.objs.find? (fun q => q.idx == i && q.obj.handle.toNat == h && wanted.contains i) with
    | none => s.answer 0 c stRefused 0
    | some q =>
      if s.digest i = q.digest then
        let left := wanted.filter (fun j => j != i)
        let s := { s.setObj i { s.obj i with wstep := m.step } with prs := { s.prs with restore := .sources m left } }
        let s := if left.isEmpty then s.restoreRest m else s
        s.answer 0 c stOk 0
      else (s.restoreFail evPrsRestoreFail m.step.toNat false).answer 0 c stRefused 0
  | _ => s.answer 0 c stRefused 0

def execSourceDone (e : BitVec 512) (s : State) : Host.Outcome State Fault Refusal :=
  .next (s.ring0 0x15 e (fun s c => if 2 ^ 24 ≤ entAt e 8 4 then s.answer 0 c stMalformed 0 else s.runSourceDone (entAt e 8 4) c))

end Sys2Proof.Machine
end

