-- ==== Sys2Proof/Machine/Hod.lean ====
section
/-! DEFINITION. HOD: the issue of the hod operations and their checks at start (R274 to R277). What they do is in `Objects`. -/

namespace Sys2Proof.Machine

/-- The word checks of a HOD operation: which of SB and SC it uses, and whether KEEP is defined for it. -/
def hodWord (i : Ins) (sb sc keep : Bool) : Bool :=
  i.flagsBelow (if keep then 1 else 0) && i.zero 89 89 && i.zero 70 0 && (sb || i.zero 94 90) && (sc || i.zero 75 71)

/-- A HOD operation as it is issued: SA, SB and SC. -/
def State.hodOp (s : State) (kind : LKind) (x : Nat) (i : Ins) : Op :=
  { id := 0, src := .ctx x, kind := kind, unit := .outbound, ins := i, core := coreOf x, off := 0
    regs := [s.reg x i.sa, s.reg x i.sb, s.reg x (i.at 75 71)] }

/-- Whether the operand register of an operation holds only its fields (R274). -/
def hodOperandOk (kind : LKind) (v : Nat) : Bool :=
  match kind with
  | .hodDemote => fld v 1 0 ≤ 1 && fld v 15 2 == 0 && v < 2 ^ 30 && (fld v 1 0 == 1 || fld v 29 16 == 0)
  | .hodAppend | .hodTrim => v < 2 ^ 32
  | _ => true

/-- Check 7 of a HOD operation (R277). -/
def hodFaults7 (o : Op) : List Nat :=
  need (o.hodHandle < 2 ^ 24 && hodOperandOk o.kind o.hodArg) evIllegalEncoding
    ++ (if o.kind = .hodAppend then
          need ((o.regs.getD 2 0).toNat % 64 == 0 && (o.regs.getD 2 0).toNat + 64 ≤ spadEnd) evBoundsFault
        else [])

/-- The checks of a HOD operation at its start (R277). -/
def State.hodFaults8 (s : State) (o : Op) : List Nat :=
  let h := o.hodHandle
  let ob := s.obj (hIdx h)
  let node := fld o.hodArg 29 16
  need (s.named h && ob.kind != .image && !ob.hosted
    && (match o.kind with
        | .hodPin => ob.pins != 0xFFFF
        | .hodUnpin => ob.pins != 0
        | .hodDemote => ob.kind != .code && (fld o.hodArg 1 0 == 0 || s.arc.other node)
        | .hodDrop => ob.kind != .code && ob.droppable
        | .hodAppend => ob.kind == .page && !ob.succ && 1 ≤ o.hodArg && o.hodArg ≤ ob.cap
        | .hodTrim => ob.kind == .page && !ob.succ && o.hodArg ≤ ob.fill
        | _ => true)) evBoundsFault

/-- The issue of a HOD operation. -/
def hodIssue (kind : LKind) (sb sc keep : Bool) (x : Fin 512) (i : Ins) (s : State) : Host.Outcome State Fault Refusal :=
  .next (s.issueLong x i (hodWord i sb sc keep) (fun s => (hodFaults7 (s.hodOp kind x i), s.hodOp kind x i)))

def execHodPin (x : Fin 512) (i : Ins) (s : State) : Host.Outcome State Fault Refusal := hodIssue .hodPin false false false x i s
def execHodUnpin (x : Fin 512) (i : Ins) (s : State) : Host.Outcome State Fault Refusal := hodIssue .hodUnpin false false false x i s
def execHodPromote (x : Fin 512) (i : Ins) (s : State) : Host.Outcome State Fault Refusal := hodIssue .hodPromote false false true x i s
def execHodDemote (x : Fin 512) (i : Ins) (s : State) : Host.Outcome State Fault Refusal := hodIssue .hodDemote true false false x i s
def execHodDrop (x : Fin 512) (i : Ins) (s : State) : Host.Outcome State Fault Refusal := hodIssue .hodDrop false false false x i s
def execHodAppend (x : Fin 512) (i : Ins) (s : State) : Host.Outcome State Fault Refusal := hodIssue .hodAppend true true false x i s
def execHodTrim (x : Fin 512) (i : Ins) (s : State) : Host.Outcome State Fault Refusal := hodIssue .hodTrim true false false x i s

end Sys2Proof.Machine
end

