-- ==== Sys2Proof/Machine/Bitstream.lean ====
section
/-! DEFINITION. The framing of quarry's input ranges (R355, R360, R365): NAL units of an H.265 Annex B byte stream, OBUs of the AV1 low overhead format, and the pictures
that they open. The layouts and numbers of NAL units and OBUs are those of the two standards that R355 names. -/

namespace Sys2Proof.Machine

/-- A NAL unit or OBU: nal_unit_type or obu_type, nuh_layer_id or spatial_id, temporal_id, whether an OBU has its extension, and what follows the header. -/
structure StreamUnit where
  kind : Nat
  layer : Nat
  temporal : Nat
  ext : Bool
  body : List Byte
  deriving DecidableEq, Repr

/-! ## H.265 -/

/-- The bytes between the start codes of a byte stream, without the zeros at their ends; `cur` holds, last first, what the unit being read has so far. -/
def nalSplit : Option (List Byte) → List Byte → List (List Byte)
  | cur, 0 :: 0 :: 1 :: r => (cur.toList.map (fun c => (c.dropWhile (fun v => v == 0)).reverse)) ++ nalSplit (some []) r
  | cur, b :: r => nalSplit (cur.map (fun c => b :: c)) r
  | cur, [] => cur.toList.map (fun c => (c.dropWhile (fun v => v == 0)).reverse)

/-- A NAL unit that quarry decodes: not one of another layer, and no SEI message (R355). -/
def nalUnit : List Byte → Option StreamUnit
  | a :: b :: r =>
    let u : StreamUnit := { kind := a.toNat / 2 % 64, layer := a.toNat % 2 * 32 + b.toNat / 8, temporal := b.toNat % 8, ext := false, body := r }
    if u.layer = 0 && u.kind != 39 && u.kind != 40 then some u else none
  | _ => none

/-! ## AV1 -/

/-- An OBU size: a little-endian number of 7-bit groups. -/
def leb128 : Nat → List Byte → Option (Nat × List Byte)
  | 0, _ => none
  | _ + 1, [] => none
  | n + 1, b :: r => if b.toNat < 128 then some (b.toNat, r) else (leb128 n r).map (fun p => (b.toNat - 128 + 128 * p.1, p.2))

/-- The OBUs of a temporal unit, and whether a header or size field that is not valid ended them (R365). -/
def obuSplit : Nat → List Byte → List StreamUnit × Bool
  | _, [] => ([], false)
  | 0, _ => ([], true)
  | n + 1, h :: r =>
    let ext := bitOf h.toNat 2
    let e := if ext then (r.headD 0).toNat else 0
    match leb128 8 (if ext then r.drop 1 else r) with
    | some (len, r) =>
      if bitOf h.toNat 7 || !bitOf h.toNat 1 || 2 ^ 32 ≤ len || r.length < len then ([], true)
      else
        let (l, bad) := obuSplit n (r.drop len)
        ({ kind := h.toNat / 8 % 16, layer := e / 8 % 4, temporal := e / 32, ext := ext, body := r.take len } :: l, bad)
    | none => ([], true)

/-- The OBUs of an operating point, `seq` being the sequence header in force (R355). -/
def keepObus (op : Nat) : List Byte → List StreamUnit → List StreamUnit
  | _, [] => []
  | seq, u :: r =>
    if u.kind = 1 then u :: keepObus op u.body r
    else
      let idc := Config.operatingIdc seq op
      if u.kind ≠ 2 && u.ext && idc ≠ 0 && !(bitOf idc u.temporal && bitOf idc (8 + u.layer)) then keepObus op seq r else u :: keepObus op seq r

/-- The sequence header in force after the OBUs of a list. -/
def seqAfter (seq : List Byte) (l : List StreamUnit) : List Byte := (((l.filter (fun u => u.kind == 1)).getLast?).map StreamUnit.body).getD seq

/-- seq_profile, and reduced_still_picture_header. -/
def seqProfile (seq : List Byte) : Nat := (seq.headD 0).toNat / 32
def seqReduced (seq : List Byte) : Bool := bitOf (seq.headD 0).toNat 3

/-! ## Pictures of a range -/

/-- A picture that a range codes: the slot of a frame shown again, whether the range shows it, whether its own syntax makes it a random access point, its layer, and
the units that hold its blocks, by their places in the range. -/
structure Picture where
  existing : Option Nat := none
  shown : Bool := true
  key : Bool := false
  layer : Nat := 0
  units : List Nat := []
  deriving DecidableEq, Repr

/-- The picture that a frame header opens. -/
def framePicture (seq : List Byte) (u : StreamUnit) : Picture :=
  let b := (u.body.headD 0).toNat
  if seqReduced seq then { key := true, layer := u.layer }
  else if bitOf b 7 then { existing := some (b / 16 % 8), layer := u.layer }
  else { shown := bitOf b 4, key := b / 32 % 4 == 0, layer := u.layer }

/-- The pictures of a temporal unit, its OBUs with their places, `l` being those so far. -/
def obuPictures : List Byte → List Picture → List (StreamUnit × Nat) → List Picture
  | _, l, [] => l
  | seq, l, (u, n) :: r =>
    match u.kind with
    | 1 => obuPictures u.body l r
    | 3 => obuPictures seq (l ++ [framePicture seq u]) r
    | 6 => obuPictures seq (l ++ [{ framePicture seq u with units := [n] }]) r
    | 4 => obuPictures seq (l.modify (l.length - 1) (fun p => { p with units := p.units ++ [n] })) r
    | _ => obuPictures seq l r

/-- The picture of an access unit: its slice segments, an IRAP picture by the type of the first. -/
def nalPictures (l : List (StreamUnit × Nat)) : List Picture :=
  match l.filter (fun p => p.1.kind < 32) with
  | [] => []
  | p :: r => [{ key := 16 ≤ p.1.kind && p.1.kind ≤ 23, units := (p :: r).map Prod.snd }]

/-- What an input range holds: its pictures, whether its framing is broken, its AV1 profile, and whether it uses large scale tiles. -/
structure Range where
  pictures : List Picture
  broken : Bool
  profile : Nat := 0
  tileList : Bool := false
  deriving DecidableEq, Repr

/-- The range of a decode, `av1` by the codec, after the earlier inputs of its context. -/
def rangeOf (av1 : Bool) (op : Nat) (history : List (Nat × List Byte)) (bytes : List Byte) : Range :=
  if av1 then
    let before := history.foldl (fun seq h => seqAfter seq (obuSplit (h.2.length + 1) h.2).1) []
    let (l, bad) := obuSplit (bytes.length + 1) bytes
    let l := keepObus op before l
    { pictures := obuPictures before [] l.zipIdx, broken := bad, profile := seqProfile (seqAfter before l), tileList := l.any (fun u => u.kind == 8) }
  else { pictures := nalPictures ((nalSplit none bytes).filterMap nalUnit).zipIdx, broken := false }

/-- The pictures of a range, the last shown one the picture of its decode. A range without one breaks the syntax, and its picture has no block decoded. -/
def Range.coded (r : Range) : List Picture := if r.pictures.any Picture.shown || r.pictures.any (fun p => p.existing.isSome) then r.pictures else r.pictures ++ [({} : Picture)]

/-- Whether the framing alone shows a syntax error. -/
def Range.error (r : Range) : Bool := r.broken || r.coded.length != r.pictures.length

end Sys2Proof.Machine
end

