-- ==== Sys2Proof/Machine/Finish.lean ====
section
/-! DEFINITION. The completion of a long operation (R97, R100, R254): its detections, its writes, its signal, and what its end lets go on. -/

namespace Sys2Proof.Machine

/-- Whether an operation leaves the pin that it took (R272, R275). -/
def Op.keepsPin (o : Op) : Bool := o.kind == .hodPin || (o.kind == .hodPromote && o.ins.flag 0)

/-- The source of what an operation detects (R427). -/
def Op.detector (o : Op) : Nat :=
  match o.src with
  | .ctx x => srcOf 0x01 x
  | _ => srcOf 0x05 0

/-- The end of a context's operation: what it reached in a peer's footing has crossed the links, its counter is signalled, it is no longer outstanding, and what waited
for its accesses goes on. -/
def State.finishOp (s : State) (o : Op) : State :=
  match o.src with
  | .ring _ _ _ _ | .hod | .host => s
  | .ctx x =>
    let objs := (s.refs o).map (fun r => hIdx r.h) ++ o.pinned
    let s := s.peerTraffic (s.refs o)
    let s := s.signalShort o.core o.sig
    let s := if o.keepsPin then s else s.unpin o
    let s := (s.dropOp o.id).opGone x
    (objs.eraseDups.foldl State.settleObj s).settleRecomputes

/-- The KINDs of the tensors that an operation narrows into (R65): a drain's destinations, the tensor of a narrowing VEC.CVT, the output of ATT.FWD,
and the gradients dS of ATT.BWD (R217). The copies of an optimiser update are weights. -/
def Op.narrowsTo (o : Op) : List Nat :=
  match o.kind with
  | .matFwd | .matDgrad | .matWgrad | .matWgradm => if matDrn o.ins then [(o.td 2).kind] else []
  | .matDrain => o.tds.map Td.kind
  | .vecCvt => if vecWid o.ins then [] else [(o.td 0).kind]
  | .attFwd => if attLast o.ins then [(o.attTd 3).kind] else []
  | .attBwd => [2]
  | _ => []

/-- Whether an operation narrows to a tensor of KIND gradient, and so checks for the step overflow (R65). -/
def Op.narrowsGrad (o : Op) : Bool := 2 ∈ o.narrowsTo

/-- What a compute operation writes. -/
def State.computeEff (s : State) (o : Op) : Eff :=
  match o.unit with
  | .farray | .darray | .warray => s.matEff o
  | .vector => s.vectorEff o
  | .voussoir => s.attEff o
  | .move => s.movEff o
  | .outbound => {}

/-- The writes of an operation, invalid where a detection says so. The free values that its effect uses are not used again. -/
def State.applied (s : State) (o : Op) (invalid : Bool) : State :=
  let e := s.computeEff o
  let s := { s with free := s.free + 2 ^ 23 }
  let s := if invalid then s.applyInvalid e else s.applyEff e
  let (i, s) := if o.narrowsGrad then s.injCheck evStepOverflow (srcOf 0x09 3) else (false, s)
  if i then { s with overflow := true } else s

/-- The completion of an operation of a core's units (R97): detections first; an operation that reads a poisoned object waits for it. -/
def State.completeCore (s : State) (o : Op) (ds : List Detect) : State :=
  let rs := s.movReads o
  let f := s.detect o.detector o.core rs ds
  let s := f.s
  let s :=
    if (s.refs o).all (s.reaches o.src) then ((s.applied o f.invalid).countLines o).finishOp o
    else
      let (s, w) := s.eval o
      s.settle w
  s.settle f.again

end Sys2Proof.Machine
end

