-- ==== Sys2Proof/Machine/Ing.lean ====
section
/-! DEFINITION. ING and quarry: the issue of the ingest operations, their checks at start, and the decode of a picture into patches and a mask
(R355 to R372). -/

namespace Sys2Proof.Machine

/-! ## Issue (R358 to R360, R370) -/

/-- The word checks of an ING operation: GUARD is defined for ING.OPEN, and ING.CLOSE names s0. -/
def ingWord (kind : LKind) (i : Ins) : Bool :=
  i.flagsBelow (if kind = .ingOpen then 1 else 0) && i.zero 89 89 && i.zero 75 0 && (kind != .ingClose || i.sa == 0)

/-- Fields of a stream descriptor (R359). -/
def descCodec (d : List Byte) : Nat := leAt d 0 1
def descRgb (d : List Byte) : Bool := leAt d 1 1 == 1
def descP (d : List Byte) : Nat := if leAt d 2 1 = 0 then 16 else 32
def descMaxW (d : List Byte) : Nat := leAt d 4 2
def descMaxH (d : List Byte) : Nat := leAt d 6 2
def descX0 (d : List Byte) : Nat := leAt d 8 2
def descY0 (d : List Byte) : Nat := leAt d 10 2
def descCW (d : List Byte) : Nat := leAt d 12 2
def descCH (d : List Byte) : Nat := leAt d 14 2
def descWork (d : List Byte) : Nat := leAt d 16 4
def descMean (d : List Byte) (c : Nat) : W32 := BitVec.ofNat 32 (leAt d (32 + 4 * c) 4)
def descRstd (d : List Byte) (c : Nat) : W32 := BitVec.ofNat 32 (leAt d (44 + 4 * c) 4)

/-- The patches of a picture, and the patches of one of its rows. -/
def descAcross (d : List Byte) : Nat := descCW d / descP d
def descPatches (d : List Byte) : Nat := descAcross d * (descCH d / descP d)

/-- Whether a stream descriptor is in its form. A crop window holds at least one patch. -/
def descOk (d : List Byte) : Bool :=
  leAt d 0 1 ≤ 1 && leAt d 1 1 ≤ 1 && leAt d 2 1 ≤ 1 && leAt d 3 1 ≤ (if descCodec d = 1 then 31 else 0)
    && descMaxW d % 2 == 0 && 1 ≤ descMaxW d && descMaxW d ≤ 8192 && descMaxH d % 2 == 0 && 1 ≤ descMaxH d && descMaxH d ≤ 4352
    && descX0 d % 2 == 0 && descY0 d % 2 == 0 && descCW d % descP d == 0 && descCH d % descP d == 0 && 1 ≤ descCW d && 1 ≤ descCH d
    && descX0 d + descCW d ≤ descMaxW d && descY0 d + descCH d ≤ descMaxH d
    && descWork d < 2 ^ 24 && leAt d 20 12 == 0 && leAt d 56 72 == 0

/-- The size that WORK must have at least. -/
def descWorkSize (d : List Byte) : Nat :=
  ((if descCodec d = 0 then 16 else 8) + 1) * (3 * roundUp (descMaxW d) 64 * roundUp (descMaxH d) 64) + 4 * 2 ^ 20

/-- The stream context that an operation names. -/
def Op.stream (o : Op) : Nat := (o.regs.getD 1 0).toNat

/-- The descriptor of an ING.OPEN. -/
def Op.desc (o : Op) : List Byte := (o.words.drop 1).map (BitVec.ofNat 8)

/-- An ING operation as it is issued: SA, SB, the descriptor or the fields of the decode block, and the output descriptor. -/
def State.ingOp (s : State) (kind : LKind) (x : Nat) (i : Ins) : Op :=
  let a := (s.reg x i.sa).toNat
  let k := coreOf x
  let b := s.spadRead k a 64
  let o : Op := { id := 0, src := .ctx x, kind := kind, ins := i, core := k, off := 0, regs := [s.reg x i.sa, s.reg x i.sb] }
  match kind with
  | .ingOpen =>
    let d := s.spadRead k a 128
    { o with words := descWork d :: d.map BitVec.toNat }
  | .ingDecode =>
    { o with
      words := [leAt b 0 4, leAt b 8 8, leAt b 16 4, leAt b 24 4, leAt b 28 4, leAt b 32 8, 0, 0, 0]
      tds := [s.tdAt x (fld (leAt b 20 4) 16 0)] }
  | _ => o

/-- The descriptor that a stream context has, or will have by an ING.OPEN that is outstanding. -/
def State.knownDesc (s : State) (c : Nat) : Option (List Byte) :=
  match (s.ops.filter (fun o => o.kind == .ingOpen && o.stream == c)).getLast? with
  | some o => some o.desc
  | none => (Tab.get none s.qry.streams c).map Stream.desc

/-- Whether an output descriptor meets R363 for patches of `3 p²` elements. -/
def patchTdOk (t : Td) (p : Option Nat) : Bool :=
  t.ok && t.kind == 1 && t.ndim == 2 && (t.fmt == 4 || (t.fmt == 1 && t.bdim == 0))
    && (match p with
      | some p => t.ext.getD 0 0 + 1 == 3 * p * p
      | none => t.ext.getD 0 0 + 1 == 768 || t.ext.getD 0 0 + 1 == 3072)

/-- Check 7 of an ING operation. -/
def State.ingFaults (s : State) (o : Op) : List Nat :=
  let a := (o.regs.getD 0 0).toNat
  let b := s.spadRead o.core a 64
  let n := if o.kind = .ingOpen then 128 else 64
  let inside := spadEnd < a + n
  let reg := need (o.stream ≤ 255) evBoundsFault
  match o.kind with
  | .ingOpen => if inside then [evBoundsFault] else need (descOk o.desc) evIllegalEncoding ++ need (a % 64 == 0) evBoundsFault ++ reg
  | .ingDecode =>
    let tw := leAt b 20 4
    if inside then [evBoundsFault]
    else
      need (leAt b 0 4 < 2 ^ 24 && leAt b 4 4 == 0 && 1 ≤ leAt b 16 4 && leAt b 16 4 ≤ 2 ^ 26 && fld tw 30 17 == 0 && bitOf tw 31
          && leAt b 24 4 < 2 ^ 20 && leAt b 28 4 < 2 ^ 24 && leAt b 32 8 % 16 == 0 && leAt b 40 24 == 0
          && (98303 < fld tw 16 0 || o.tds.all (fun t => patchTdOk t ((s.knownDesc o.stream).map descP)))) evIllegalEncoding
        ++ need (a % 64 == 0 && fld tw 16 0 ≤ 98303) evBoundsFault ++ reg
  | _ => reg

/-- What a decode takes from its context's descriptor, in words 6 to 8: the length of its mask area, and WORK with its size. -/
def Op.withDesc (o : Op) (d : List Byte) : Op := { o with words := o.words.take 6 ++ [16 + descPatches d, descWork d, descWorkSize d] }

/-- The operation of an ING instruction as it enters its queue. -/
def State.ingReady (s : State) (o : Op) : Op :=
  match o.kind, s.knownDesc o.stream with
  | .ingDecode, some d => o.withDesc d
  | _, _ => o

/-- The issue of an ING operation. -/
def ingIssue (kind : LKind) (x : Fin 512) (i : Ins) (s : State) : Host.Outcome State Fault Refusal :=
  .next (s.issueLong x i (ingWord kind i) (fun s => (s.ingFaults (s.ingOp kind x i), s.ingReady (s.ingOp kind x i))))

def execIngOpen (x : Fin 512) (i : Ins) (s : State) : Host.Outcome State Fault Refusal := ingIssue .ingOpen x i s
def execIngDecode (x : Fin 512) (i : Ins) (s : State) : Host.Outcome State Fault Refusal := ingIssue .ingDecode x i s
def execIngClose (x : Fin 512) (i : Ins) (s : State) : Host.Outcome State Fault Refusal := ingIssue .ingClose x i s

/-! ## Start (R370) -/

/-- The open stream context of an operation; one that an ING.CLOSE ends is still open to the operations issued before it (R361). -/
def State.streamFor (s : State) (o : Op) : Option Stream :=
  (Tab.get none s.qry.streams o.stream).filter (fun q => match q.closing with | some id => decide (o.id < id) | none => true)

/-- Fields of a decode block, by their places in `Op.words`. -/
def Op.firstRow (o : Op) : Nat := o.acmd 3
def Op.maskHandle (o : Op) : Nat := o.acmd 4
def Op.maskOff (o : Op) : Nat := o.acmd 5

/-- Whether a handle names an object that quarry may reach. -/
def State.ingHandle (s : State) (h : Nat) : Bool := s.reachable h

/-- The checks of an ING operation at its start. -/
def State.ingFaults8 (s : State) (o : Op) : List Nat :=
  match o.kind with
  | .ingOpen =>
    need ((Tab.get none s.qry.streams o.stream).isNone && s.ingHandle (o.acmd 0) && descWorkSize o.desc ≤ (s.obj (hIdx (o.acmd 0))).bytes) evBoundsFault
  | .ingDecode =>
    match s.streamFor o with
    | none => [evBoundsFault]
    | some q =>
      let n := descPatches q.desc
      need (o.tds.all (fun t => patchTdOk t (some (descP q.desc)))) evIllegalEncoding
        ++ (o.tds.map s.tdWrite8).flatten
        ++ need (s.refOk { h := o.acmd 0, lo := o.acmd 1, n := o.acmd 2, wr := false }
          && s.refOk { h := o.maskHandle, lo := o.maskOff, n := 16 + n, wr := true }
          && s.refOk { h := descWork q.desc, lo := 0, n := descWorkSize q.desc, wr := true }
          && o.tds.all (fun t => t.dataLo + (o.firstRow + n - 1) * t.stride.getD 1 0 + t.row ≤ (s.obj (hIdx t.handle)).bytes)) evBoundsFault
  | _ => need (s.streamFor o).isSome evBoundsFault

/-- The start of an ING operation: a decode waits in quarry, a close marks its context, an open is evaluated. -/
def State.startIng (s : State) (o : Op) : State :=
  match o.kind with
  | .ingDecode =>
    let o := match s.streamFor o with | some q => o.withDesc q.desc | none => o
    { s.setOp { o with st := .waiting } with qry := { s.qry with queue := s.qry.queue ++ [o.id] } }
  | .ingClose =>
    match Tab.get none s.qry.streams o.stream with
    | some q => { s.setOp { o with st := .started } with qry := { s.qry with streams := Tab.set none s.qry.streams o.stream (some { q with closing := some o.id }) } }
    | none => s
  | _ => (s.eval o).1

/-- The decodes of a context issued before an operation and not yet complete (R356, R361). -/
def State.decodesBefore (s : State) (o : Op) : List Op := s.ops.filter (fun q => q.kind == .ingDecode && q.stream == o.stream && q.id < o.id)

/-- The effect of an ING.OPEN or ING.CLOSE at its completion. -/
def State.ingEffect (s : State) (o : Op) : State :=
  let v := if o.kind = .ingOpen then some { desc := o.desc, guarded := o.ins.flag 0 : Stream } else none
  { s with qry := { s.qry with streams := Tab.set none s.qry.streams o.stream v } }

/-! ## Engines (R356) -/

/-- The operation that an engine decodes. -/
def State.engine (s : State) (e : Nat) : Option Op := (Tab.get none s.qry.engines e).bind s.findOp

def State.setEngine (s : State) (e : Nat) (v : Option Nat) : State := { s with qry := { s.qry with engines := Tab.set none s.qry.engines e v } }

/-- The contexts that engines decode. -/
def State.decoding (s : State) : List Nat := (List.range 8).filterMap (fun e => (s.engine e).map Op.stream)

/-- DECODE_START: an idle engine takes the oldest queued decode whose context no other engine decodes; decodes of one context run in their issue order. A context that
a watchdog closed in the meantime faults the decode, as does an object that has been destroyed since. -/
def State.decodeStart (s : State) (e : Nat) : State :=
  if (s.engine e).isSome || s.warned then s
  else
    match s.qry.queue.findSome? (fun id => (s.findOp id).filter (fun o => !s.decoding.contains o.stream && (s.decodesBefore o).isEmpty)) with
    | none => s
    | some o =>
      let s := { s with qry := { s.qry with queue := s.qry.queue.filter (fun i => i != o.id) } }
      if (Tab.get none s.qry.streams o.stream).isNone || (s.refs o).any (fun r => !s.named r.h) then (s.asyncFault o evBoundsFault).settleRecomputes
      else
        let (s, w) := (s.setEngine e (some o.id)).eval o
        s.settle w

def execDecodeStart (e : Fin 8) (s : State) : Host.Outcome State Fault Refusal := .next (s.decodeStart e)

/-! ## Conversion (R362) -/

def c15748 : W32 := 0x3fc9930c
def c01873 : W32 := 0x3e3fcb92
def c04681 : W32 := 0x3eefaace
def c18556 : W32 := 0x3fed844d

/-- The FP32 value nearest a ÷ b. -/
def ratio (a : Int) (b : Nat) : W32 :=
  let n := a.natAbs * 2 ^ 64
  if a = 0 then 0 else round32 .rne (sticky (decide (a < 0)) (n % b == 0) (n / b) (-64))

/-- Channel `c` of a pixel from its samples at bit depth `bd`. -/
def convert (d : List Byte) (bd y cb cr c : Nat) : W32 :=
  let o : Nat := 2 ^ (bd - 8)
  let yn := ratio ((y : Int) - 16 * o) (219 * o)
  let pb := ratio ((cb : Int) - 128 * o) (224 * o)
  let pr := ratio ((cr : Int) - 128 * o) (224 * o)
  let mul := fmul32 .rne
  let add := fadd32 .rne
  let sub := fsub32 .rne
  let ch :=
    if descRgb d then
      match c with
      | 0 => add yn (mul c15748 pr)
      | 1 => sub (sub yn (mul c01873 pb)) (mul c04681 pr)
      | _ => add yn (mul c18556 pb)
    else
      match c with
      | 0 => yn
      | 1 => pb
      | _ => pr
  mul (sub ch (descMean d c)) (descRstd d c)

/-! ## Pictures (R355, R364 to R369) -/

/-- Whether R355 and the descriptor accept a picture of a range. The numbers of profiles and of the 4:2:0 format are those of the two standards: PRESUMED (121). -/
def accepted (d : List Byte) (r : Range) (p : Config.Coded) : Bool :=
  p.chroma == 1 && (p.bitDepth == 8 || p.bitDepth == 10) && !p.otherTools && !r.tileList
    && (if descCodec d = 0 then (p.profile == 1 && p.bitDepth == 8 || p.profile == 2) && p.level ≤ 62 else r.profile == 0 && p.level ≤ 63)
    && p.width ≤ descMaxW d && p.height ≤ descMaxH d && descX0 d + descCW d ≤ p.width && descY0 d + descCH d ≤ p.height

/-- The 8 × 8 luma blocks across and down a size. -/
def blocksIn (n : Nat) : Nat := ceilDiv n 8

/-- A sample of a frame; beyond it, mid-grey. -/
def frameAt (f : Config.Frame) (c x y : Nat) : Nat :=
  let l := match c with | 0 => f.y | 1 => f.cb | _ => f.cr
  let w := if c = 0 then f.width else ceilDiv f.width 2
  if x < w then l.getD (y * w + x) (2 ^ (f.bitDepth - 1)) else 2 ^ (f.bitDepth - 1)

/-- A frame of a size from its samples and the flags of its blocks. -/
def mkFrame (w h bd : Nat) (order : Int) (v : Nat → Nat → Nat → Nat) (flag : Nat → Nat → Nat) : Config.Frame :=
  let plane (c w h : Nat) : List Nat := (List.range h).flatMap (fun y => (List.range w).map (fun x => v c x y))
  { width := w, height := h, bitDepth := bd, order := order, y := plane 0 w h, cb := plane 1 (ceilDiv w 2) (ceilDiv h 2), cr := plane 2 (ceilDiv w 2) (ceilDiv h 2)
    flags := (List.range (blocksIn h)).flatMap (fun y => (List.range (blocksIn w)).map (fun x => flag x y)) }

/-- The flags of the block of a frame at a column and row. -/
def flagAt (f : Config.Frame) (x y : Nat) : Nat := if x < blocksIn f.width then f.flags.getD (y * blocksIn f.width + x) 0 else 0

/-- What takes the place of samples that a stream does not give (R365, R366): the most recent correctly decoded picture of the layer, or mid-grey, 2^(bd − 1), of a size. -/
def Stream.substitute (q : Stream) (layer w h bd : Nat) : Config.Frame :=
  (Tab.get none q.last layer).getD (mkFrame w h bd 0 (fun _ _ _ => 2 ^ (bd - 1)) (fun _ _ => 0))

/-- The picture in a reference slot. -/
def Stream.slot (q : Stream) (n : Nat) : Option Config.Frame := (q.slots[n]?).join

/-- What the standards read of the n-th picture of a range. -/
def Stream.coded (q : Stream) (input : Nat × List Byte) (n : Nat) : Config.Coded := Config.coded q.desc q.history input n

/-- The blocks of a picture that are decoded: those of each of its units until a syntax error stops it; parsing goes on with the next unit (R365). -/
def Stream.decodedBlocks (q : Stream) (input : Nat × List Byte) (u : Picture) : List (Nat × Nat) :=
  u.units.flatMap (fun n =>
    let b := Config.unitBlocks q.desc q.history input n
    match b.stop with | some k => b.blocks.take k | none => b.blocks)

/-- The slots that a picture needs, and does not find (R366). -/
def Stream.missing (q : Stream) (p : Config.Coded) (u : Picture) : Bool :=
  match u.existing with
  | some n => (q.slot n).isNone
  | none => p.slots.any (fun n => (q.slot n).isNone)

/-- One round of the flags of a picture's blocks, of `w` across, from those of the round before: bit 0 where a block was not decoded, bit 1 where one is predicted from a
slot without a picture or from a flagged block (R365, R366). -/
def Stream.flagRound (q : Stream) (p : Config.Coded) (ok : List (Nat × Nat)) (w h : Nat) (l : List Nat) : List Nat :=
  (List.range h).flatMap (fun y => (List.range w).map (fun x =>
    if !ok.contains (x, y) then 1
    else if (p.preds x y).any (fun r =>
        if r.1 < 16 then (match q.slot r.1 with | some f => flagAt f r.2.1 r.2.2 != 0 | none => true)
        else r.2.1 < w && l.getD (r.2.2 * w + r.2.1) 0 != 0) then 2
    else 0))

/-- The flags of a picture's blocks: every round reaches one prediction further within the picture. -/
def Stream.blockFlags (q : Stream) (p : Config.Coded) (ok : List (Nat × Nat)) : List Nat :=
  let w := blocksIn p.width
  let h := blocksIn p.height
  (List.range (w * h + 1)).foldl (fun l _ => q.flagRound p ok w h l) []

/-- The n-th picture of an input range (R362, R365, R366): the frame of a slot shown again, or the samples reconstructed from the slots, an empty one taken by the
substitute, with those of the substitute, at the picture's bit depth, where a block was not decoded. -/
def Stream.decode (q : Stream) (input : Nat × List Byte) (n : Nat) (u : Picture) : Config.Frame :=
  let p := q.coded input n
  let sub := q.substitute u.layer p.width p.height p.bitDepth
  match u.existing with
  | some k => (q.slot k).getD { sub with flags := sub.flags.map (fun _ => 2) }
  | none =>
    let refs := (List.range 16).map (fun k => (q.slot k).getD sub)
    let ok := q.decodedBlocks input u
    let flags := q.blockFlags p ok
    { mkFrame p.width p.height p.bitDepth p.order
        (fun c x y =>
          let (bx, b_y) := if c = 0 then (x / 8, y / 8) else (x / 4, y / 4)
          if ok.contains (bx, b_y) then Config.sample q.desc q.history input n refs (c, x, y)
          else frameAt sub c x y * 2 ^ p.bitDepth / 2 ^ sub.bitDepth)
        (fun x y => flags.getD (y * blocksIn p.width + x) 0) with key := u.key }

/-- A picture substituted whole (R368, R369), which covers the crop window whatever the stream says of its size. -/
def Stream.whole (q : Stream) (p : Config.Coded) (u : Picture) : Config.Frame :=
  let sub := q.substitute u.layer (descMaxW q.desc) (descMaxH q.desc) 8
  let fits := descX0 q.desc + descCW q.desc ≤ p.width && descY0 q.desc + descCH q.desc ≤ p.height
  mkFrame (if fits then p.width else descMaxW q.desc) (if fits then p.height else descMaxH q.desc) sub.bitDepth p.order (fun c x y => frameAt sub c x y) (fun _ _ => 4)

/-- The slots that a picture fills: those of its header, or all eight where a key frame is shown again. -/
def Config.Frame.fills (f : Config.Frame) (p : Config.Coded) (u : Picture) : List Nat :=
  match u.existing with
  | some _ => if f.key then List.range 8 else []
  | none => p.stores

/-- A context after a picture: the slots that it empties and fills, and the most recent correctly decoded picture, one without a flagged block. -/
def Stream.after (q : Stream) (p : Config.Coded) (u : Picture) (f : Config.Frame) : Stream :=
  { q with
    slots := (List.range 16).map (fun n => if n ∈ Config.Frame.fills f p u then some f else if u.existing.isNone && n ∈ p.empties then none else q.slot n)
    last := if f.flags.all (· == 0) then Tab.set none q.last u.layer (some f) else q.last }

/-- A random access point clears every flag of the context (R366). -/
def Stream.cleared (q : Stream) (u : Picture) : Stream :=
  if u.key then { q with slots := q.slots.map (Option.map (fun f => { f with flags := f.flags.map (fun _ => 0) })) } else q

/-- What a decode makes of its range: the context after its pictures, whether one needs a slot that is empty, the slots filled, and the picture that it shows with its place in
the range. -/
structure Decoded where
  q : Stream
  missing : Bool := false
  fills : List Nat := []
  out : Option (Nat × Picture × Config.Frame) := none

/-- Decodes the pictures of a range in order, each one substituted whole where `whole` says so; hidden frames are kept like shown ones (R362). -/
def Stream.run (q : Stream) (input : Nat × List Byte) (whole : Bool) (l : List Picture) : Decoded :=
  let d := l.zipIdx.foldl (fun (d : Decoded) (u, n) =>
    let q := d.q.cleared u
    let p := q.coded input n
    let f := if whole then q.whole p u else q.decode input n u
    { q := q.after p u f, missing := d.missing || q.missing p u, fills := d.fills ++ Config.Frame.fills f p u
      out := if u.shown then some (n, u, f) else d.out }) { q := q }
  { d with q := { d.q with history := d.q.history ++ [input] } }

/-! ## Patches and mask (R362 to R364) -/

/-- The elements of patch `n` (R363). -/
def patchRow (d : List Byte) (f : Config.Frame) (n : Nat) : List W32 :=
  let q := descP d
  let x0 := descX0 d + n % descAcross d * q
  let y0 := descY0 d + n / descAcross d * q
  (List.range 3).flatMap (fun c => (List.range q).flatMap (fun y => (List.range q).map (fun x =>
    let (px, py) := (x0 + x, y0 + y)
    convert d f.bitDepth (frameAt f 0 px py) (frameAt f 1 (px / 2) (py / 2)) (frameAt f 2 (px / 2) (py / 2)) c)))

/-- The mask byte of patch `n` (R364): the flags of the blocks that its samples come from. -/
def patchByte (d : List Byte) (f : Config.Frame) (n : Nat) : Nat :=
  let q := descP d
  (List.range q).foldl (fun a y => (List.range q).foldl (fun a x =>
    a ||| flagAt f ((descX0 d + n % descAcross d * q + x) / 8) ((descY0 d + n / descAcross d * q + y) / 8)) a) 0

/-- The picture record and the mask bytes (R364). -/
def maskBytes (d : List Byte) (access noOutput : Bool) (f : Config.Frame) (whole : Bool) : List Byte :=
  toBytes 8 (BitVec.ofInt 64 f.order).toNat
    ++ toBytes 1 ((if access then 1 else 0) + (if whole then 2 else 0) + (if noOutput then 4 else 0))
    ++ List.replicate 7 0
    ++ (List.range (descPatches d)).map (fun n => BitVec.ofNat 8 (patchByte d f n))

/-- The tile of the output tensor that a picture fills. -/
def Op.patchTile (o : Op) (d : List Byte) : Tile :=
  { td := o.tds.headD (tdOfBytes []), a := 0, o := [0, o.firstRow, 0, 0, 0], t0 := 3 * descP d * descP d - 1, t1 := descPatches d - 1, pitch := 0 }

/-- The bytes of WORK after a decode (R356, R359): the reference slots that it filled hold its pictures with their flags, and a picture in throughput mode uses the rest as it
needs. The layout of WORK is a free value; what stands there depends on what R357 lists alone. -/
def Stream.workBytes (q : Stream) (fills : List Nat) : List (Nat × Byte) :=
  (List.range (descWorkSize q.desc)).filterMap (fun a =>
    match Config.workSlot q.desc a with
    | some n => if n.val ∈ fills then (q.slot n.val).map (fun f => (a, Config.workByte q.desc f a)) else none
    | none => if q.guarded then none else some (a, Config.workRest q.desc q.history a))

/-- The writes of a picture: its patch rows narrowed block by block, its mask area, and WORK. -/
def State.pictureEff (s : State) (o : Op) (d : List Byte) (f : Config.Frame) (mask : List Byte) (work : List (Nat × Byte)) : Eff :=
  let t := o.patchTile d
  let v : Mat := ((List.range (descPatches d)).map (fun n => (patchRow d f n).toArray)).toArray
  let scales := t.scaleCodes v
  let units := ((List.range (t.t1 + 1)).map (fun r =>
    (unitsOf t.td.w ((List.range (t.t0 + 1)).map (fun c => (s.narrowAt t .rne scales v c r).1))).toArray)).toArray
  { wrs := s.tileStore t (fun u => (units.getD (u / (2 * t.step)) #[]).getD (u % (2 * t.step)) 0) (fun n => scales.getD n 0)
      ++ [.obj (hIdx o.maskHandle) o.maskOff mask] ++ work.map (fun w => .obj (hIdx (descWork d)) w.1 [w.2]) }

/-! ## The end of a decode -/

/-- Records a quarry event and its fault bit. -/
def State.qryEv (s : State) (e code bit : Nat) (hit inj : Bool) : State :=
  if hit then ({ s with qry := { s.qry with fault := setBit s.qry.fault bit true } }).ev (srcOf 0x0B e) code 0 0 [] inj else s

/-- The work units that a guarded picture may take (R368). -/
def workBudget (d : List Byte) (len : Nat) : Nat := 4 * (roundUp (descMaxW d) 64 / 8) * (roundUp (descMaxH d) 64 / 8) + len / 16

/-- The work units that the pictures of a range take (R368): one per 16 bytes parsed, and one per block reconstructed. -/
def Stream.workUnits (q : Stream) (input : Nat × List Byte) (l : List Picture) : Nat :=
  (l.flatMap (fun u => u.units.map (fun n => (Config.unitBlocks q.desc q.history input n).parsed))).foldl (· + ·) 0 / 16
    + (l.map (fun u => (q.decodedBlocks input u).length)).foldl (· + ·) 0

/-- Whether a syntax error is detected in a range (R365). -/
def Stream.syntaxError (q : Stream) (input : Nat × List Byte) (r : Range) : Bool :=
  r.error || r.coded.any (fun u => u.units.any (fun n => (Config.unitBlocks q.desc q.history input n).stop.isSome))

/-- The decode of a range that its engine finishes (R362 to R369). An injected missing reference empties the slot that its argument names. -/
def State.picture (s : State) (e : Nat) (o : Op) (q : Stream) : State :=
  let src := srcOf 0x0B e
  let (resync, s) := s.injCheck evQryResync src
  let (missing, s) := s.injCheck evQryRefmissing src
  let input := (if resync then 1 else 0, s.objRead (hIdx (o.acmd 0)) (o.acmd 1) (o.acmd 2))
  let r := rangeOf (descCodec q.desc = 1) (leAt q.desc 3 1) q.history input.2
  let q' := if missing then { q with slots := q.slots.set (s.ldg.injArg.toNat % 16) none } else q
  let (unsup, s) := s.injCheck evQryUnsupported src
  let (budget, s) := if q.guarded then s.injCheck evQryBudget src else (false, s)
  let (window, s) := if q.guarded then s.injCheck evQryWindow src else (false, s)
  let plain := q'.run input false r.coded
  let n := match plain.out with | some x => x.1 | none => 0
  let p := q.coded input n
  let again := match plain.out with | some x => x.2.1.existing.isSome | none => false
  let unsupported := unsup || !(again || accepted q.desc r p)
  let overBudget := q.guarded && workBudget q.desc (o.acmd 2) < q.workUnits input r.coded
  let breach := q.guarded && Config.outside q.desc q.history input
  let whole := unsupported || budget || overBudget || window || breach
  let d := if whole then q'.run input true r.coded else plain
  let (_, u, f) := d.out.getD (0, {}, q'.whole p {})
  let s := s.qryEv e evQryResync 0 (resync || (!unsupported && q.syntaxError input r)) resync
  let s := s.qryEv e evQryRefmissing 1 (missing || (!unsupported && plain.missing)) missing
  let s := s.qryEv e evQryUnsupported 2 unsupported unsup
  let s := s.qryEv e evQryBudget 3 (!unsupported && (budget || overBudget)) budget
  let s := s.qryEv e evQryWindow 4 (!unsupported && (window || breach)) window
  let mask := maskBytes q.desc (u.key || f.key) (p.noOutput && !again) f whole
  let s := s.applyEff (s.pictureEff o q.desc f mask (if unsupported then [] else d.q.workBytes d.fills))
  let flagged := (List.range (descPatches q.desc)).any (fun n => patchByte q.desc f n != 0)
  { s with qry := { s.qry with
      pics := s.qry.pics + 1
      flagged := if flagged then satInc s.qry.flagged else s.qry.flagged
      streams := Tab.set none s.qry.streams o.stream (some (if unsupported then q else d.q)) } }

/-- DECODE_COMPLETE: an input whose object is poisoned meanwhile holds the decode (R369). -/
def State.decodeComplete (s : State) (e : Nat) (ds : List Detect) : State :=
  match s.engine e with
  | none => s
  | some o =>
    match Tab.get none s.qry.streams o.stream with
    | none => s
    | some q =>
      if o.st ≠ .started then s
      else
        let f := s.detect (srcOf 0x0B e) o.core [{ h := o.acmd 0, lo := o.acmd 1, n := o.acmd 2, wr := false }] ds
        let s := f.s
        let s :=
          if (s.refs o).all (s.reaches o.src) then ((s.picture e o q).setEngine e none).finishOp o
          else
            let (s, w) := s.eval o
            s.settle w
        s.settle f.again

def execDecodeComplete (e : Fin 8) (ds : List Detect) (s : State) : Host.Outcome State Fault Refusal := .next (s.decodeComplete e ds)

/-- QRY_WDOG (R367): in throughput mode the decode is abandoned and its context closed. -/
def State.qryWdog (s : State) (e : Nat) : State :=
  match s.engine e with
  | none => s
  | some o =>
    match Tab.get none s.qry.streams o.stream with
    | none => s
    | some q =>
      if q.guarded then s
      else
        let (inj, s) := s.injCheck evQryWdog (srcOf 0x0B e)
        let s := s.qryEv e evQryWdog 5 true inj
        let objs := (s.refs o).map (fun r => hIdx r.h)
        let s := { (s.setEngine e none) with qry := { (s.setEngine e none).qry with streams := Tab.set none s.qry.streams o.stream none } }
        let s := (s.unpin o).dropOp o.id
        let s := match o.src with
          | .ctx x => s.opGone x
          | _ => s
        objs.eraseDups.foldl State.settleObj s

def execQryWdog (e : Fin 8) (s : State) : Host.Outcome State Fault Refusal := .next (s.qryWdog e)

end Sys2Proof.Machine
end

