-- ==== Sys2Proof/Machine/Run.lean ====
section
/-! DEFINITION. Units at work: the start of the operation at the head of a queue with the checks that need the object table (R96, R104, R334), its
completion (R97), the bound on held requests (R228, R273) and the watchdog of a core (R108). -/

namespace Sys2Proof.Machine

/-! ## OPERATION_START -/

/-- The operation at the head of a unit's queue. -/
def State.head (s : State) (k : Nat) (u : CoreUnit) : Option Op := s.ops.find? (fun o => o.core == k && o.unit == u && o.st == .queued)

/-- The arrays that an operation uses (R87, R205). -/
def Op.arrays (o : Op) : List CoreUnit :=
  match o.unit with
  | .farray => [.farray]
  | .darray => [.darray]
  | .warray => [.warray]
  | .voussoir => if o.kind = .attBwd then [.farray, .darray, .warray] else [.farray]
  | _ => []

/-- The slots that a MAT operation accesses. -/
def Op.slotMask (o : Op) : List Nat :=
  match o.kind with
  | .matFwd | .matDgrad | .matWgrad | .matWgradm => slotsOf (matSmask o.ins)
  | _ => slotsOf (drnSmask o.ins)

/-- Whether a started operation `q` has left its array to the next one, `o` (R156, R163): a MAT.DRAIN or MAT.PDRAIN once it has read its slots, and a product that
drains by itself where `o` is a MAT operation on other slots. -/
def Op.leftTo (q o : Op) : Bool :=
  match q.kind with
  | .matDrain | .matPdrain => true
  | .matFwd | .matDgrad | .matWgrad | .matWgradm => matDrn q.ins && o.unit != .voussoir && q.slotMask.all (fun j => j ∉ o.slotMask)
  | _ => false

/-- Whether the units that an operation uses are free. A VEC operation waits while an ATT command holds the vector engine (R203); voussoir takes the
engine between two of its operations, which overlap in the pipeline (R182), so those in flight do not hold an ATT command. -/
def State.arraysFree (s : State) (o : Op) : Bool :=
  !(s.ops.any (fun q => q.core == o.core && q.st == .started
    && (if o.unit = .vector then q.unit == .voussoir else q.arrays.any (fun a => a ∈ o.arrays) && !q.leftTo o)))

/-- Whether a write to a descriptor's object is one that a program may make (R135, R335). -/
def State.storeFaults (s : State) (o : Op) : List Nat :=
  match o.kind with
  | .movStt => need (o.tds.all (fun t => (s.obj (hIdx t.handle)).kind != .code)) evBoundsFault
  | .movStb =>
    let ob := s.obj (hIdx (o.regs.getD 1 0).toNat)
    need (ob.kind != .code && ob.cls == 1) evBoundsFault
  | _ => []

/-- Check 8 of an operation (R104, R117): ILLEGAL_ENCODING before BOUNDS_FAULT. -/
def State.faults8 (s : State) (o : Op) : List Nat :=
  match o.kind with
  | .hodPin | .hodUnpin | .hodPromote | .hodDemote | .hodDrop | .hodAppend | .hodTrim => s.hodFaults8 o
  | .arcRscat | .arcAgath | .arcAred | .arcSend | .arcRecv | .arcCirc => s.arcFaults8 o
  | .attFwd | .attBwd => (o.tds.map s.tdFaults8).flatten ++ s.attFaults8 o
  | .ingOpen | .ingDecode | .ingClose => s.ingFaults8 o
  | .movLdb | .movStb | .movPref => need ((s.refs o).all s.refOk) evBoundsFault ++ s.storeFaults o
  | _ => (o.tds.map s.tdFaults8).flatten ++ s.storeFaults o

/-- Whether an operation makes a range check at its start, which an injection point can report (R440). -/
def Op.rangeChecked (o : Op) : Bool := !o.tds.isEmpty || (match o.kind with
  | .movLdb | .movStb | .movPref | .hodPin | .hodUnpin | .hodPromote | .hodDemote | .hodDrop | .hodAppend | .hodTrim
  | .arcAgath | .arcSend | .arcRecv | .arcCirc | .arcRscat | .arcAred | .ingOpen | .ingDecode | .ingClose => true
  | _ => false)

/-- Whether the unit can take the operation now. -/
def State.unitFree (s : State) (o : Op) : Bool := s.arraysFree o && s.arcFree o && !((o.kind == .ingOpen || o.kind == .ingDecode || o.kind == .ingClose) && 512 ≤ s.qry.queue.length)

/-- The number of an array within its core. -/
def arrayNo : CoreUnit → Nat
  | .darray => 1
  | .warray => 2
  | _ => 0

/-- An array that has started no operation for 256 CCLK begins its ramp with the first window (R415). -/
def State.rampUp (s : State) (o : Op) : State :=
  o.arrays.foldl (fun s a =>
    let n := 3 * o.core + arrayNo a
    let now := s.pln.cclk.toNat
    let idle := match Tab.get 0 s.pln.lastStart n with | 0 => true | t + 1 => 256 ≤ now - t
    { s with pln := { s.pln with lastStart := Tab.set 0 s.pln.lastStart n (now + 1), ramp := if idle then Tab.set 8 s.pln.ramp n 1 else s.pln.ramp } }) s

/-- Starts an operation that passed its checks. -/
def State.startOp (s : State) (o : Op) : State × List Nat :=
  match o.kind with
  | .arcOvor => (s.startOvor o, [])
  | .arcRecv => (s.postRecv o, [])
  | .ingDecode | .ingClose => (s.startIng o, [])
  | .matDrain | .matPdrain => s.eval { o with snap := s.drainSnap o }
  | _ => s.eval o

/-- The ranges that the arch verifies at link egress, before the first byte leaves (R253, R299): what it reads. -/
def State.outReads (s : State) (o : Op) : List ObjRef := if o.kind.arch then (s.refs o).filter (fun r => !r.wr) else []

/-- OPERATION_START, with what the detectors find in the reads that the operation makes at its start. -/
def State.operationStart (s : State) (k : Nat) (u : CoreUnit) (ds : List Detect) : State :=
  match s.head k u with
  | none => s
  | some o =>
    if !s.unitFree o || s.warned then s
    else
      let x := match o.src with | .ctx x => x | _ => 0
      let faults := s.faults8 o
      let inj := o.rangeChecked && s.injArmed evBoundsFault (srcOf 0x01 x)
      let s :=
        if evIllegalEncoding ∈ faults then s.asyncFault o evIllegalEncoding
        else if inj then s.injReport.asyncFault o evBoundsFault true
        else if evBoundsFault ∈ faults then s.asyncFault o evBoundsFault
        else
          let f := s.detect (srcOf 0x07 o.arcCourse) o.core (s.outReads o) (if o.kind.arch then ds else [])
          let (s, w) := (f.s.rampUp o).startOp o
          s.settle (w ++ f.again)
      (s.queueFreed k u).settleRecomputes

def execOperationStart (k : Fin 64) (u : Met CoreUnit) (s : State) : Host.Outcome State Fault Refusal := .next (s.operationStart k.val u.of u.found)

/-! ## LONG_OP_COMPLETE -/

/-- Ends a collective: the course is free for the next one (R302, R313). -/
def State.endColl (s : State) (o : Op) : State :=
  let c := o.arcCourse
  { s with arc := { s.arc with
      colls := s.arc.colls.filter (fun p => p.1 != c)
      done := s.arc.done.set c (s.arc.done.getD c 0 + 1) } }

/-- The effect of a NUM operation. -/
def State.numEffect (s : State) (o : Op) : State := if o.kind = .numStepupd then s.stepupd else s.stepbegin (o.words == [1])

/-- Whether an operation that has started can complete. -/
def State.completable (s : State) (o : Op) : Bool :=
  o.st == .started && (match o.kind with
    | .numStepupd | .numStepbegin => s.numReady o.kind
    | .ingClose => (s.decodesBefore o).isEmpty
    | .ingDecode => false
    | _ => true)

/-- The ranges that an outbound operation reads and verifies at its completion: the loss word of NUM.STEPUPD (R350). The arch has verified what it sent. -/
def State.endReads (s : State) (o : Op) : List ObjRef := if o.kind = .numStepupd then s.refs o else []

/-- What an outbound operation wrote, invalid after an uncorrectable scratchpad error (R100): free values in its object ranges and in the line of HOD.APPEND. -/
def State.outInvalid (s : State) (o : Op) : State :=
  let s := ((s.refs o).filter (fun r => r.wr)).foldl (fun s r =>
    let (b, s) := s.freeBytes r.n
    s.objWrite (hIdx r.h) r.lo b) s
  if o.kind = .hodAppend then
    let (b, s) := s.freeBytes 64
    s.spadWrite o.core (o.regs.getD 2 0).toNat b
  else s

/-- LONG_OP_COMPLETE. An outbound operation that reaches a poisoned object is held on it: it completes once it is recovered (R254, R270, R349). -/
def State.longOpComplete (s : State) (id : Nat) (ds : List Detect) : State :=
  match s.findOp id with
  | none => s
  | some o =>
    if !s.completable o then s
    else
      match o.unit with
      | .outbound =>
        let f := s.detect o.detector o.core (s.endReads o) ds
        let s := f.s
        if !(s.refs o).all (s.reaches o.src) then s.settle f.again
        else
          let s := match o.kind with
            | .numStepupd | .numStepbegin => s.numEffect o
            | .ingOpen | .ingClose => s.ingEffect o
            | .arcRscat | .arcAgath | .arcAred => s.endColl o
            | _ => s
          let s := if f.invalid then s.outInvalid o else s
          (s.finishOp o).settle f.again
      | _ => s.completeCore o ds

def execLongOpComplete (id : Nat) (ds : List Detect) (s : State) : Host.Outcome State Fault Refusal := .next (s.longOpComplete id ds)

/-! ## Bounds and watchdogs -/

/-- PAGE_EXHAUSTED: a request held on the page-free counter for longer than HOD_APPEND_LIMIT (R228, R273), or treated so by an injection point (R440). -/
def State.pageExhausted (s : State) (id : Nat) : State :=
  match s.findOp id with
  | none => s
  | some o =>
    match o.st with
    | .heldCap since _ _ =>
      let inj := match o.src with | .ctx x => s.injArmed evPageExhausted (srcOf 0x01 x) | _ => false
      if inj then (s.injReport.exhausted o true).settleRecomputes
      else if fld s.hod.limit.toNat 47 0 < s.pln.cclk.toNat - since then (s.exhausted o false).settleRecomputes
      else s
    | _ => s

def execPageExhausted (id : Nat) (s : State) : Host.Outcome State Fault Refusal := .next (s.pageExhausted id)

/-- CORE_WDOG (R108, R111): the slot of a core that has a READY or RUNNING context and has issued nothing for 10 ms is marked failed. -/
def State.coreWdog (s : State) (k : Nat) : State :=
  match s.slotOf k with
  | none => s
  | some p =>
    let src := srcOf 0x01 (0x200 + p)
    let inj := s.injArmed evCoreWdog src
    if inj || (ctxsOf k).any (fun x => (s.ctx x).st == .ready || (s.ctx x).st == .running) then
      let s := if inj then s.injReport else s
      let s := s.setSlot p { s.slot p with fault := setBit (s.slot p).fault 10 true }
      (s.ev src evCoreWdog k 0 [] inj).markFailed p s.ldg.next inj
    else s

def execCoreWdog (k : Fin 64) (s : State) : Host.Outcome State Fault Refusal := .next (s.coreWdog k.val)

/-! ## Moves and recovery (R267, R283) -/

/-- The operation that reached a move's end, and everything held on the object, are evaluated. -/
def State.moved (s : State) (i : Nat) (m : Move) (w : List Nat) : State := s.settle (m.op.toList ++ s.heldOn i ++ w)

/-- A page has left its region (R258): what of it lay outside the region returns. -/
def State.pageMoved (s : State) (i g p : Nat) : State × List Nat :=
  let o := s.obj i
  let (k, s) := s.fresh
  let s := s.setObj i { o with move := none, moved := (p, k) :: o.moved.filter (fun q => q.1 != p) }
  let s := { s with ops := s.ops.filter (fun q => !(q.leaves i && q.words.getD 1 0 == p && q.words.getD 2 0 == g)) }
  if 32 < 2 ^ o.pg then s.giveUnits o.home (2 ^ o.pg - 32) 0 else (s, [])

/-- The ranges that a move verifies at its source: a page, or the whole object. -/
def State.moveReads (s : State) (i : Nat) (m : Move) : List ObjRef :=
  let o := s.obj i
  let h := o.handle.toNat
  if m.region.isSome then [{ h := h, lo := m.page * (65536 * 2 ^ o.pg), n := 65536 * 2 ^ o.pg, wr := false }] else [{ h := h, lo := 0, n := o.bytes, wr := false }]

/-- The new home takes over, a peer's by messages (R267), and the old one is freed. The handle that a peer gives its HOSTED entry is a free value. -/
def State.switchHome (s : State) (i : Nat) (m : Move) : State × List Nat :=
  let (s, w) := s.vacate i
  let s := s.newPlace i
  let (k, s) := if m.toHome = 2 then s.fresh else (0, s)
  let hh := if m.toHome = 2 then Config.choose k % 2 ^ 24 else 0
  let s := if m.toHome = 2 then s.givePeer i m.toNode hh else s
  let o := s.obj i
  (s.setObj i { o with
    st := if m.toHome = 0 then .fast else .slow, home := m.toHome, hnode := if m.toHome = 2 then m.toNode else 0, hhandle := hh, move := none }, w)

/-- HOD_MOVE_COMPLETE. A source block that mismatches twice poisons the object in its old home. -/
def State.hodMoveComplete (s : State) (i : Nat) (ds : List Detect) : State :=
  match (s.obj i).move with
  | none => s
  | some m =>
    if (s.obj i).st = .poisoned then s
    else
      let f := s.detect (srcOf 0x05 0) 0 (s.moveReads i m) ds
      let s := f.s
      if (s.obj i).st = .poisoned then s.settle f.again
      else
        match m.region with
        | some g =>
          let (s, w) := s.pageMoved i g m.page
          s.moved i m (w ++ f.again)
        | none =>
          let (s, w) := s.switchHome i m
          s.moved i m (w ++ f.again)

def execHodMoveComplete (o : Fin 1048576) (ds : List Detect) (s : State) : Host.Outcome State Fault Refusal := .next (s.hodMoveComplete o.val ds)

/-- Whether a detection is a second mismatch of a block of object `i`. -/
def twiceOf (i : Nat) : Detect → Bool
  | .csumTwice j _ => j.val == i
  | _ => false

/-- RECOVERY_COMPLETE of a source other than a recompute, which ends with its context (R225, R283). Each source block is verified; a source whose block mismatches twice
is skipped, and its destination freed (R282): `ds` reports that as a second mismatch of the object. An image with a flash page that cannot be read is unusable and is
skipped too (R345), as is one that needs an image that is lost so. -/
def State.recoveryComplete (s : State) (i : Nat) (ds : List Detect) : State :=
  match (s.obj i).recover with
  | none => s
  | some src =>
    if (s.obj i).st ≠ .poisoned || src = 1 then s
    else
      let f := s.detect (srcOf 0x05 0) 0 [] (ds.filter (fun d => !twiceOf i d))
      let (lost, s) := match s.imageOf i with
        | some m => if src = 3 then (f.s.readFlash m.seq (s.chainOf m.seq) ds).2 else ([], f.s)
        | none => ([], f.s)
      if ds.any (twiceOf i) || !lost.isEmpty then
        let o := s.obj i
        let (s, w) := s.giveDest o
        let (s, w') := (s.setObj i { o with recover := none, move := none }).recoverFrom i src
        s.settle (f.again ++ w ++ w')
      else
        let (s, w) := s.recovered i src
        s.settle (f.again ++ w)

def execRecoveryComplete (o : Met (Fin 1048576)) (s : State) : Host.Outcome State Fault Refusal := .next (s.recoveryComplete o.of.val o.found)

end Sys2Proof.Machine
end

