-- ==== Sys2Proof/Machine/Host.lean ====
section
/-! DEFINITION. The host on PCIe: doorbells and rings, accesses through BAR 2, configuration requests, resets and link training (R373 to R382,
R423, R465). -/

namespace Sys2Proof.Machine

/-! ## Reaching the module -/

/-- Bytes of host writes that are held. -/
def State.heldBytes (s : State) : Nat := (s.ops.map (fun o => if o.kind = .hostWrite then o.words.getD 3 0 else 0)).foldl (· + ·) 0

/-- Whether posted credits are withheld: the buffer of 256 KiB for held writes is full, or an access waits already; every request of the host then waits (R375). -/
def State.stalled (s : State) : Bool := decide (262144 ≤ s.heldBytes) || !s.hif.waiting.isEmpty

/-- Sets the answer on the link; an Unsupported Request is an error that AER reports (R373): bit 20 of its status, as PCIe numbers it. PRESUMED (130). -/
def State.answerHost (s : State) (r : HostRsp) : State :=
  { s with hif := { s.hif with rsp := r, aer := if r = .unsupported then setBit s.hif.aer 20 true else s.hif.aer } }

/-- An access `i` of the host to a BAR. With PERST_N low it does not reach the module; before start-up step 2 it completes as Unsupported Request (R423);
with credits withheld it waits on the link. -/
def State.hostAccess (s : State) (i : Instr) (f : State → State) : State :=
  if s.hif.down then s
  else if s.pln.stage < 2 then s.answerHost .unsupported
  else if s.stalled then { s with hif := { s.hif with waiting := s.hif.waiting ++ [i] } }
  else f s

/-! ## Rings (R377 to R380) -/

/-- A write of the doorbell of a ring (R378). -/
def State.doorbell (s : State) (r v : Nat) : State :=
  if !(s.ring r).en then s.ringErr r v
  else
    let (inj, s) := s.injCheck evHifRingErr (srcOf 0x0C r)
    let g := s.ring r
    let t : BitVec 16 := BitVec.ofNat 16 v
    if inj || 2 ^ 16 ≤ v || (t - g.head).toNat < (g.tail - g.head).toNat || s.ringSize r < (t - g.head).toNat then (s.ringErr r v inj).disableRing r
    else s.setRing r { g with tail := t }

def execDoorbell (r : Fin 32) (v : W32) (s : State) : Host.Outcome State Fault Refusal := .next (s.hostAccess (.doorbell r v) (fun s => s.doorbell r v.toNat))

/-- Whether a ring with LOG2 `n` is sound (R380). -/
def State.ringSound (s : State) (r n : Nat) : Bool :=
  let h := s.ringHandle r
  let o := s.obj (hIdx h)
  r == 0 || (6 ≤ n && n ≤ 16 && s.named h && o.kind == .data && !o.hosted && 2 ^ n * 64 ≤ o.bytes)

/-- A write of HIF_SQ_CFG (R380): EN takes effect only on a sound ring and resets it; LOG2 is not changed while EN or DRAIN is 1. -/
def State.writeSqCfg (s : State) (r v : Nat) : State :=
  let g := s.ring r
  let n := fld v 4 0
  if g.en then (if bitOf v 5 then s else s.disableRing r)
  else if g.drain then s
  else
    let g := if r = 0 then g else { g with log2 := n }
    if !bitOf v 5 then s.setRing r g
    else if s.ringSound r n then s.setRing r { g with en := true, head := 0, tail := 0, cqHead := 0, posted := 0, consumed := 0, fetched := [] }
    else (s.setRing r g).ringErr r v

def execRingEnable (r : Fin 32) (v : W32) (s : State) : Host.Outcome State Fault Refusal :=
  .next (if bitOf v.toNat 5 then s.hostAccess (.ringEnable r v) (fun s => s.writeSqCfg r v.toNat) else s)

def execRingDisable (r : Fin 32) (v : W32) (s : State) : Host.Outcome State Fault Refusal :=
  .next (if bitOf v.toNat 5 then s else s.hostAccess (.ringDisable r v) (fun s => s.writeSqCfg r v.toNat))

/-- A write of HIF_CQ_HEAD (R379). -/
def State.writeCqHead (s : State) (r v : Nat) : State :=
  let g := s.ring r
  let h : BitVec 16 := BitVec.ofNat 16 v
  if (h - g.cqHead).toNat ≤ g.posted - g.consumed then s.setRing r { g with cqHead := h, consumed := g.consumed + (h - g.cqHead).toNat }
  else s.ringErr r v

def execCqHeadWrite (r : Fin 32) (v : W32) (s : State) : Host.Outcome State Fault Refusal := .next (s.hostAccess (.cqHeadWrite r v) (fun s => s.writeCqHead r v.toNat))

/-- A write of HIF_CQ_ADDR, ignored while EN or DRAIN is 1. -/
def State.writeCqAddr (s : State) (r v : Nat) : State :=
  let g := s.ring r
  if g.en || g.drain then s else s.setRing r { g with cqAddr := BitVec.ofNat 64 (v / 4096 * 4096) }

/-- A write of HIF_SQ_BASE, ignored while EN or DRAIN is 1. -/
def State.writeSqBase (s : State) (r v : Nat) : State :=
  let g := s.ring r
  if g.en || g.drain then s else s.setRing r { g with base := BitVec.ofNat 32 (v % 2 ^ 24) }

/-! ## BAR 2 (R375) -/

/-- The object range that a window maps an access to; none where the window is not valid. -/
def State.window (s : State) (w off n : Nat) (wr : Bool) : Option ObjRef :=
  let v := (Tab.get 0 s.hif.win w).toNat
  if bitOf v 24 then some { h := fld v 23 0, lo := fld v 63 32 * 65536 + off, n := n, wr := wr } else none

/-- Holds an access: a request that arrives at the object's entry, with what the detectors find in its reads. -/
def State.holdBar2 (s : State) (r : ObjRef) (data : Option (List Byte)) (ds : List Detect) : State :=
  let n := s.hif.nextId
  let (s, id) := s.request (if data.isSome then .hostWrite else .hostRead) .host (hIdx r.h) ([n, r.h, r.lo, r.n] ++ (data.getD []).map BitVec.toNat)
  let s := { s with ops := s.ops.map (fun (o : Op) => if o.id = id then { o with found := ds } else o) }
  { s with hif := { s.hif with nextId := n + 1, rsp := if data.isSome then s.hif.rsp else .held n } }.settle [id]

/-- Whether an earlier held access to the object goes first. -/
def State.behind (s : State) (r : ObjRef) : Bool := s.ops.any (fun o => o.hostOn (hIdx r.h))

/-- A host read. -/
def State.bar2Read (s : State) (w off len : Nat) (ds : List Detect) : State :=
  match s.window w off len false with
  | none => (s.hifFault 1).answerHost .unsupported
  | some r =>
    let i := hIdx r.h
    if !s.bar2Ok r then (s.bar2Refuse r).answerHost .unsupported
    else if s.behind r || !s.reaches .host r then s.holdBar2 r none ds
    else
      let f := s.detect bar2Src 0 [r] ds
      let s := f.s
      let s := if s.reaches .host r then (s.peerTraffic [r]).answerHost (.data (s.objRead i r.lo r.n)) else (s.hifFault 2).answerHost (.poisoned len)
      s.settle f.again

def execBar2Read (w : Fin 256) (off : Fin 1073741824) (len : Nat) (ds : List Detect) (s : State) : Host.Outcome State Fault Refusal :=
  .next (s.hostAccess (.bar2Read w off len ds) (fun s => s.bar2Read w off len ds))

/-- A host write that is held: buffered where the buffer has room for it, else it waits on the link before all that follows it. -/
def State.bufferBar2 (s : State) (w : Fin 256) (off : Fin 1073741824) (r : ObjRef) (data : Met WriteTlp) : State :=
  if 262144 < s.heldBytes + data.of.bytes.length then { s with hif := { s.hif with waiting := .bar2Write w off data :: s.hif.waiting } }
  else s.holdBar2 r (some data.of.bytes) data.found

/-- A host write, with what the read of a partly written block detects (R134, R189). DESIGN CHOICE (130): one that arrives poisoned is discarded, and AER
reports it. -/
def State.bar2Write (s : State) (w : Fin 256) (off : Fin 1073741824) (data : Met WriteTlp) : State :=
  match s.window w.val off.val data.of.bytes.length true with
  | none => (s.hifFault 1).answerHost .unsupported
  | some r =>
    let i := hIdx r.h
    if !s.bar2Ok r then (s.bar2Refuse r).answerHost .unsupported
    else if data.of.poisoned then { s with hif := { s.hif with aer := setBit s.hif.aer 12 true } }
    else if (s.obj i).kind = .code then s
    else if s.behind r || s.captureHolds i || !s.reaches .host r then s.bufferBar2 w off r data
    else
      let f := s.detect bar2Src 0 [r] data.found
      let s := f.s
      (if s.reaches .host r then (s.objWrite i r.lo data.of.bytes).peerTraffic [{ r with wr := true }] else s.bufferBar2 w off r { data with found := [] }).settle f.again

def execBar2Write (w : Fin 256) (off : Fin 1073741824) (data : Met WriteTlp) (s : State) : Host.Outcome State Fault Refusal :=
  .next (s.hostAccess (.bar2Write w off data) (fun s => s.bar2Write w off data))

/-- BAR2_READ_TIMEOUT: a read held for more than 50 µs. -/
def execBar2ReadTimeout (id : Nat) (s : State) : Host.Outcome State Fault Refusal :=
  .next (match s.ops.find? (fun o => o.kind == .hostRead && o.words.getD 0 0 == id) with
    | some o => (((s.dropOp o.id).hifFault 2).late id (.poisoned (o.words.getD 3 0))).settleObj (hIdx (o.words.getD 1 0))
    | none => s)

/-! ## Configuration, resets and the link -/

/-- The one physical function (R374): vendor 0x1F3C and device 0x0C61. -/
def pciVendor : BitVec 16 := 0x1F3C
def pciDevice : BitVec 16 := 0x0C61

/-- CONFIG_REQUEST (R374, R423). -/
def execConfigRequest (s : State) : Host.Outcome State Fault Refusal :=
  .next (if s.hif.down then s else s.answerHost (if s.pln.stage < 2 then .retry else .config pciVendor pciDevice))

/-- The effects of a Function Level Reset (R382, R454): the job stops, no completion is written, and the HIF block is as at reset. What the hod has asked for itself goes
on. -/
def State.hifReset (s : State) : State :=
  let s := { s with hif := { nextId := s.hif.nextId, down := s.hif.down }, msn := { s.msn with busy := none } }
  let s := s.ops.foldl (fun s o => match o.st with | .moving => s.unpin o | _ => (s.unpin o).uncode o) s
  ({ s with ops := s.ops.filter (fun o => o.src == OpSrc.hod) }).stopJob

/-- FUNCTION_LEVEL_RESET: a configuration write, so not before start-up step 2. -/
def execFunctionLevelReset (s : State) : Host.Outcome State Fault Refusal := .next (if s.hif.down || s.pln.stage < 2 then s else s.hifReset)

/-- PERST_N goes low (R465): the host interface is in reset until the link trains again. -/
def execPerstN (s : State) : Host.Outcome State Fault Refusal :=
  .next (if s.hif.down then s else { s.hifReset with hif := { s.hifReset.hif with down := true } })

/-- PCIE_LINK_TRAINING (R373, R387): the lanes in use, 8, 4, 2 or 1, and the rate, 1 to 7. -/
def execPcieLinkTraining (width speed : BitVec 4) (s : State) : Host.Outcome State Fault Refusal :=
  .next (if width.toNat ∈ [1, 2, 4, 8] && 1 ≤ speed.toNat && speed.toNat ≤ 7 then
      { s with hif := { s.hif with width := width.toNat, speed := speed.toNat, down := false } }
    else s)

end Sys2Proof.Machine
end

