-- ==== Sys2Proof/Machine/Bar.lean ====
section
/-! DEFINITION. BAR 0: what every register reads, and what a write does (R7, R8, R445 to R455). Addresses are BAR 0 offsets; a register is read in
32-bit words. -/

namespace Sys2Proof.Machine

/-- Word `o` (0 or 4) of a 64-bit register. -/
def half (v o : Nat) : Nat := if o % 8 = 0 then v % 2 ^ 32 else v / 2 ^ 32 % 2 ^ 32

/-- A flag in a bit place. -/
def flag (b : Bool) (n : Nat) : Nat := if b then 2 ^ n else 0

/-- A value of 32 flags. -/
def flags32 (f : Nat → Bool) : Nat := ((List.range 32).map (fun b => flag (f b) b)).foldl (· + ·) 0

/-! ## Reads, by block -/

/-- The codes of R90. -/
def CtxSt.code : CtxSt → Nat
  | .idle => 0
  | .ready => 1
  | .running => 2
  | .waiting => 3
  | .stopped => 4
  | .faulted => 5

/-- CORE (R113). -/
def State.coreWord (s : State) (p o : Nat) : Nat :=
  let q := s.slot p
  let ctx (c : Nat) : Ctx := match q.logical with
    | some k => s.ctx (8 * k + c)
    | none => {}
  if o = 0x0 then (match q.logical with | some k => k + 2 ^ 6 | none => 0) + p * 2 ^ 8 + flag (spareOf (p / 17) == p) 15 + flag q.failed 16
  else if o = 0x8 then ((List.range 8).map (fun c => (ctx c).st.code * 16 ^ c)).foldl (· + ·) 0
  else if o = 0x10 then q.fault.toNat
  else if o = 0x18 then q.spadCorr.toNat
  else if 0x100 ≤ o && o < 0x140 then half (ctx ((o - 0x100) / 8)).pc.toNat o
  else if 0x140 ≤ o && o < 0x180 then half (Tab.get 0 q.flt ((o - 0x140) / 8)).toNat o
  else 0

/-- MTR (R192). -/
def State.mtrWord (s : State) (o : Nat) : Nat :=
  let m := s.mtr
  if o = 0x0 then m.caWays
  else if o = 0x8 then m.fault.toNat
  else if o = 0x10 then m.corr.toNat
  else if o = 0x18 then m.uncorr.toNat
  else if o / 8 = 4 then half m.hit.toNat o
  else if o / 8 = 5 then half m.miss.toNat o
  else 0

/-- FTG (R262). DESIGN CHOICE (142): SOFT shows its count modulo 4,096; the rule says of HARD
alone that it saturates. -/
def State.ftgWord (s : State) (i o : Nat) : Nat :=
  let k := s.stack i
  if o = 0x0 then k.train + k.rmult * 2 ^ 2 + flag k.scrub 4
  else if o = 0x8 then k.fault.toNat
  else if o = 0x10 then k.corr.toNat
  else if o = 0x18 then k.uncorr.toNat
  else if o = 0x20 then k.temp.toNat + k.tmax.toNat * 2 ^ 8
  else if o = 0x28 then
    k.soft % 2 ^ 12 + (if s.ftg.loaded then min k.hard 0xFFF * 2 ^ 12 + (4 - min 4 ((k.spares.map Prod.snd).foldl max 0)) * 2 ^ 24 else 0)
  else if o = 0x30 then (if s.ftg.loaded then s.ftg.retired.length else 0)
  else if 0x100 ≤ o && o < 0x200 then
    let a := Tab.get 0 k.laneA ((o - 0x100) / 4)
    let b := Tab.get 0 k.laneB ((o - 0x100) / 4)
    let f (l : Nat) : Nat := if l = 0 then 0x3F else l - 1
    (if a = 0 then 0 else 1) + (if b = 0 then 0 else 1) + f a * 2 ^ 2 + f b * 2 ^ 8
  else 0

/-- UCF (R286). -/
def State.ucfWord (s : State) (o : Nat) : Nat :=
  let u := s.ucf
  if o = 0x0 then u.train + flag u.test 2
  else if o = 0x8 then u.fault.toNat
  else if o = 0x10 then u.corr.toNat
  else if o = 0x18 then u.uncorr.toNat
  else if o = 0x20 then u.quarantined.length
  else 0

/-- The code of an object's state (R264). -/
def ObjSt.code : ObjSt → Nat
  | .fast => 0
  | .slow => 1
  | .up => 2
  | .down => 3
  | .dropped => 4
  | .poisoned => 5
  | .free => 15

/-- The sixteen words of an entry of the object table: E0 to E7 and P0 to P7 (R264). -/
def State.entryWords (s : State) (i : Nat) : List W64 :=
  let o := s.obj i
  let held := (s.heldAt i).length
  [ o.handle.toNat + o.st.code * 2 ^ 24 + o.kind.num * 2 ^ 28 + o.home * 2 ^ 30 + o.pins.toNat * 2 ^ 32 + o.pg * 2 ^ 48 + flag o.evict 52
      + o.eprio * 2 ^ 53 + flag o.succ 55 + flag o.hosted 56,
    o.size, o.hnode + o.hhandle * 2 ^ 14, o.rnode + o.rhandle * 2 ^ 14 + flag o.rvalid 38, o.wstep.toNat, o.epoch.toNat + held * 2 ^ 16, 0, 0 ].map (BitVec.ofNat 64)
    ++ (List.range 8).map (fun j => o.page.getD j 0)

/-- HOD (R285). -/
def State.hodWord (s : State) (o : Nat) : Nat :=
  let h := s.hod
  if o = 0x0 then flag h.ready 0 + flag h.dropEn 1 + (s.objs.filter (fun p => p.2.st != .free)).length * 2 ^ 2
  else if o = 0x8 then h.fault.toNat
  else if o / 8 = 2 then half (h.freeFast + h.allocFast * 2 ^ 32) o
  else if o / 8 = 3 then half (h.freeSlow + h.allocSlow * 2 ^ 32) o
  else if o / 8 = 4 then half (h.pageFree.toNat + s.capWaiters.length * 2 ^ 32) o
  else if o / 8 = 5 then half h.limit.toNat o
  else if o = 0x30 then h.poisoned.toNat
  else if o = 0x40 then h.sel.toNat
  else if 0x80 ≤ o && o < 0x100 then half (h.entryData.getD ((o - 0x80) / 8) 0).toNat o
  else 0

/-- LNK (R312). -/
def State.lnkWord (s : State) (i o : Nat) : Nat :=
  let p := s.port i
  if o = 0x0 then p.state + flag p.spare 3 + p.pgen.toNat * 2 ^ 8 + p.pfeat.toNat * 2 ^ 16 + p.pport * 2 ^ 24
  else if o = 0x8 then p.fault.toNat
  else if o = 0x10 then p.failed.toNat + p.spared * 2 ^ 9 + p.width * 2 ^ 13
  else if o / 8 = 3 then half p.fecCorr.toNat o
  else if o = 0x20 then p.fecUncorr.toNat
  else if o = 0x28 then p.replay.toNat
  else if o / 8 = 6 then half p.serial.toNat o
  else if o / 8 = 7 then half p.tx.toNat o
  else if o / 8 = 8 then half p.rx.toNat o
  else 0

/-- ARC (R313). -/
def State.arcWord (s : State) (o : Nat) : Nat :=
  let a := s.arc
  if o = 0x0 then a.node.toNat + flag a.valid 14
  else if o / 8 = 1 then half a.topo o
  else if o / 8 = 2 then half a.posWord o
  else if o = 0x18 then a.fault.toNat
  else if o = 0x20 then flag a.sent 0 + flag a.delivered 1 + flag a.result 2
  else if 0x28 ≤ o && o < 0x48 then half ((a.issued.getD ((o - 0x28) / 8) 0).toNat + (a.done.getD ((o - 0x28) / 8) 0).toNat * 2 ^ 32) o
  else if o = 0x48 then a.posted.length
  else 0

/-- KST_WAIT of a context (R331). -/
def Ctx.waitWord (c : Ctx) : Nat :=
  if c.st = .waiting then
    match c.wait.syn with
    | some (n, t) => nameOf n + 2 ^ 16 + t.toNat * 2 ^ 32
    | none => 0
  else 0

/-- The counter whose register lies at an offset of the KST block. -/
def kstCounter (o : Nat) : Option Counter :=
  if o % 4 ≠ 0 then none
  else if 0x10000 ≤ o && o < 0x14000 then some (.job (Fin.ofNat 4096 ((o - 0x10000) / 4)))
  else if 0x14000 ≤ o && o < 0x14100 then some (.sys (Fin.ofNat 64 ((o - 0x14000) / 4)))
  else if 0x20000 ≤ o && o < 0x30000 then some (.ctx (Fin.ofNat 512 ((o - 0x20000) / 128)) (Fin.ofNat 32 ((o - 0x20000) / 4)))
  else none

/-- KST (R331). -/
def State.kstWord (s : State) (o : Nat) : Nat :=
  match kstCounter o with
  | some c => (s.counter c).toNat
  | none =>
    let k := s.kst
    if o = 0x0 then flag k.active 0 + flag k.quiesce 1 + k.epoch.toNat * 2 ^ 8
    else if o = 0x8 then k.fault.toNat
    else if o = 0x10 then k.sat.toNat
    else if o = 0x18 then k.out % 2 ^ 11 + k.discard.toNat * 2 ^ 16
    else if 0x1000 ≤ o && o < 0x2000 then half (s.ctx ((o - 0x1000) / 8)).waitWord o
    else if 0x14100 ≤ o && o < 0x14300 then flags32 (fun b => Tab.get false k.jsat (8 * (o - 0x14100) + b))
    else if 0x14300 ≤ o && o < 0x14308 then flags32 (fun b => Tab.get false k.syssat (8 * (o - 0x14300) + b))
    else if 0x30000 ≤ o && o < 0x30800 then (s.ctx ((o - 0x30000) / 4)).sticky.toNat
    else 0

/-- MSN (R387). -/
def State.msnWord (s : State) (o : Nat) : Nat :=
  if o = 0x0 then flag s.msn.fw 0 + flag s.msn.job 1 + flag (s.prs.restore != .none) 2
  else if o = 0x8 then s.msn.fault.toNat
  else 0

/-- A mirror slot as PRS_LATEST and PRS_ANCHOR show it. -/
def MirrorSlot.word (q : MirrorSlot) : Nat :=
  (match q.image with | some m => m.step.toNat % 2 ^ 63 | none => 0) + flag q.valid 63

/-- PHASE of PRS_STATUS. -/
def Prs.phase (p : Prs) : Nat :=
  if p.restore ≠ .none then 3 else if p.capture ≠ .none then 1 else if p.staged.isSome then 2 else 0

/-- The complete images of the job, newest first. -/
def Prs.newest (p : Prs) : List Image := (p.images.filter Image.complete).reverse

/-- PRS (R354). -/
def State.prsWord (s : State) (o : Nat) : Nat :=
  let p := s.prs
  if o = 0x0 then p.phase + flag p.replay.isSome 2 + flag s.held 3 + flag p.pendingSnap.isSome 4
  else if o = 0x8 then p.fault.toNat
  else if o / 8 = 2 then half (p.sint + p.mint * 2 ^ 16 + p.bcourse * 2 ^ 24 + flag p.bvalid 26 + p.dchain * 2 ^ 28) o
  else if o / 8 = 3 then half (p.slots.getD p.latest {}).word o
  else if o / 8 = 4 then half (match p.slots.find? MirrorSlot.anchor with | some q => q.word | none => 0) o
  else if o / 8 = 5 then half p.drain.toNat o
  else if o / 8 = 6 then (if p.loaded then half (p.flashFree + p.flashTotal * 2 ^ 32) o else 0)
  else if o / 8 = 7 then half (mibUnits p.stage + (match p.staged with | some m => m.flash | none => 0) * 2 ^ 32) o
  else if 0x40 ≤ o && o < 0x58 then (if p.loaded then half ((p.newest[(o - 0x40) / 8]?).map Image.seq |>.getD 0) o else 0)
  else if 0x60 ≤ o && o < 0x78 then (if p.loaded then half ((p.newest[(o - 0x60) / 8]?).map (fun m => m.step.toNat) |>.getD 0) o else 0)
  else 0

/-- QRY (R372). -/
def State.qryWord (s : State) (o : Nat) : Nat :=
  let q := s.qry
  if o = 0x0 then
    ((List.range 8).map (fun e => flag (Tab.get none q.engines e).isSome e)).foldl (· + ·) 0
      + (q.streams.filter (fun p => p.2.isSome)).length * 2 ^ 8 + q.queue.length * 2 ^ 17
  else if o = 0x8 then q.fault.toNat
  else if o / 8 = 2 then half q.pics.toNat o
  else if o = 0x18 then q.flagged.toNat
  else 0

/-- HIF (R387). -/
def State.hifWord (s : State) (o : Nat) : Nat :=
  let h := s.hif
  let r (b : Nat) : Nat := (o - b) / 8
  let lo : Bool := o % 8 == 0
  if o = 0x0 then h.width + h.speed * 2 ^ 4
  else if o = 0x8 then h.fault.toNat
  else if o = 0x10 then flag h.note 0
  else if 0x100 ≤ o && o < 0x200 then (if lo && r 0x100 ≠ 0 then (s.ring (r 0x100)).base.toNat else 0)
  else if 0x200 ≤ o && o < 0x300 then
    (if lo then s.ringLog2 (r 0x200) + flag (s.ring (r 0x200)).en 5 + flag (s.ring (r 0x200)).drain 6 else 0)
  else if 0x300 ≤ o && o < 0x400 then (if lo then (s.ring (r 0x300)).head.toNat else 0)
  else if 0x400 ≤ o && o < 0x500 then half (s.ring (r 0x400)).cqAddr.toNat o
  else if 0x500 ≤ o && o < 0x600 then (if lo then (s.ring (r 0x500)).cqHead.toNat else 0)
  else if 0x1000 ≤ o && o < 0x1800 then half (Tab.get 0 h.win (r 0x1000)).toNat o
  else if 0x8000 ≤ o && o < 0x8400 then ofBytes ((List.range 4).map (fun j => s.msixByte (o - 0x8000 + j)))
  else if o / 8 = 0x1200 then half ((h.pending.map (fun v => 2 ^ v)).foldl (· + ·) 0) o
  else 0

/-- LDG (R444). LDG_SEQ and LDG_OLDEST read 0 until the flash areas are found (R455). -/
def State.ldgWord (s : State) (o : Nat) : Nat :=
  let l := s.ldg
  if o = 0x0 then
    flag l.ready 0 + flag (65536 ≤ (l.cornerstone.map (fun u => u.recs.length)).foldl (· + ·) 0) 1 + l.staged.length * 2 ^ 2
  else if o = 0x8 then l.fault.toNat
  else if o / 8 = 2 then (if l.ready then half (l.next - 1) o else 0)
  else if o / 8 = 3 then (if l.ready then half ((((l.ring.flatMap FlashUnit.recs).map (fun r => r.seq.toNat)).min?).getD 0) o else 0)
  else if o = 0x20 then l.drop.toNat
  else if o / 8 = 5 then half l.readSel.toNat o
  else if 0x40 ≤ o && o < 0x80 then leAt l.readData (o - 0x40) 4
  else if o / 8 = 16 then half l.traceCfg.toNat o
  else if o / 8 = 17 then half (l.traceNext.toNat + flag l.traceFull 32) o
  else if o = 0x90 then l.traceDrop.toNat
  else if o / 8 = 20 then half l.injCtl.toNat o
  else if o / 8 = 21 then half l.injArg.toNat o
  else 0

/-- SEAL (R405). -/
def State.sealWord (s : State) (o : Nat) : Nat :=
  let q := s.sealBlk
  if o = 0x0 then flag q.booted 0 + q.bank * 2 + flag (q.loaded && q.revoked) 2 + flag q.debug 3 + q.scope.toNat * 2 ^ 8
  else if o = 0x8 then q.fault.toNat
  else if o / 8 = 2 then (if q.loaded then half (((List.range 4).map (fun j => q.svn.getD j 0 * 256 ^ j)).foldl (· + ·) 0) o else 0)
  else if o / 8 = 3 then (if q.loaded then half Config.serial.toNat o else 0)
  else 0

/-- PLN_DUTY shows the lower of the thermal and the power duty (R420). -/
def Pln.dutyOf (p : Pln) (d : Nat) : Nat := min (p.duty.getD d 8) (p.pduty.getD d 8)

/-- PLN (R425). -/
def State.plnWord (s : State) (o : Nat) : Nat :=
  let p := s.pln
  if o = 0x0 then p.stage + flag p.warn 4 + flag p.hold 5 + flag p.lock 6 + min 3 p.recent * 2 ^ 8
  else if o = 0x8 then p.fault.toNat
  else if o = 0x10 then flag p.fail 0 + flag p.trip 1 + flag p.railf 2 + p.vmin.toNat * 2 ^ 16
  else if o = 0x18 then ((List.range 4).map (fun d => p.dutyOf d * 16 ^ d)).foldl (· + ·) 0 + p.memcap.toNat * 2 ^ 16 + flag p.plim 20
  else if o / 8 = 4 then half p.cclk.toNat o
  else if 0x28 ≤ o && o < 0x48 && o % 8 = 0 then (Tab.get 0 p.droop ((o - 0x28) / 8)).toNat
  else 0

/-- GGE (R405). -/
def State.ggeWord (s : State) (o : Nat) : Nat :=
  let g := s.gge
  if o = 0x0 then flag g.calValid 0 + flag g.calRegen 1 + flag (g.alert != 0) 2
  else if o = 0x8 then g.fault.toNat
  else if o = 0x10 then g.alert.toNat
  else if o = 0x18 then g.vin.toNat + g.watts.toNat * 2 ^ 16
  else if 0x100 ≤ o && o < 0x280 then
    let t := Tab.get (0, false) g.temps ((o - 0x100) / 4)
    t.1.toNat + flag t.2 16
  else 0

/-- The 32-bit word at a BAR 0 offset that is a multiple of 4; reserved space and the doorbells read 0 (R446, R448). -/
def State.barWord (s : State) (a : Nat) : Nat :=
  let b := a / 0x10000
  let o := a % 0x10000
  if a = 0 then 0x4B015410
  else if 0x10 ≤ b && b < 0x54 then s.coreWord (b - 0x10) o
  else if b = 0x60 then s.mtrWord o
  else if 0x80 ≤ b && b < 0x88 then s.ftgWord (b - 0x80) o
  else if b = 0xA0 then s.ucfWord o
  else if b = 0xB0 then s.hodWord o
  else if 0xC0 ≤ b && b < 0xD0 then s.lnkWord (b - 0xC0) o
  else if b = 0xD0 then s.arcWord o
  else if 0xE0 ≤ b && b < 0xE4 then s.kstWord (a - 0xE00000)
  else if b = 0x100 then s.msnWord o
  else if b = 0x120 then s.prsWord o
  else if b = 0x130 then s.qryWord o
  else if b = 0x140 then s.hifWord o
  else if b = 0x150 then s.ldgWord o
  else if b = 0x160 then s.sealWord o
  else if b = 0x170 then s.plnWord o
  else if b = 0x180 then s.ggeWord o
  else 0

/-- Whether BAR 0 accepts an access of a size at an address (R449). -/
def barAligned (a size : Nat) : Bool := (size == 4 || size == 8) && a % size == 0 && a + size ≤ 2 ^ 26

/-- A read of BAR 0 (R449): `none` where it is an Unsupported Request. -/
def State.barRead (s : State) (a size : Nat) : Option Nat :=
  if s.pln.stage < 2 || !barAligned a size then none
  else if size = 4 then some (s.barWord a)
  else some (s.barWord a + s.barWord (a + 4) * 2 ^ 32)

/-! ## Writes that have a behaviour of their own -/

/-- HOD_ENTRY_SEL (R285, R453): a snapshot of the entry. -/
def State.writeEntrySel (s : State) (v : Nat) : State :=
  let i := fld v 19 0
  { s with hod := { s.hod with sel := BitVec.ofNat 32 i, entryData := s.entryWords i } }

def execHodEntrySel (v : W32) (s : State) : Host.Outcome State Fault Refusal := .next (s.hostAccess (.hodEntrySel v) (fun s => s.writeEntrySel v.toNat))

/-- The record of a sequence number as 64 bytes, zero where the ledger does not hold it (R434). -/
def State.recordBytes (s : State) (seq : Nat) : List Byte :=
  match s.ldg.all.find? (fun r => r.seq.toNat == seq) with
  | some r => r.bytes
  | none => List.replicate 64 0

/-- LDG_READ_SEL (R434, R453). -/
def State.writeReadSel (s : State) (v : Nat) : State :=
  { s with ldg := { s.ldg with readSel := BitVec.ofNat 64 v, readData := s.recordBytes (v % 2 ^ 64) } }

def execLdgReadSel (v : W64) (s : State) : Host.Outcome State Fault Refusal := .next (s.hostAccess (.ldgReadSel v) (fun s => s.writeReadSel v.toNat))

/-- Whether an unlock with a scope bit holds (R399). -/
def State.unlocked (s : State) (b : Nat) : Bool := s.sealBlk.debug && s.sealBlk.scope.getLsbD b

/-- Whether a source is an instance of the detector of a code (R427, R440, R441). -/
def injSource (code src : Nat) : Bool :=
  let b := src / 1024
  let i := src % 1024
  let slot := 0x200 ≤ i && i < 0x200 + 68
  match code with
  | 0x0101 | 0x0102 | 0x0103 | 0x0506 => b == 0x01 && i < 512
  | 0x0105 | 0x0106 | 0x0107 => b == 0x01 && slot
  | 0x0201 | 0x0202 => b == 0x02 && i < 64
  | 0x0301 => (b == 0x03 && i < 512) || (b == 0x06 && i < 16)
  | 0x0302 | 0x0303 | 0x0306 | 0x0307 => b == 0x03 && i < 512
  | 0x0401 | 0x0402 | 0x0404 => b == 0x04 && i < 64
  | 0x0501 => (b == 0x01 && i < 512) || (b == 0x05 && i == 0) || (b == 0x07 && i < 4) || (b == 0x0A && i < 2) || (b == 0x0B && i < 8) || (b == 0x0C && i == 0x3FF)
  | 0x0504 => b == 0x05 && i == 0
  | 0x0601 | 0x0602 | 0x0603 | 0x0604 | 0x0605 => b == 0x06 && i < 16
  | 0x0702 | 0x0703 | 0x0704 => b == 0x07 && i < 4
  | 0x0705 => b == 0x09 && i == 3
  | 0x0801 => (b == 0x01 && i < 512) || (b == 0x08 && i == 0)
  | 0x0803 => b == 0x09 && i == 2
  | 0x0901 => b == 0x09 && i < 4
  | 0x0A04 => b == 0x0A && i < 2
  | 0x0A01 | 0x0A03 | 0x0A08 | 0x0A09 | 0x0A0A => b == 0x0A && i == 0
  | 0x0B01 | 0x0B02 | 0x0B03 | 0x0B04 | 0x0B05 | 0x0B06 => b == 0x0B && i < 8
  | 0x0C01 => b == 0x0C && i < 32
  | 0x0D01 => b == 0x0D && i == 0
  | 0x0E01 | 0x0E05 => b == 0x0E && i == 0
  | 0x0F01 | 0x0F03 | 0x0F07 => b == 0x0F && i == 4
  | 0x0F05 | 0x0F06 | 0x1002 => b == 0x10 && i < 96
  | 0x0F08 => b == 0x0F && 0x10 ≤ i && i < 0x10 + 15
  | 0x0F09 => b == 0x0F && i == 0
  | 0x1001 => b == 0x10 && i == 0
  | _ => false

/-- LDG_INJ_CTL (R441, R442, R444): ignored without debug unlock with scope bit 2. -/
def State.writeInjCtl (s : State) (v : Nat) : State :=
  if !s.unlocked 2 then s
  else
    let w := v % 2 ^ 42
    let arm := bitOf w 40 && injectable.contains (fld w 15 0) && injSource (fld w 15 0) (fld w 31 16) && fld w 39 32 != 0
    { s with ldg := { s.ldg with
      injCtl := setBit (BitVec.ofNat 64 w) 40 arm
      injLeft := if arm then fld w 39 32 else 0
      injHeld := arm && bitOf w 41 } }

def execInjectionArm (v : W64) (s : State) : Host.Outcome State Fault Refusal := .next (s.hostAccess (.injectionArm v) (fun s => s.writeInjCtl v.toNat))

/-- LDG_INJ_ARG. -/
def State.writeInjArg (s : State) (v : Nat) : State := if s.unlocked 2 then { s with ldg := { s.ldg with injArg := BitVec.ofNat 64 v } } else s

/-- A SET through the debug port (R330, R452): nothing is written without its scope. -/
def State.debugSet (s : State) (c : Counter) (v : W32) : State :=
  if !(s.unlocked 0 && s.unlocked 1) || s.pln.stage < 2 then s
  else
    let old := s.counter c
    let s := { s with kst := { s.kst with fault := setBit s.kst.fault 1 true } }
    let s := s.ev (srcOf 0x08 0) evKstDebugSet (nameOf c) old.toNat (toBytes 4 v.toNat) true
    s.setCounter c v

def execKstDebugSet (c : Counter) (v : W32) (s : State) : Host.Outcome State Fault Refusal := .next (s.debugSet c v)

/-! ## W1C registers (R7, R451) -/

/-- A W1C register after a write; a bit that an event sets in the same clock stays set. -/
def w1cAfter (old : W32) (v events mask : Nat) : W32 := (old &&& ~~~(BitVec.ofNat 32 v)) ||| (BitVec.ofNat 32 (events % 2 ^ mask))

/-- A write to the W1C register at an address, if there is one. -/
def State.w1c (s : State) (a v ev : Nat) : Option State :=
  let b := a / 0x10000
  let o := a % 0x10000
  if 0x10 ≤ b && b < 0x54 && o = 0x10 then some (s.setSlot (b - 0x10) { s.slot (b - 0x10) with fault := w1cAfter (s.slot (b - 0x10)).fault v ev 11 })
  else if b = 0x60 && o = 0x8 then some { s with mtr := { s.mtr with fault := w1cAfter s.mtr.fault v ev 4 } }
  else if 0x80 ≤ b && b < 0x88 && o = 0x8 then some (s.setStack (b - 0x80) { s.stack (b - 0x80) with fault := w1cAfter (s.stack (b - 0x80)).fault v ev 5 })
  else if b = 0xA0 && o = 0x8 then some { s with ucf := { s.ucf with fault := w1cAfter s.ucf.fault v ev 3 } }
  else if b = 0xB0 && o = 0x8 then some { s with hod := { s.hod with fault := w1cAfter s.hod.fault v ev 4 } }
  else if 0xC0 ≤ b && b < 0xD0 && o = 0x8 then some (s.setPort (b - 0xC0) { s.port (b - 0xC0) with fault := w1cAfter (s.port (b - 0xC0)).fault v ev 7 })
  else if b = 0xD0 && o = 0x18 then some { s with arc := { s.arc with fault := w1cAfter s.arc.fault v ev 4 } }
  else if b = 0xE0 && o = 0x8 then some { s with kst := { s.kst with fault := w1cAfter s.kst.fault v ev 3 } }
  else if b = 0x100 && o = 0x8 then some { s with msn := { s.msn with fault := w1cAfter s.msn.fault v ev 1 } }
  else if b = 0x120 && o = 0x8 then some { s with prs := { s.prs with fault := w1cAfter s.prs.fault v ev 7 } }
  else if b = 0x130 && o = 0x8 then some { s with qry := { s.qry with fault := w1cAfter s.qry.fault v ev 6 } }
  else if b = 0x140 && o = 0x8 then some { s with hif := { s.hif with fault := w1cAfter s.hif.fault v ev 3 } }
  else if b = 0x150 && o = 0x8 then some { s with ldg := { s.ldg with fault := w1cAfter s.ldg.fault v ev 3 } }
  else if b = 0x160 && o = 0x8 then some { s with sealBlk := { s.sealBlk with fault := w1cAfter s.sealBlk.fault v ev 3 } }
  else if b = 0x170 && o = 0x8 then some { s with pln := { s.pln with fault := w1cAfter s.pln.fault v ev 6 } }
  else if b = 0x180 && o = 0x8 then some { s with gge := { s.gge with fault := w1cAfter s.gge.fault v ev 2 } }
  else if b = 0x180 && o = 0x10 then some { s with gge := { s.gge with alert := w1cAfter s.gge.alert v ev 3 } }
  else none

/-- Gauge answers from the first step of start-up onward, after a failure of a step too (R400, R424). -/
def State.gaugeUp (s : State) : Bool := s.pln.power

/-- A message that gauge serves unless seal found no bank (R391). -/
def State.serve (s : State) (f : State → State) : State := if s.gaugeUp && !s.sealBlk.bootFail then f s else s

/-- W1C_CLEAR. -/
def State.w1cClear (s : State) (at_ : W1cAt) (v events : W32) : State :=
  match at_ with
  | .bar0 a => s.hostAccess (.w1cClear at_ v events) (fun s => (s.w1c a v.toNat events.toNat).getD s)
  | .pldm => s.serve (fun s => { s with gge := { s.gge with alert := w1cAfter s.gge.alert v.toNat events.toNat 3 } })

def execW1cClear (at_ : W1cAt) (v events : W32) (s : State) : Host.Outcome State Fault Refusal := .next (s.w1cClear at_ v events)

/-! ## Register writes (R447 to R452) -/

/-- Replaces the written halves of a 64-bit value. -/
def mergeHalves (old : Nat) (lo hi : Option Nat) : Nat := lo.getD (old % 2 ^ 32) + hi.getD (old / 2 ^ 32 % 2 ^ 32) * 2 ^ 32

/-- Writes a word of the MSI-X table; clearing a mask bit sends a vector that is pending (R376). DESIGN CHOICE (119): R8 says of the words only 'as PCIe'. Of a Vector
Control word bits [7:0] hold what is written, bits [7:1] of them without effect, and bits [31:8] read 0. -/
def State.writeMsix (s : State) (o v : Nat) : State :=
  let put (s : State) (j : Nat) : State :=
    { s with hif := { s.hif with msix := Tab.set (if (o + j) % 16 = 12 then 1 else 0) s.hif.msix (o + j) (BitVec.ofNat 8 (v / 256 ^ j)) } }
  if o % 16 = 12 then
    let s := put { s with hif := { s.hif with msix := s.hif.msix } } 0
    let n := o / 16
    if !bitOf v 0 && n ∈ s.hif.pending then { s with hif := { s.hif with pending := s.hif.pending.filter (· != n), sent := s.hif.sent ++ [n] } } else s
  else (List.range 4).foldl put s

/-- A write to the HIF block, of the halves of the 8 bytes at offset `o`. -/
def State.writeHif (s : State) (o : Nat) (lo hi : Option Nat) : State :=
  let r (b : Nat) : Nat := (o - b) / 8
  let low (f : Nat → State) : State := match lo with | some v => f v | none => s
  if o = 0x10 then low (fun v => { s with hif := { s.hif with note := bitOf v 0 } })
  else if 0x108 ≤ o && o < 0x200 then low (fun v => s.writeSqBase (r 0x100) v)
  else if 0x200 ≤ o && o < 0x300 then low (fun v => s.writeSqCfg (r 0x200) v)
  else if 0x400 ≤ o && o < 0x500 then s.writeCqAddr (r 0x400) (mergeHalves (s.ring (r 0x400)).cqAddr.toNat lo hi)
  else if 0x500 ≤ o && o < 0x600 then low (fun v => s.writeCqHead (r 0x500) v)
  else if 0x1000 ≤ o && o < 0x1800 then
    let v := mergeHalves (Tab.get 0 s.hif.win (r 0x1000)).toNat lo hi
    { s with hif := { s.hif with win := Tab.set 0 s.hif.win (r 0x1000) (BitVec.ofNat 64 (v % 2 ^ 25 + v / 2 ^ 32 * 2 ^ 32)) } }
  else if 0x8000 ≤ o && o < 0x8400 then
    let s := match lo with | some v => s.writeMsix (o - 0x8000) v | none => s
    match hi with | some v => s.writeMsix (o - 0x8000 + 4) v | none => s
  else s

/-- A write to the LDG block. -/
def State.writeLdg (s : State) (o : Nat) (lo hi : Option Nat) : State :=
  if o = 0x28 then s.writeReadSel (mergeHalves s.ldg.readSel.toNat lo hi)
  else if o = 0x80 then
    let v := mergeHalves s.ldg.traceCfg.toNat lo hi
    { s with ldg := { s.ldg with traceCfg := BitVec.ofNat 64 (v % 2 ^ 26 + v / 2 ^ 32 * 2 ^ 32) } }
  else if o = 0xA0 then s.writeInjCtl (mergeHalves s.ldg.injCtl.toNat lo hi)
  else if o = 0xA8 then s.writeInjArg (mergeHalves s.ldg.injArg.toNat lo hi)
  else s

/-- A write of the RWS bits of PLN_SUPPLY. -/
def State.writeSupply (s : State) (v : Nat) : State :=
  { s with pln := { s.pln with fail := bitOf v 0, trip := bitOf v 1, railf := bitOf v 2 } }

/-- A SET through the debug port of the counters in the written halves. -/
def State.writeKst (s : State) (o : Nat) (lo hi : Option Nat) : State :=
  let put (s : State) (a : Nat) (v : Option Nat) : State := match kstCounter a, v with
    | some c, some x => s.debugSet c (BitVec.ofNat 32 x)
    | _, _ => s
  put (put s o lo) (o + 4) hi

/-- What mason alone writes (R447, R452): the mapping fields of CORE_ID, MTR_CFG, ARC_TOPO, ARC_POS and PRS_CFG, and the counters of KST. -/
def State.masonWrite (s : State) (b o : Nat) (lo hi : Option Nat) : State :=
  if 0x10 ≤ b && b < 0x54 && o = 0 then
    (match lo with
     | some v => s.setSlot (b - 0x10) { s.slot (b - 0x10) with logical := if bitOf v 6 then some (v % 64) else none }
     | none => s)
  else if b = 0x60 && o = 0 then
    (match lo with
     | some v => { s with mtr := { s.mtr with caWays := v % 8 } }
     | none => s)
  else if b = 0xD0 && o = 0x8 then
    let v := mergeHalves s.arc.topo lo hi
    { s with arc := { s.arc with ring := (List.range 4).map (fun c => v / 2 ^ (11 * c) % 2 ^ 11) } }
  else if b = 0xD0 && o = 0x10 then
    let v := mergeHalves s.arc.posWord lo hi
    { s with arc := { s.arc with pos := (List.range 4).map (fun c => v / 2 ^ (16 * c) % 2 ^ 10) } }
  else if b = 0x120 && o = 0x10 then
    (match lo with
     | some v => { s with prs := { s.prs with
         sint := v % 2 ^ 16, mint := v / 2 ^ 16 % 2 ^ 8, bcourse := v / 2 ^ 24 % 4, bvalid := bitOf v 26, dchain := v / 2 ^ 28 % 16 } }
     | none => s)
  else s

/-- Mason's SET of the counters in the written halves (R328). -/
def State.masonSet (s : State) (o : Nat) (lo hi : Option Nat) : State :=
  let put (s : State) (a : Nat) (v : Option Nat) : State := match kstCounter a, v with
    | some c, some x => s.setCounter c (BitVec.ofNat 32 x)
    | _, _ => s
  put (put s o lo) (o + 4) hi

/-- A write of halves of the 8 bytes at an address that is a multiple of 8. Bits that are not RW, RWS or W1C keep their values (R8). -/
def State.barWrite (s : State) (q : Requester) (a : Nat) (lo hi : Option Nat) : State :=
  let b := a / 0x10000
  let o := a % 0x10000
  match lo.bind (fun v => s.w1c a v 0) with
  | some t => t
  | none =>
    if b = 0xB0 && o = 0x28 then { s with hod := { s.hod with limit := BitVec.ofNat 64 (mergeHalves s.hod.limit.toNat lo hi % 2 ^ 48) } }
    else if b = 0xB0 && o = 0x40 then (match lo with | some v => s.writeEntrySel v | none => s)
    else if 0xE0 ≤ b && b < 0xE4 then
      (match q with
       | .debugPort => s.writeKst (a - 0xE00000) lo hi
       | .mason => s.masonSet (a - 0xE00000) lo hi
       | .host => s)
    else if b = 0x140 then s.writeHif o lo hi
    else if b = 0x150 then (if q = .mason && (o = 0xA0 || o = 0xA8) then s else s.writeLdg o lo hi)
    else if b = 0x170 && o = 0x10 then (match lo with | some v => s.writeSupply v | none => s)
    else if 0x200 ≤ b && b < 0x202 && a % 0x1000 = 0 && q = .host then (match lo with | some v => s.doorbell ((a - 0x2000000) / 0x1000) v | none => s)
    else if q = .mason then s.masonWrite b o lo hi
    else s

/-- A write of 4 or 8 bytes. -/
def State.barStore (s : State) (q : Requester) (a size v : Nat) : State :=
  if size = 8 then s.barWrite q a (some (v % 2 ^ 32)) (some (v / 2 ^ 32 % 2 ^ 32))
  else if a % 8 = 0 then s.barWrite q a (some (v % 2 ^ 32)) none
  else s.barWrite q (a - 4) none (some (v % 2 ^ 32))

/-- A register write of the host. -/
def State.hostStore (s : State) (addr size : Nat) (v : W64) : State :=
  if barAligned addr size then s.barStore .host addr size v.toNat else s.answerHost .unsupported

/-- REGISTER_WRITE. The debug port reaches BAR 0 only with scope bit 0 (R452); mason, past start-up step 2. -/
def execRegisterWrite (q : Requester) (addr size : Nat) (v : W64) (s : State) : Host.Outcome State Fault Refusal :=
  .next (match q with
    | .host => s.hostAccess (.registerWrite q addr size v) (fun s => s.hostStore addr size v)
    | .debugPort => if s.unlocked 0 && 2 ≤ s.pln.stage && barAligned addr size then s.barStore .debugPort addr size v.toNat else s
    | .mason => if s.msn.fw && !s.msn.dead && 2 ≤ s.pln.stage && barAligned addr size then s.barStore .mason addr size v.toNat else s)

/-! ## Accesses that waited on the link (R375) -/

/-- Runs an access of the host that waited. -/
def State.hostRun (s : State) : Instr → State
  | .doorbell r v => s.doorbell r v.toNat
  | .ringEnable r v => s.writeSqCfg r v.toNat
  | .ringDisable r v => s.writeSqCfg r v.toNat
  | .cqHeadWrite r v => s.writeCqHead r v.toNat
  | .hodEntrySel v => s.writeEntrySel v.toNat
  | .ldgReadSel v => s.writeReadSel v.toNat
  | .injectionArm v => s.writeInjCtl v.toNat
  | .w1cClear (.bar0 a) v e => (s.w1c a v.toNat e.toNat).getD s
  | .registerWrite _ addr size v => s.hostStore addr size v
  | .bar2Read w off len ds => s.bar2Read w off len ds
  | .bar2Write w off data => s.bar2Write w off data
  | _ => s

/-- The accesses that wait go on in their order, `n` of them at most, as far as the buffer of held writes takes them. -/
def State.hostResume : Nat → State → State
  | 0, s => s
  | n + 1, s =>
    match s.hif.waiting with
    | [] => s
    | i :: rest => if 262144 ≤ s.heldBytes then s else State.hostResume n (({ s with hif := { s.hif with waiting := rest } }).hostRun i)

/-- What goes on by itself at a clock: accesses of the host that a hold let go, messages that waited on a link, a restore that waits for capacity, and staged trace
records. -/
def State.onTick (s : State) : State := State.traceDrain 64 (State.hostResume s.hif.waiting.length s).drainIn.restoreGoOn

end Sys2Proof.Machine
end

