-- ==== Sys2Proof/Machine/Port.lean ====
section
/-! DEFINITION. Link ports: flits, replay, training, sparing and degradation (R287 to R293), and the ring broken by them (R291). -/

namespace Sys2Proof

/-- The 4 bytes of a flit's header (R289). -/
def Flit.header (f : Flit) : List Byte :=
  Machine.toBytes 4 (f.vc.toNat + f.typ.toNat * 4 + f.seq.toNat * 2 ^ 5 + f.ack.toNat * 2 ^ 17 + f.rsv.toNat * 2 ^ 29)

/-- Whether a flit's CRC is that of its header and payload. -/
def Flit.crcOk (f : Flit) : Bool := Machine.crc32 (f.header ++ f.payload) == f.crc.toNat

end Sys2Proof

namespace Sys2Proof.Machine

/-! ## Flits and replay (R289, R290) -/

/-- Whether the fields of a flit are valid (R289). -/
def flitFields (f : Flit) : Bool := f.typ.toNat ≤ 4 && f.rsv == 0

/-- Whether a flit takes a place in its stream: data, message starts and control flits do; idle flits repeat a SEQ, and a NAK names one. -/
def sequenced (f : Flit) : Bool := f.typ == 1 || f.typ == 2 || f.typ == 4

/-- Takes the acknowledgement that a flit carries. -/
def Pair.ack (p : Pair) (a : BitVec 12) : Pair :=
  if (a - p.acked).toNat < (p.next - p.acked).toNat then { p with acked := a + 1, resent := none } else p

/-- The FEC counters of a port after a codeword. -/
def Port.fec (p : Port) (f : Flit) : Port :=
  if !f.fecOk then { p with fecUncorr := satInc p.fecUncorr }
  else if f.fecCorrected then { p with fecCorr := satInc p.fecCorr }
  else p

/-- A flit takes its place in the stream of a pair: the next SEQ is expected, and its payload counts on the port that carried it. -/
def State.takeFlit (s : State) (k port : Nat) (counts : Bool) : State :=
  let p := s.pair k
  let q := s.port port
  (s.setPair k { p with expect := p.expect + 1 }).setPort port (if counts then { q with rx := q.rx + 248 } else q)

/-- Takes the flits that came ahead of their turn, as far as their order is restored (R288). -/
def State.takeEarly (s : State) (k : Nat) : Nat → State
  | 0 => s
  | n + 1 =>
    match (s.pair k).early.find? (fun e => e.1 == (s.pair k).expect) with
    | none => s
    | some e => ((s.setPair k { s.pair k with early := (s.pair k).early.filter (fun d => d.1 != e.1) }).takeFlit k e.2.1 e.2.2).takeEarly k n

/-- FLIT_RECEIVE: an invalid flit is discarded with a NAK, and every later one until the SEQ expected arrives (R290); a good one takes its turn by SEQ, whichever port
carried it (R288). -/
def State.flitReceive (s : State) (port : Nat) (f : Flit) : State :=
  if !(s.port port).inUse then s
  else
    let k := pairOf port
    let (inj, s) := s.injCheck evLnkReplay (srcOf 0x06 port)
    let s := s.setPort port ((s.port port).fec f)
    let p := s.pair k
    if !f.fecOk || !f.crcOk || !flitFields f || inj then s.setPair k { p with nak := true, early := [] }
    else
      let p := p.ack f.ack
      if !sequenced f then (s.setPair k p).pump k
      else if f.seq = p.expect then
        (((s.setPair k { p with nak := false }).takeFlit k port (f.typ != 4)).takeEarly k p.early.length).pump k
      else if p.nak || 2048 ≤ (f.seq - p.expect).toNat || p.early.any (fun e => e.1 == f.seq) then (s.setPair k p).pump k
      else (s.setPair k { p with early := p.early ++ [(f.seq, port, f.typ != 4)] }).pump k

def execFlitReceive (port : Fin 16) (f : Flit) (s : State) : Host.Outcome State Fault Refusal := .next (s.flitReceive port.val f)

/-- A port leaves service to train again. -/
def State.retrain (s : State) (port : Nat) : State :=
  let p := s.port port
  s.setPort port { p with state := 5, fault := setBit p.fault 1 true }

/-- NAK_RECEIVED: the sender resends from the named SEQ, on any port of the pair in use, and the port retrains at the eighth time in succession. DESIGN CHOICE (120):
the flits resent count in LNK_TX_BYTES as those sent first do. -/
def State.nakReceived (s : State) (port : Nat) (seq : BitVec 12) : State :=
  if !(s.port port).inUse then s
  else
    let k := pairOf port
    let q := s.port port
    let p := s.pair k
    let n := match p.resent with
      | some (r, n) => if r = seq then n + 1 else 1
      | none => 1
    let s := s.setPort port { q with replay := satInc q.replay, fault := setBit q.fault 0 true }
    let s := s.ev (srcOf 0x06 port) evLnkReplay port
    let s := s.setPair k { p with acked := seq, resent := if n = 8 then none else some (seq, n) }
    let s := if n = 8 then s.retrain port else s
    let m := (p.next - seq).toNat
    (if m ≤ 2048 && ((s.port (2 * k)).inUse || (s.port (2 * k + 1)).inUse) then s.putFlits k m else s).pump k

def execNakReceived (port : Fin 16) (seq : BitVec 12) (s : State) : Host.Outcome State Fault Refusal := .next (s.nakReceived port.val seq)

/-- LINK_LOSS_OF_LOCK. -/
def execLinkLossOfLock (port : Fin 16) (s : State) : Host.Outcome State Fault Refusal :=
  .next (if (s.port port.val).inUse then s.retrain port.val else s)

/-! ## Training (R291, R292) -/

/-- The port that must face a port (R292). -/
def matching (p : Nat) : Nat := if p % 4 < 2 then p + 2 else p - 2

/-- Whether the job uses a course. -/
def State.courseUsed (s : State) (c : Nat) : Bool := s.msn.job && 1 < s.arc.n c

/-- Whether a pair has no port left: both are down or out. -/
def State.pairBroken (s : State) (k : Nat) : Bool :=
  let gone (p : Port) : Bool := p.state == 0 || p.state == 4
  gone (s.port (2 * k)) && gone (s.port (2 * k + 1))

/-- Records COURSE_BROKEN when the pair of a port has just been lost to a job that uses its course. -/
def State.courseCheck (s : State) (port : Nat) (was inj : Bool) : State :=
  let c := port / 4
  if !was && s.pairBroken (pairOf port) && s.courseUsed c then
    ({ s with arc := { s.arc with fault := setBit s.arc.fault 2 true } }).ev (srcOf 0x07 c) evCourseBroken c 0 [] inj
  else s

/-- After a training, the slots of buttress that another module held at the following neighbour's place are no longer there (R352), nor
is a boundary pending in one of them (R342). -/
def State.lostSlots (s : State) (port : Nat) : State :=
  let p := s.port port
  if p.inUse && pairOf port == 2 * s.prs.bcourse then
    let gone (q : MirrorSlot) : Bool := q.image.isSome && q.host != p.serial
    { s with prs := { s.prs with
      slots := s.prs.slots.map (fun q => if gone q then {} else q)
      pendingSnap := if s.prs.slots.any (fun q => !q.anchor && gone q) then none else s.prs.pendingSnap } }
  else s

/-- The outcome of a training of a port, with the injections of R440. The lanes are settled first; then a partner that is not the matching port takes the port out
(R292). -/
def State.trained (s : State) (port : Nat) (r : Training) : State :=
  let src := srcOf 0x06 port
  let was := s.pairBroken (pairOf port)
  let arg := s.ldg.injArg.toNat
  let (i1, s) := s.injCheck evLnkNopeer src
  let (i2, s) := s.injCheck evLaneSpared src
  let (i3, s) := s.injCheck evPortDegraded src (fun a => 2 ≤ a && a ≤ 5)
  let (i4, s) := s.injCheck evLnkPortOut src (fun a => 6 ≤ a && a ≤ 9)
  let (i5, s) := s.injCheck evLnkMiscabled src
  let inj := i1 || i2 || i3 || i4 || i5
  let failed : BitVec 9 :=
    if i3 || i4 then BitVec.ofNat 9 (2 ^ arg - 1) else if i2 then r.failed ||| BitVec.ofNat 9 (2 ^ (arg % 9)) else r.failed
  let pport := if i5 then arg % 16 else r.pport.val
  let p := { s.port port with spare := false, spared := 0xF, width := 0 }
  let put (s : State) (q : Port) (bit : Nat) (code w44 : Nat) (inj : Bool) : State :=
    (s.setPort port { q with fault := setBit q.fault bit true }).ev src code port w44 [] inj
  let lane := i2 || i3 || i4
  let s :=
    if !r.partner || i1 then put s { p with state := 0, failed := 0 } 6 evLnkNopeer 0 i1
    else
      let n := popCount 9 failed.toNat
      let p := { p with failed := failed, pgen := r.pgen, pfeat := r.pfeat, pport := pport, serial := r.serial }
      if 6 ≤ n then put s { p with state := 4 } 4 evLnkPortOut n lane
      else
        let s :=
          if 2 ≤ n then put s { p with state := 3, width := 4 } 3 evPortDegraded n lane
          else if n = 1 then
            let l := (setBits 9 failed.toNat).headD 0
            put s { p with state := 2, width := 8, spare := l != 8, spared := if l = 8 then 0xF else l } 2 evLaneSpared l lane
          else s.setPort port { p with state := 2, width := 8 }
        if pport ≠ matching port then put s { s.port port with state := 4, width := 0 } 5 evLnkMiscabled pport i5 else s
  ((s.courseCheck port was inj).lostSlots port).pump (pairOf port)

/-- LINK_RETRAIN_DONE. -/
def execLinkRetrainDone (port : Fin 16) (r : Training) (s : State) : Host.Outcome State Fault Refusal :=
  .next (if (s.port port.val).state = 5 then s.trained port.val r else s)

end Sys2Proof.Machine
end

