-- ==== Sys2Proof/Machine/Slh.lean ====
section
/-! DEFINITION. The verification of an SLH-DSA-SHA2-128s signature (FIPS 205; R25, R389, R390, R398): hashes of 16 bytes, 14 trees of height 12 over the message
digest, and 7 layers of trees of height 9 over one-time keys of 35 chains. -/

namespace Sys2Proof.Machine

/-- Where a hash stands: layer, tree, type, and the three words that the type uses. -/
structure SlhPlace where
  layer : Nat := 0
  tree : Nat := 0
  typ : Nat := 0
  a : Nat := 0
  b : Nat := 0
  c : Nat := 0
  deriving DecidableEq, Repr

/-- A number as `n` bytes, most significant first. -/
def bigBytes (n v : Nat) : List Byte := (toBytes n v).reverse

/-- The hash of all parts: the first 16 bytes of SHA-256 over the seed filled up to a block, the 22-byte place and the message. -/
def slhHash (seed : List Byte) (p : SlhPlace) (m : List Byte) : List Byte :=
  (sha256 (seed ++ List.replicate 48 0 ++ bigBytes 1 p.layer ++ bigBytes 8 p.tree ++ bigBytes 1 p.typ ++ bigBytes 4 p.a ++ bigBytes 4 p.b ++ bigBytes 4 p.c ++ m)).take 16

/-- The first `n` digits of `w` bits of a byte string. -/
def slhDigits (w n : Nat) (x : List Byte) : List Nat :=
  (List.range n).map (fun j => ofBytes x.reverse / 2 ^ (8 * x.length - w * (j + 1)) % 2 ^ w)

/-- The 16-byte parts of a stretch of a signature. -/
def slhParts (sig : List Byte) (first n : Nat) : List (List Byte) := (List.range n).map (fun j => (sig.drop (16 * (first + j))).take 16)

/-- From the node of index `t` at height `j`, up a path of siblings. -/
def slhClimb (seed : List Byte) (p : SlhPlace) (t j : Nat) (node : List Byte) : List (List Byte) → List Byte
  | [] => node
  | v :: r =>
    slhClimb seed p t (j + 1) (slhHash seed { p with b := j + 1, c := t / 2 ^ (j + 1) } (if t / 2 ^ j % 2 = 0 then node ++ v else v ++ node)) r

/-- The rest of a chain of 15 hashes, from step `i`. -/
def slhChain (seed : List Byte) (p : SlhPlace) (i : Nat) (x : List Byte) : List Byte :=
  (List.range (15 - i)).foldl (fun x j => slhHash seed { p with c := i + j } x) x

/-- The public half of the one-time key of leaf `leaf` that a signature of 35 parts gives for a 16-byte message. -/
def slhOneTime (seed : List Byte) (p : SlhPlace) (leaf : Nat) (parts : List (List Byte)) (m : List Byte) : List Byte :=
  let d := slhDigits 4 32 m
  let sum := (d.map (15 - ·)).foldl (· + ·) 0
  let ends := (d ++ slhDigits 4 3 (bigBytes 2 (16 * sum))).zip parts
  slhHash seed { p with typ := 1, a := leaf } (ends.zipIdx.flatMap (fun e => slhChain seed { p with a := leaf, b := e.2 } e.1.1 e.1.2))

/-- The root of a layer's tree, from the signature of its leaf on a node below. -/
def slhLayer (seed sig : List Byte) (first : Nat) (p : SlhPlace) (leaf : Nat) (node : List Byte) : List Byte :=
  slhClimb seed { p with typ := 2 } leaf 0 (slhOneTime seed p leaf (slhParts sig first 35) node) (slhParts sig (first + 35) 9)

/-- What the 14 trees over the message digest give. -/
def slhTrees (seed sig md : List Byte) (p : SlhPlace) : List Byte :=
  slhHash seed { p with typ := 4 } (((slhDigits 12 14 md).zipIdx).flatMap (fun e =>
    let t := 4096 * e.2 + e.1
    let q := slhParts sig (1 + 13 * e.2) 13
    slhClimb seed { p with typ := 3 } t 0 (slhHash seed { p with typ := 3, c := t } (q.headD [])) q.tail))

/-- Whether a signature of a message verifies under a public key, seed and root. DESIGN CHOICE (122): the message is signed in the pure form with an empty context string,
which puts two zero bytes before it; the spec names no context. -/
def slhVerify (pk msg sig : List Byte) : Bool :=
  let seed := pk.take 16
  let root := pk.drop 16
  let r := sig.take 16
  let digest := (sha256 (r ++ seed ++ sha256 (r ++ seed ++ root ++ [0, 0] ++ msg) ++ bigBytes 4 0)).take 30
  let tree := ofBytes ((digest.drop 21).take 7).reverse % 2 ^ 54
  let leaf := ofBytes (digest.drop 28).reverse % 2 ^ 9
  let node := slhTrees seed sig (digest.take 21) { tree := tree, a := leaf }
  let top := (List.range 7).foldl (fun node j =>
    slhLayer seed sig (183 + 44 * j) { layer := j, tree := tree / 2 ^ (9 * j) } (if j = 0 then leaf else tree / 2 ^ (9 * (j - 1)) % 2 ^ 9) node) node
  pk.length == 32 && sig.length == 7856 && top == root

end Sys2Proof.Machine
end

