-- ==== Sys2Proof/Machine/Boot.lean ====
section
/-! DEFINITION. Power and start-up (R388 to R393, R403, R406 to R424): resets, the start-up steps 0 to 8, and the supply. `Pln.stage` is the last step
whose event has come. -/

namespace Sys2Proof.Machine

/-! ## Resets (R454) -/

/-- What a module reset leaves of the ledger: staging, flash, the sequence number, and a point held across one reset (R431, R434, R442). -/
def Ldg.reset (l : Ldg) : Ldg :=
  let held := l.injHeld && bitOf l.injCtl.toNat 40
  { next := l.next, power := l.power, staged := l.staged, cornerstone := l.cornerstone, ring := l.ring, tail := l.tail, ringUnit := l.ringUnit
    tailUnit := l.tailUnit, programs := l.programs, dropC := l.dropC, dropP := l.dropP, dropN := l.dropN, dropFirst := l.dropFirst, dropInj := l.dropInj
    injCtl := if held then setBit l.injCtl 41 false else 0, injArg := if held then l.injArg else 0, injLeft := if held then l.injLeft else 0 }

/-- An image that only an injected flash error made unusable is usable again at the next reset (R443). -/
def Image.sound (m : Image) : Image := if m.flashInj then { m with usable := true, flashInj := false } else m

/-- A module reset: every register but the RWS fields and VMIN has its reset value; fuses, flash and the ledger stay. -/
def State.moduleReset (s : State) : State :=
  { pending := s.pending, free := s.free, nextOp := s.nextOp, hostMem := s.hostMem
    ftgStacks := (s.ftgStacks.map (fun (p : Nat × Stack) => (p.1, ({ laneErr := p.2.laneErr } : Stack)))).filter (fun p => p.2 != {})
    ftg := { repairs := s.ftg.repairs, copyA := s.ftg.copyA.map (fun p => (p.1 - s.pln.cclk.toNat, p.2))
             copyB := s.ftg.copyB.map (fun p => (p.1 - s.pln.cclk.toNat, p.2)) }
    prs := { images := s.prs.images.map Image.sound, flashFree := s.prs.flashFree, flashTotal := s.prs.flashTotal }
    sealBlk := { active := s.sealBlk.active, revoked := s.sealBlk.revoked, svn := s.sealBlk.svn, nonces := s.sealBlk.nonces, boot := s.sealBlk.boot
                 updated := s.sealBlk.updated, verified := s.sealBlk.verified }
    gge := { slots := s.gge.slots }
    pln := { power := s.pln.power, fail := s.pln.fail, trip := s.pln.trip, railf := s.pln.railf, failInj := s.pln.failInj, vmin := s.pln.vmin
             noJobPower := s.pln.noJobPower, noJob := s.pln.noJobPower, off := s.pln.off }
    ldg := s.ldg.reset }

/-- A flash page of an image that a drain had not finished does not count as used (R345). -/
def State.dropDrain (s : State) : State :=
  match s.prs.staged with
  | some m => { s with prs := { s.prs with flashFree := s.prs.flashFree + (if s.prs.drain = 0 then 0 else m.flash), staged := none, drain := 0 } }
  | none => s

/-- The restart that follows SUPPLY_FAIL, PLN_PLL_UNLOCK and any other cause. -/
def State.restart (s : State) : State := s.dropDrain.moduleReset

/-- The repair records at the loss of power: one made in the last 10 ms, which is 21,000,000 CCLK at 2.1 GHz, may not have reached flash (R260, R261); a free value says
how many of those did. What flash holds is read at the next start. -/
def State.losePower (s : State) : State :=
  let old := s.ftg.copyA.filter (fun p => p.1 + 21000000 ≤ (s.pln.cclk.toNat : Int))
  let (k, s) := s.fresh
  let n := old.length + Config.choose k % (s.ftg.copyA.length - old.length + 1)
  let a := s.ftg.copyA.take n
  let b := s.ftg.copyB.take n
  { s with ftg := { s.ftg with copyA := a, copyB := b, repairs := readRepairs a b } }

/-- The always-on island is lost: the next start is a power-on, and PLN_SUPPLY, staging and a held injection point are gone (R406, R442). -/
def State.powerOff (s : State) : State :=
  let t := s.losePower.restart
  { t with
    pln := {}
    ldg := { (t.ldg) with next := 0, staged := [], programs := [], injCtl := 0, injArg := 0, injLeft := 0, injHeld := false, dropC := 0, dropP := 0, dropN := 0
                          dropFirst := none, dropInj := false } }

/-! ## Step 0: power (R422, R426, R433, R403) -/

/-- The greatest sequence number in flash and staging, plus one. -/
def Ldg.nextSeq (l : Ldg) : Nat := ((l.all.map (fun r => r.seq.toNat + 1)).foldl max 0)

/-- The units of an area without those that fail their flash ECC. -/
def readable (bad : List (Area × Nat)) (l : List FlashUnit) : List FlashUnit := l.filter (fun u => !bad.contains (u.area, u.unit))

/-- The ledger engine starts: units that fail their flash ECC are ignored, what is left in staging is written as it would have been, and records of
the tail above the ring's newest are written to the ring, and to the cornerstone in its range (R432). -/
def Ldg.start (l : Ldg) (unreadable : List (Area × Nat)) : Ldg :=
  let l := { l with ring := readable unreadable l.ring, cornerstone := readable unreadable l.cornerstone, tail := readable unreadable l.tail }
  let newest := ((l.ring.flatMap FlashUnit.recs).map (fun r => r.seq.toNat + 1)).foldl max 0
  let lost := ((l.tail.flatMap FlashUnit.recs).filter (fun r => newest ≤ r.seq.toNat && !(l.staged.any (fun q => q.rcd.seq == r.seq)))).eraseDups
  let us := units64 lost.length lost
  let l := { l.flushTail with next := max l.next l.nextSeq }
  { l with
    programs := l.programs ++ us.zipIdx.flatMap (fun p => unitPrograms (l.ringUnit + p.2) p.1)
    ringUnit := l.ringUnit + us.length
    ready := true }

/-- The two stored calibration slots, the newest that passes first; both as manufacture left them until one fails or is written (R467). -/
def Gge.calSlots (g : Gge) : CalSlot × CalSlot :=
  g.slots.getD ({ seq := 1, good := true, cal := Config.factoryCalibration }, { seq := 0, good := true, cal := Config.factoryCalibration })

/-- The slots after gauge has checked their CRCs: one that fails never passes again, and the other is then the newest. -/
def Gge.checked (g : Gge) (c : CalCheck) : Gge :=
  if c.newest && c.older then g
  else
    let (a, b) := g.calSlots
    let a := { a with good := a.good && c.newest }
    let b := { b with good := b.good && c.older }
    { g with slots := some (if !a.good && b.good then (b, a) else (a, b)) }

/-- The set of the newest slot that passes. -/
def Gge.read (g : Gge) : Option Calibration :=
  let (a, b) := g.calSlots
  if a.good then some a.cal else if b.good then some b.cal else none

/-- Gauge reads the calibration set (R403). An injected failure leaves the slots as they are (R443). -/
def State.readCalibration (s : State) (c : CalCheck) : State :=
  let s := { s with gge := s.gge.checked c }
  let (inj, s) := s.injCheck evGgeCalInvalid (srcOf 0x10 0)
  match (if inj then none else s.gge.read) with
  | some c =>
    { s with gge := { s.gge with calValid := true, inUse := c, calRegen := c.presets.isNone || c.memory.isNone || c.voltage.isNone } }
  | none =>
    let s := { s with
      gge := { s.gge with calValid := false, inUse := ⟨none, none, none, none⟩, calRegen := true, calInj := inj, fault := setBit s.gge.fault 0 true } }
    s.ev (srcOf 0x10 0) evGgeCalInvalid 0 0 [] inj

/-- A copy of the repair records without the contents of those whose CRC fails. -/
def spoil (bad : List Nat) (l : List (Int × List Byte)) : List (Int × List Byte) :=
  l.zipIdx.map (fun p => if p.2 ∈ bad then (p.1.1, []) else p.1)

/-- What flash holds of the repair records at a start (R260). -/
def Ftg.reread (f : Ftg) (c : FlashCheck) : Ftg :=
  let a := spoil c.repairA f.copyA
  let b := spoil c.repairB f.copyB
  { f with copyA := a, copyB := b, repairs := readRepairs a b }

/-- Step 0 begins with the hub rails up (R422, R433): the ledger engine starts, the repair records are read, and at a power-on the power-cycle count advances. -/
def State.hubUp (s : State) (c : FlashCheck) : State :=
  { s with
    pln := { s.pln with power := true }
    ftg := s.ftg.reread c
    ldg := { s.ldg.start c.ledger with power := if s.pln.power then s.ldg.power else s.ldg.power + 1 } }

/-- POWER_ON. -/
def execPowerOn (calibration : CalCheck) (unreadable : FlashCheck) (s : State) : Host.Outcome State Fault Refusal :=
  .next (if s.pln.lock || s.pln.off then s
    else
      let s := s.hubUp unreadable
      ({ s with pln := { s.pln with lock := true, stage := 0 } }).readCalibration calibration)

/-! ## Step 1: seal boot (R389 to R391) -/

/-- The image of a bank and type. -/
def Seal.image (q : Seal) (bank typ : Nat) : List Byte := (Tab.get none q.boot (8 * bank + typ)).getD (Config.factoryImage typ)

/-- The payload of an image. -/
def imgPayload (d : List Byte) : List Byte := (d.drop 8192).take (leAt d 16 8)

/-- Whether a public key is the root of a key slot: the primary one not once it is revoked (R390). -/
def Seal.keyOk (q : Seal) (slot : Nat) (pk : List Byte) : Bool :=
  (slot == 0 && !q.revoked && sha256 pk == (toBytes 32 Config.root0.toNat)) || (slot == 1 && sha256 pk == (toBytes 32 Config.root1.toNat))

/-- Check 1 of R390 on a header that must be of type `typ`. -/
def imgHeaderOk (d : List Byte) (typ : Nat) : Bool :=
  leAt d 0 4 == 0x474D4946 && leAt d 4 2 == 1 && leAt d 6 1 == typ && leAt d 8 1 ≤ 64 && leAt d 9 1 < 2 && leAt d 10 1 == 1 && leAt d 11 1 == 0x54
    && (if typ = 5 then leAt d 16 8 == 0 else 1 ≤ leAt d 16 8 && leAt d 16 8 ≤ 2 ^ 24) && leAt d 88 168 == 0

/-- The first check of R390 that an image fails. A REVOKE image must be signed under slot 1 (R393). -/
def Seal.check (q : Seal) (d : List Byte) (typ : Nat) : Option Nat :=
  let pk := (d.drop 56).take 32
  if !imgHeaderOk d typ then some 1
  else if !q.keyOk (leAt d 7 1) pk || (typ = 5 && leAt d 7 1 = 0) then some 2
  else if !slhVerify pk (d.take 256) ((d.drop 256).take 7856) then some 3
  else if sha256 (imgPayload d) != (d.drop 24).take 32 then some 4
  else if typ ≤ 4 && leAt d 8 1 < q.svn.getD (typ - 1) 0 then some 5
  else none

/-- The verification of an image, with an injected failure. -/
def State.checkImage (s : State) (bank typ : Nat) : Option (Nat × Bool) :=
  let a := s.ldg.injArg.toNat
  if s.injArmed evSealImgReject (srcOf 0x0E 0) (fun a => fld a 6 4 == typ && (bitOf a 7 || bank == s.sealBlk.active)) then some (fld a 2 0, true)
  else (s.sealBlk.check (s.sealBlk.image bank typ) typ).map (fun n => (n, false))

/-- Verifies a bank in ascending type, up to the first image that is rejected. -/
def State.checkBank (s : State) (bank : Nat) : Bool × State :=
  match ([1, 2, 3, 4].findSome? (fun t => (s.checkImage bank t).map (fun r => (t, r)))) with
  | none => (true, s)
  | some (t, n, inj) =>
    let s := if inj then s.injReport else s
    let s := { s with sealBlk := { s.sealBlk with fault := setBit s.sealBlk.fault 0 true, injected := s.sealBlk.injected || inj } }
    (false, s.ev (srcOf 0x0E 0) evSealImgReject t bank (toBytes 1 n) inj)

/-- Seal releases mason on a bank. -/
def State.bootOn (s : State) (bank : Nat) : State :=
  { s with sealBlk := { s.sealBlk with booted := true, bank := bank }, msn := { s.msn with fw := true } }

/-- SEAL_BOOT. -/
def State.boot (s : State) : State :=
  let s := { s with pln := { s.pln with stage := 1 }, sealBlk := { s.sealBlk with loaded := true } }
  let a := s.sealBlk.active
  let (ok, s) := s.checkBank a
  if ok then s.bootOn a
  else
    let (ok, s) := s.checkBank (1 - a)
    let inj := s.sealBlk.injected
    let s := ({ s with sealBlk := { s.sealBlk with fault := setBit s.sealBlk.fault 1 true } }).ev (srcOf 0x0E 0) evSealBankFallback (1 - a) 0 [] inj
    if ok then s.bootOn (1 - a)
    else ({ s with sealBlk := { s.sealBlk with bootFail := true } }).ev (srcOf 0x0E 0) evSealBootFail 0 0 [] inj

/-- Whether the start-up step of number `n` can end: the one before it has ended, and no warning holds it (R422, R424). After a thermal trip the rails of step 3
come up only at the next power-on (R414, R421). -/
def State.stepDue (s : State) (n : Nat) : Bool :=
  s.pln.lock && s.pln.stage + 1 == n && !s.pln.warn && !s.warned && !(s.pln.noJobPower && decide (3 ≤ n))

def execSealBoot (s : State) : Host.Outcome State Fault Refusal := .next (if s.stepDue 1 && !s.sealBlk.loaded then s.boot else s)

/-! ## Steps 2 and 3 -/

/-- MASON_START; mason records the SUPPLY_FAIL that reset the module, with the step of the ledger's last record and the lowest voltage (R411). -/
def State.masonStart (s : State) : State :=
  let s := { s with pln := { s.pln with stage := 2 } }
  if s.pln.fail then
    let last := (s.ldg.newest (fun _ => true)).map (fun r => r.step.toNat)
    let t := s.ev (srcOf 0x0F 4) evSupplyFail (last.getD (2 ^ 64 - 1)) s.pln.vmin.toNat [] s.pln.failInj
    { t with
      gge := { t.gge with alert := setBit t.gge.alert 2 true }
      pln := { t.pln with fail := false, failInj := false, stopped := s.pln.stopped, noJob := s.pln.noJob } }
  else s

def execMasonStart (s : State) : Host.Outcome State Fault Refusal := .next (if s.stepDue 2 && s.sealBlk.booted then s.masonStart else s)

/-- COMPUTE_RAIL_UP; a slot that fails its test is marked (R111). -/
def execComputeRailUp (failed : List (Fin 68)) (s : State) : Host.Outcome State Fault Refusal :=
  .next (if s.stepDue 3 then
      failed.foldl (fun s p => if (s.slot p.val).failed then s else s.markFailed p.val s.ldg.next false) { s with pln := { s.pln with stage := 3, groups := 0 } }
    else s)

/-- A context whose release waited for its group goes on (R409). -/
def State.unhold (s : State) (x : Nat) : State :=
  match (s.ctx x).st, (s.ctx x).wait with
  | .waiting, .released true _ _ => s.endHeld x
  | .waiting, .released false adv _ =>
    s.leave x { s.ctx x with pc := (s.ctx x).pc + BitVec.ofNat 64 adv, st := .ready, wait := .none }
  | _, _ => s.select (coreOf x)

/-- Core group `g` goes on with what waits on it (R414). -/
def State.resumeGroup (s : State) (g : Nat) : State :=
  ((s.ctxKeys.filter (fun x => x / 64 == g)).foldl State.unhold s).settleRecomputes

/-- CORE_GROUP_ENABLE: the next group, at start-up step 3 or at the end of a warning. -/
def execCoreGroupEnable (s : State) : Host.Outcome State Fault Refusal :=
  .next (if s.pln.stage < 3 || 8 ≤ s.pln.groups || s.warned || s.pln.stopped && s.pln.stage == 8 then s
    else
      let g := s.pln.groups
      let s := { s with pln := { s.pln with groups := g + 1, hold := s.pln.hold && g + 1 < 8, resuming := s.pln.resuming && g + 1 < 8 } }
      let t := s.resumeGroup g
      if g + 1 < 8 then t else t.resettle)

/-! ## Step 4: memory training (R247, R278) -/

/-- The instance of a block that the armed point of a code names. -/
def State.injInstance (s : State) (code block : Nat) : Option Nat :=
  let src := fld s.ldg.injCtl.toNat 31 16
  if src / 1024 = block && s.injArmed code src then some (src % 1024) else none

/-- Spares a lane of a pseudo-channel: the lowest free spare lane, none where no sound one is left. Where the lane is itself a spare lane in use, the lane that it
replaces moves to the other spare. DESIGN CHOICE (116): a spare lane that fails is out of use, and its field names the lane itself. -/
def Stack.spareLane (k : Stack) (pch lane : Nat) : Option (Stack × Nat) :=
  let a := Tab.get 0 k.laneA pch
  let b := Tab.get 0 k.laneB pch
  let put (x y sp : Nat) : Option (Stack × Nat) := some ({ k with laneA := Tab.set 0 k.laneA pch x, laneB := Tab.set 0 k.laneB pch y }, sp)
  if lane = 36 then (if a = 0 then put 37 b 36 else if b = 0 then put 37 a 37 else none)
  else if lane = 37 then (if b = 0 then put a 38 37 else if a = 0 then put b 38 36 else none)
  else if a = 0 then put (lane + 1) b 36
  else if b = 0 then put a (lane + 1) 37
  else none

/-- Whether a lane has been spared. -/
def Stack.spared (k : Stack) (pch lane : Nat) : Bool := Tab.get 0 k.laneA pch == lane + 1 || Tab.get 0 k.laneB pch == lane + 1

/-- A stack fails to train. -/
def State.trainFail (s : State) (i pch : Nat) (inj : Bool) : State :=
  (s.setStack i { s.stack i with train := 2 }).ev (srcOf 0x03 (64 * i + pch)) evFtgTrainFail i 0 [] inj

/-- A lane that fails training is spared, with its record in the ledger and in flash. -/
def State.laneFails (s : State) (i pch lane : Nat) (inj : Bool) : State :=
  let k := s.stack i
  if k.train = 2 || k.spared pch lane then s
  else
    match k.spareLane pch lane with
    | none => s.trainFail i pch inj
    | some (k, sp) =>
      let seq := s.ldg.next
      let s := (s.setStack i k).ev (srcOf 0x03 (64 * i + pch)) evLaneSpared 0 0 (toBytes 1 i ++ toBytes 1 pch ++ toBytes 1 lane ++ toBytes 1 sp) inj
      if inj then s
      else s.record { typ := 1, row := some ⟨Fin.ofNat 8 i, Fin.ofNat 64 pch, 0, 0⟩, spare := lane, lane := sp, seq := seq }

/-- The lanes that records have spared are spared again. -/
def State.replayLanes (s : State) : State :=
  s.ftg.repairs.foldl (fun (s : State) (r : Repair) =>
    match r.typ, r.row with
    | 1, some w =>
      let k := s.stack w.stack.val
      if k.spared w.pch.val r.spare then s
      else
        match k.spareLane w.pch.val r.spare with
        | some (k, _) => s.setStack w.stack.val k
        | none => s
    | _, _ => s) s

/-- The lanes that 16 corrected errors of the last start spare (R248). -/
def State.wornLanes (s : State) : List (Nat × Nat × Nat) :=
  (List.range 8).flatMap (fun i => ((s.stack i).laneErr.filter (fun p => 16 ≤ p.2)).map (fun p => (i, p.1 / 38, p.1 % 38)))

/-- Footing training. -/
def State.trainFooting (s : State) (lanes : List LaneFail) (failedStacks : List (Fin 8)) : State :=
  let worn := s.wornLanes
  let s := (List.range 8).foldl (fun s i => s.setStack i { s.stack i with train := 0, laneErr := [] }) s.replayLanes
  let s := worn.foldl (fun s l => s.laneFails l.1 l.2.1 l.2.2 false) s
  let s := match s.injInstance evLaneSpared 0x03 with
    | some n => s.injReport.laneFails (n / 64) (n % 64) (s.ldg.injArg.toNat % 38) true
    | none => s
  let s := lanes.foldl (fun s l => if l.cmd then s.trainFail l.stack.val l.pch.val false else s.laneFails l.stack.val l.pch.val l.lane.val false) s
  let s := match s.injInstance evFtgTrainFail 0x03 with
    | some n => s.injReport.trainFail (n / 64) (n % 64) true
    | none => s
  let s := failedStacks.foldl (fun s i => s.trainFail i.val 0 false) s
  (List.range 8).foldl (fun s i => if (s.stack i).train = 2 then s else s.setStack i { s.stack i with train := 1 }) s

/-- FOOTING_TRAINING. -/
def execFootingTraining (lanes : List LaneFail) (failedStacks : List (Fin 8)) (s : State) : Host.Outcome State Fault Refusal :=
  .next (if s.stepDue 4 && s.pln.groups == 8 then ({ s with pln := { s.pln with stage := 4 } }).trainFooting lanes failedStacks else s)

/-- A channel of the undercroft fails to train. -/
def State.ucfTrainFail (s : State) (channel : Nat) (inj : Bool) : State :=
  ({ s with ucf := { s.ucf with train := 2 } }).ev (srcOf 0x04 channel) evUcfTrainFail 0 0 [] inj

/-- Undercroft training; the pattern test then goes on in the background. -/
def State.trainUndercroft (s : State) (failed : Option (Fin 64)) : State :=
  match s.injInstance evUcfTrainFail 0x04, failed with
  | some n, some c => (s.injReport.ucfTrainFail n true).ucfTrainFail c.val false
  | some n, none => s.injReport.ucfTrainFail n true
  | none, some c => s.ucfTrainFail c.val false
  | none, none => { s with ucf := { s.ucf with train := 1, test := true } }

/-- UNDERCROFT_TRAINING, in step 4. -/
def execUndercroftTraining (failed : Option (Fin 64)) (s : State) : Host.Outcome State Fault Refusal :=
  .next (if s.ucf.train ≠ 0 || !s.pln.lock || s.pln.warn || s.warned || s.pln.stage < 3 || s.pln.groups < 8 then s else s.trainUndercroft failed)

/-- PATTERN_TEST_DONE: regions that fail are quarantined (R280). -/
def execPatternTestDone (regions : List (Fin 524288 × Fin 64)) (s : State) : Host.Outcome State Fault Refusal :=
  .next (if s.ucf.test then 
      let t := regions.foldl (fun s g => s.quarantine (srcOf 0x04 g.2.val) g.1.val false) { s with ucf := { s.ucf with test := false } }
      t.settle ((t.ops.filter (fun o => s.nextOp ≤ o.id)).map Op.id)
    else s)

/-! ## Step 5: repair replay and the maintenance window (R260, R261) -/

/-- Whether every stack has trained, and the undercroft. -/
def State.memoryTrained (s : State) : Bool := (List.range 8).all (fun i => (s.stack i).train == 1) && s.ucf.train == 1

/-- Loads the repair records: spare rows used, hard repairs, retired regions and failed slots. -/
def State.loadRepairs (s : State) : State :=
  let s := { s with ftg := { s.ftg with loaded := true, retired := ((s.ftg.repairs.filter (fun (r : Repair) => r.typ == 4)).map Repair.region).eraseDups } }
  s.ftg.repairs.foldl (fun (s : State) (r : Repair) =>
    match r.typ, r.row with
    | 2, some w =>
      let k := s.stack w.stack.val
      if 4 ≤ r.spare then s
      else s.setStack w.stack.val { k with spares := Tab.set 0 k.spares w.bankKey (max (r.spare + 1) (Tab.get 0 k.spares w.bankKey)) }
    | 3, some w => s.setStack w.stack.val { s.stack w.stack.val with hard := (s.stack w.stack.val).hard + 1 }
    | 5, _ => s.setSlot r.slot { s.slot r.slot with failed := true }
    | _, _ => s) s

/-- Makes one soft repair hard: the same spare row, unless its region is retired. -/
def State.harden (s : State) (r : Repair) : State :=
  match r.typ, r.row with
  | 2, some w =>
    if 4 ≤ r.spare || w.region ∈ s.ftg.retired || s.ftg.repairs.any (fun q => q.typ == 3 && q.row == r.row && q.spare == r.spare) then s
    else
      let k := s.stack w.stack.val
      (s.setStack w.stack.val { k with hard := k.hard + 1 }).record { r with typ := 3 }
  | _, _ => s

/-- Makes every soft repair on record hard. -/
def State.hardenAll (s : State) : State :=
  let s := s.ftg.repairs.foldl State.harden s
  (List.range 8).foldl (fun s i => s.setStack i { s.stack i with soft := 0 }) s

/-- A row that fails the pattern test is treated at once. -/
def State.patternFails (s : State) (r : RowId) : State :=
  let s := s.rowFails r false
  (s.softRepair r []).regionEmpty r.region

/-- REPAIR_REPLAY, with the rows that fail the pattern test. -/
def execRepairReplay (failing : List RowId) (s : State) : Host.Outcome State Fault Refusal :=
  .next (if s.stepDue 5 && s.memoryTrained then
      let s := ({ s with pln := { s.pln with stage := 5 } }).loadRepairs.hardenAll
      (((failing.filter (fun r => !(s.ftg.retired.contains r.region))).foldl State.patternFails s)).hardenAll
    else s)

/-! ## Steps 6 to 8 -/

/-- LINK_TRAINING. -/
def execLinkTraining (r : Vector Training 16) (s : State) : Host.Outcome State Fault Refusal :=
  .next (if s.stepDue 6 && !s.pln.noJob then
      (List.range 16).foldl (fun s p => match r.toList[p]? with
        | some t => s.trained p t
        | none => s) { s with pln := { s.pln with stage := 6 } }
    else s)

/-- The object of ring 0 (R377): 4,096 entries of 64 bytes in footing, pinned. -/
def ring0Obj : Obj := { handle := 0x100001, st := .fast, kind := .data, home := 0, pins := 1, size := 4 }

/-- Units of 64 KiB that footing can allocate: its regions below the tables, without the retired ones (R245, R258, R264). -/
def State.footingUnits (s : State) : Nat := 32 * (392256 - (s.ftg.retired.filter (fun g => g < 392256)).length)

/-- Units of the undercroft without the quarantined regions. -/
def State.undercroftUnits (s : State) : Nat := 32 * (524288 - s.ucf.quarantined.length)

/-- HOD_INIT: the table is cleared, capacity is counted, ring 0 is created, and cairn's registers are loaded (R455); the cairn
store is smaller by the free blocks that have been retired as worn (R354). -/
def State.hodInit (s : State) : State :=
  let was := if s.prs.flashTotal = 0 then Config.flashTotal else s.prs.flashTotal
  let used := flashOf s.prs.images
  let total := was - Config.flashWorn s.ldg.power.toNat % (was - used + 1)
  { s with
    pln := { s.pln with stage := 7 }
    objs := [(1, ring0Obj)]
    objMem := []
    bad := []
    hod := { s.hod with
      freeFast := s.footingUnits - 4, allocFast := s.footingUnits, freeSlow := s.undercroftUnits, allocSlow := s.undercroftUnits, recomputes := [] }
    prs := { s.prs with loaded := true, flashTotal := total, flashFree := total - used } }

def execHodInit (s : State) : Host.Outcome State Fault Refusal :=
  .next (if s.stepDue 7 && s.ucf.train == 1 && !s.ucf.test && s.memoryTrained then s.hodInit else s)

/-- The fuses after ready: each type whose image has ENFORCE and a higher SVN advances (R392). -/
def Seal.advance (q : Seal) : Seal :=
  if q.injected then q
  else { q with svn := (List.range 4).map (fun j =>
    let d := q.image q.bank (j + 1)
    if bitOf (leAt d 9 1) 0 then max (q.svn.getD j 0) (leAt d 8 1) else q.svn.getD j 0) }

/-- A new calibration set takes the older slot. -/
def Gge.store (g : Gge) (c : Calibration) : Gge :=
  let (a, _) := g.calSlots
  { g with slots := some ({ seq := a.seq + 1, good := true, cal := c }, a) }

/-- Regenerated parts are written back as a new set (R403), unless an injection caused it (R443). -/
def Gge.writeBack (g : Gge) (k : Nat) : Gge :=
  if !g.calRegen || g.calInj then g
  else
    let c := g.inUse
    g.store
      { presets := some (c.presets.getD (Config.regenerated k 0)), memory := some (c.memory.getD (Config.regenerated k 1))
        voltage := some (c.voltage.getD (Config.regenerated k 2)), trims := c.trims }

/-- MODULE_READY. -/
def State.moduleReady (s : State) : State :=
  { s with
    pln := { s.pln with stage := 8 }
    hod := { s.hod with ready := true }
    sealBlk := s.sealBlk.advance
    gge := s.gge.writeBack s.ldg.power.toNat }

def execModuleReady (s : State) : Host.Outcome State Fault Refusal := .next (if s.stepDue 8 then s.moduleReady else s)

/-! ## The supply (R406, R409 to R412) -/

/-- Takes a reading of the input voltage into VMIN. -/
def Pln.sag (p : Pln) (v : BitVec 16) : Pln := { p with vmin := if v < p.vmin then v else p.vmin }

/-- What a warning sets. -/
def Pln.warning (p : Pln) (v : BitVec 16) : Pln :=
  let p := p.sag v
  { p with warn := true, hold := true, released := false, resuming := false, groups := 0, recent := p.recent + 1, fault := setBit p.fault 0 true }

/-- A PREEMPT or RESTORE in progress ends with the job it acts on. -/
def State.abortBusy (s : State) : State :=
  match s.msn.busy with
  | some (c, _, _, op) => if 0x10 ≤ op then ({ s with msn := { s.msn with busy := none } }).answer 0 c stAborted 0 else s
  | none => s

/-- The third warning within 10 s: the job stops in order, and the module stays idle (R410). -/
def State.supplyStop (s : State) : State := s.stopJob.abortBusy.abortEntries

/-- Whether a capture is at work. -/
def Prs.saving (p : Prs) : Bool :=
  match p.capture with
  | .saving _ _ _ => true
  | _ => false

/-- What a warning sets. -/
def State.warnState (s : State) (v : BitVec 16) : State :=
  { s with
    nsb := { s.nsb with taint := true }
    prs := { s.prs with warned := s.prs.warned || s.prs.saving || s.prs.captured == some s.boundary }
    gge := { s.gge with alert := setBit s.gge.alert 2 true }
    pln := s.pln.warning v }

/-- SUPPLY_WARN: the input falls through 45.0 V. -/
def State.supplyWarn (s : State) (v : BitVec 16) : State :=
  let src := srcOf 0x0F 4
  let (inj, s) := s.injCheck evSupplyWarn src
  let s := s.warnState v
  let warn := evOf src evSupplyWarn v.toNat 0 [] inj
  if 3 ≤ s.pln.recent then
    (({ s with pln := { s.pln with fault := setBit s.pln.fault 1 true } }).evs [warn, evOf src evSupplyStop 0 0 [] inj]).supplyStop
  else s.evs [warn]

def execSupplyWarn (volts : BitVec 16) (s : State) : Host.Outcome State Fault Refusal :=
  .next (if s.pln.lock && (volts < 4500 || s.injArmed evSupplyWarn (srcOf 0x0F 4)) then s.supplyWarn volts else s)

/-- WARNING_RELEASED: the input rises through 46.0 V, and the recovery count begins. -/
def execWarningReleased (s : State) : Host.Outcome State Fault Refusal :=
  .next (if s.pln.warn then { s with pln := { s.pln with released := true } } else s)

/-- SUPPLY_RECOVERY_DONE: core groups resume issue one after the other, or start-up goes on. -/
def execSupplyRecoveryDone (s : State) : Host.Outcome State Fault Refusal :=
  .next (if s.pln.warn && s.pln.released then
      { s with pln := { s.pln with warn := false, released := false, hold := decide (3 ≤ s.pln.stage), resuming := decide (3 ≤ s.pln.stage) } }
    else s)

/-- WARNING_WINDOW_EXPIRY (R410). -/
def execWarningWindowExpiry (s : State) : Host.Outcome State Fault Refusal := .next { s with pln := { s.pln with recent := s.pln.recent - 1 } }

/-- SUPPLY_FAIL: the input falls through 41.0 V (R411). -/
def execSupplyFail (volts : BitVec 16) (s : State) : Host.Outcome State Fault Refusal :=
  .next (if s.pln.lock && (volts < 4100 || s.injArmed evSupplyFail (srcOf 0x0F 4)) then
      let (inj, s) := s.injCheck evSupplyFail (srcOf 0x0F 4)
      ({ s with pln := { s.pln.sag volts with fail := true, failInj := inj } }).restart
    else s)

/-- ALWAYS_ON_LOST: the input falls below 30.0 V. -/
def execAlwaysOnLost (s : State) : Host.Outcome State Fault Refusal := .next s.powerOff

/-- PLN_RAIL_FAIL (R408): every rail but VAUX goes low until the next power-on. -/
def State.railFail (s : State) (rail : Nat) : State :=
  let src := srcOf 0x0F (0x10 + rail)
  let (inj, s) := s.injCheck evPlnRailFail src
  let s := ({ s with pln := { s.pln with fault := setBit s.pln.fault 5 true, railf := true } }).ev src evPlnRailFail rail 0 [] inj
  ({ s with pln := { s.pln with off := true, noJobPower := true } }).restart

/-- The state in which a failure of step 0 meets the module: a start that POWER_ON has not yet ended is begun (R424). -/
def State.stepZero (s : State) : State := if s.pln.power then s else s.hubUp {}

def execPlnRailFail (rail : Fin 15) (s : State) : Host.Outcome State Fault Refusal :=
  .next (if s.pln.off then s else s.stepZero.railFail rail.val)

/-- PLN_PLL_UNLOCK (R416): the module resets. -/
def State.pllUnlock (s : State) : State :=
  let (inj, s) := s.injCheck evPlnPllUnlock (srcOf 0x0F 0)
  (s.ev (srcOf 0x0F 0) evPlnPllUnlock 0 0 [] inj).restart

def execPlnPllUnlock (s : State) : Host.Outcome State Fault Refusal :=
  .next (if s.pln.off then s else s.stepZero.pllUnlock)

/-! ## Droop and ramp (R415, R417) -/

/-- DROOP_DETECT: one stretch on the group's die. -/
def execDroopDetect (g : Fin 8) (s : State) : Host.Outcome State Fault Refusal :=
  .next (if 3 ≤ s.pln.stage then
      { s with pln := { s.pln with droop := Tab.set 0 s.pln.droop (g.val / 2) (satInc (Tab.get 0 s.pln.droop (g.val / 2))) } }
    else s)

/-- ARRAY_RAMP_WINDOW: the next window of an array's ramp, up to the eighth; nothing where the array is not ramping. -/
def execArrayRampWindow (k : Fin 64) (a : Fin 3) (s : State) : Host.Outcome State Fault Refusal :=
  .next (let n := Tab.get 8 s.pln.ramp (3 * k.val + a.val)
    { s with pln := { s.pln with ramp := Tab.set 8 s.pln.ramp (3 * k.val + a.val) (min 8 (n + 1)) } })

/-! ## Sensors and throttling (R401, R419 to R421) -/

/-- Thresholds of a sensor in °C: warning, throttle, critical and trip (R419). -/
def thresholds (i : Nat) : Option Int × Option Int × Option Int × Option Int :=
  if i < 68 then (some 95, some 100, some 108, some 115)
  else if i < 76 then (some 90, some 98, some 103, some 108)
  else if i < 80 then (some 95, some 100, some 108, some 115)
  else if i < 84 then (some 95, none, some 105, some 115)
  else if i < 92 then (some 110, none, some 120, some 125)
  else if i = 92 then (some 40, none, some 45, none)
  else (none, none, none, none)

/-- Whether a reading in 1/16 °C reaches a threshold. -/
def atLeast (t : Int) (th : Option Int) : Bool := match th with | some h => 16 * h ≤ t | none => false

/-- A sensor that returns no reading, with the event it raises once per start (R401). -/
def State.sensorFail (s : State) (i : Nat) (inj : Bool) : State × List Ev :=
  let t := Tab.get (0, false) s.gge.temps i
  let s := { s with gge := { s.gge with temps := Tab.set (0, false) s.gge.temps i (t.1, false), fault := setBit s.gge.fault 1 true } }
  if i ∈ s.gge.failed then (s, [])
  else ({ s with gge := { s.gge with failed := s.gge.failed ++ [i] } }, [evOf (srcOf 0x10 i) evGgeSensorFail i 0 [] inj])

/-- The rails of step 3 go low (R421): what they feed is lost, and with it the job and an image that was draining. -/
def State.railsLow (s : State) : State :=
  let s := s.dropDrain
  { s with
    ctxs := [], cores := [], acc := [], spad := [], ops := [], objs := [], objMem := [], bad := [], phys := [], ports := [], pairs := []
    ftgStacks := s.ftgStacks.map (fun (p : Nat × Stack) => (p.1, { p.2 with train := 0 }))
    ucf := { s.ucf with train := 0, test := false }
    mtr := { s.mtr with combine := [] }
    hod := { s.hod with ready := false, recomputes := [] }
    qry := { s.qry with streams := [], queue := [], engines := [] }
    prs := { s.prs with capture := .none, captured := none, gaveUp := none, reads := [], restore := .none, replay := none, warned := false, hosted := [] }
    arc := { s.arc with colls := [], posted := [], heldIn := [] }
    hif := { s.hif with starts := [] }
    msn := { s.msn with job := false, busy := none, preempt := false } }

/-- A thermal trip (R421): issue stops, and the module accepts no job until the next power-on. -/
def State.thermTrip (s : State) : State :=
  let s := s.railsLow
  { s with pln := { s.pln with trip := true, noJobPower := true, noJob := true, stopped := true, groups := 0 } }

/-- A list of sensors with one more, or one less. -/
def mark (b : Bool) (i : Nat) (l : List Nat) : List Nat := if b then (if i ∈ l then l else l ++ [i]) else l.filter (· != i)

/-- A sensor's reading in 1/16 °C: the thresholds it has reached, and the events of those it reaches now (R419, R421). -/
def State.tempRead (s : State) (i : Nat) (t : Int) (inj : Bool) : State × List Ev :=
  let (w, _, c, trip) := thresholds i
  let hot := atLeast t c && !(s.pln.crit.contains i)
  let dead := atLeast t trip && !(s.pln.tripped.contains i)
  let raise (b : Bool) (code : Nat) : List Ev := if b then [evOf (srcOf 0x10 i) code (t % 65536).toNat 0 [] inj] else []
  ({ s with
      gge := { s.gge with
        temps := Tab.set (0, false) s.gge.temps i (BitVec.ofInt 16 t, true)
        events := if atLeast t w && !(s.gge.above.contains i) then s.gge.events ++ [i] else s.gge.events
        above := mark (atLeast t w) i s.gge.above
        injTemps := mark inj i s.gge.injTemps
        alert := if hot then setBit s.gge.alert 1 true else s.gge.alert }
      pln := { s.pln with
        crit := mark (atLeast t c) i s.pln.crit
        tripped := mark (atLeast t trip) i s.pln.tripped
        fault := if hot then setBit s.pln.fault 3 true else s.pln.fault } },
    raise hot evThermCrit ++ raise dead evThermTrip)

/-- One sensor's reading, with what an armed point makes of it, and the events it raises. -/
def State.sensor (s : State) (i : Nat) (r : Option Int) : State × List Ev :=
  let src := srcOf 0x10 i
  let (none_, s) := s.injCheck evGgeSensorFail src
  let (i1, s) := s.injCheck evThermCrit src
  let (i2, s) := s.injCheck evThermTrip src
  let inj := i1 || i2
  match (if inj then some (signed 16 (fld s.ldg.injArg.toNat 15 0)) else if none_ then none else r) with
  | none => s.sensorFail i none_
  | some t => s.tempRead i t inj

/-- The readings of all sensors: the events of one ICLK in the order of R431, and the trip. -/
def State.sensors (s : State) (temps : List (Option Int)) : State :=
  let r := (List.range 96).foldl (fun (p : State × List Ev) i =>
    let q := p.1.sensor i ((temps[i]?).getD none)
    (q.1, p.2 ++ q.2)) (s, [])
  let t := r.1.evs r.2
  if r.2.any (fun e => e.code == evThermTrip) then t.thermTrip else t

/-- The sensors of a die that throttle it: its core slots, its central region and its stacks. -/
def dieSensors (d : Nat) : List Nat := (List.range 17).map (fun j => 17 * d + j) ++ [76 + d, 68 + 2 * d, 69 + 2 * d]

/-- A sensor's last valid reading in 1/16 °C, relative to its throttle threshold. -/
def State.overThrottle (s : State) (i : Nat) : Option Int :=
  let t := Tab.get (0, false) s.gge.temps i
  match (thresholds i).2.1 with
  | some h => if t.2 then some (t.1.toInt - 16 * h) else none
  | none => none

/-- The thermal duty and memory cap of a die after a reading (R420). -/
def State.throttleDie (s : State) (d : Nat) : State :=
  let hot (l : List Nat) : Bool := l.any (fun i => match s.overThrottle i with | some x => 0 ≤ x | none => false)
  let cool := (dieSensors d).all (fun i => match s.overThrottle i with | some x => x ≤ -32 | none => true)
  let p := s.pln
  let n := p.duty.getD d 8
  if hot (dieSensors d) then
    let p := { p with
      duty := p.duty.set d (max 1 (n - 1))
      memcap := if n = 1 && hot [68 + 2 * d, 69 + 2 * d] then setBit p.memcap d true else p.memcap }
    let inj := !hot ((dieSensors d).filter (fun i => !(s.gge.injTemps.contains i)))
    if n = 8 then ({ s with pln := { p with fault := setBit p.fault 2 true } }).ev (srcOf 0x0F d) evThermThrottle d 0 [] inj else { s with pln := p }
  else if cool then
    { s with pln := if p.memcap.getLsbD d then { p with memcap := setBit p.memcap d false } else { p with duty := p.duty.set d (min 8 (n + 1)) } }
  else s

/-- The power duty after a reading (R420). PWR_LIMIT is recorded, and its fault bit set, at the first lowering. -/
def State.powerDuty (s : State) (watts : Nat) : State :=
  let (inj, s) := s.injCheck evPwrLimit (srcOf 0x0F 4)
  let w := if inj then s.ldg.injArg.toNat else watts
  let p := s.pln
  if 2300 < w then
    let q := { p with pduty := p.pduty.map (fun n => max 1 (n - 1)), plim := true }
    if p.plim then { s with pln := q } else ({ s with pln := { q with fault := setBit p.fault 4 true } }).ev (srcOf 0x0F 4) evPwrLimit w 0 [] inj
  else if w < 2200 then { s with pln := { p with pduty := [8, 8, 8, 8], plim := false } }
  else s

/-- What gauge reads of the rails. -/
def Gge.railsRead (g : Gge) (vin : BitVec 16) (r : Rails) : Gge :=
  { g with vin := vin, watts := r.watts, amps := r.amps, dieVolts := r.dieVolts.toList, dieAmps := r.dieAmps.toList }

/-- SENSOR_READING. -/
def State.sensorReading (s : State) (temps : List (Option Int)) (vin : BitVec 16) (r : Rails) : State :=
  let s := ({ s with gge := s.gge.railsRead vin r, pln := s.pln.sag vin }).sensors temps
  (((List.range 4).foldl State.throttleDie s).powerDuty r.watts.toNat).throttled

def execSensorReading (temps : Vector (Option Int) 96) (vin : BitVec 16) (rails : Rails) (s : State) : Host.Outcome State Fault Refusal :=
  .next (if s.pln.lock then s.sensorReading temps.toList vin rails else s)

end Sys2Proof.Machine
end

