-- ==== Sys2Proof/Machine/Record.lean ====
section
/-! DEFINITION. The ledger's own events: budgets, forced flushes, drops and flash programs (R432 to R437). -/

namespace Sys2Proof.Machine

/-- BUDGET_REFILL (R435): every budget regains one record, up to 1,024. -/
def execBudgetRefill (s : State) : Host.Outcome State Fault Refusal :=
  .next { s with ldg := { s.ldg with budgets := (s.ldg.budgets.map (fun p => (p.1, p.2 + 1))).filter (fun p => p.2 < 1024) } }

/-- FORCED_FLUSH (R433): the oldest unwritten record has been staged for 1 s. -/
def execForcedFlush (s : State) : Host.Outcome State Fault Refusal :=
  .next (if s.ldg.staged.any (fun q => !q.written) then s.flush else s)

/-- LEDGER_DROP (R437): 1 s after the first drop that no record has counted. -/
def execLedgerDrop (s : State) : Host.Outcome State Fault Refusal := .next s.stageDrop

/-- The units of a circulating area of `total` units that stay when unit `u` is written: the block of 256 ahead of the write point is erased. -/
def keepUnits (total u : Nat) (l : List FlashUnit) : List FlashUnit := l.filter (fun q => u / 256 * 256 + 256 ≤ q.unit + total)

/-- A program that has succeeded. A record leaves staging once the ring holds it. -/
def Ldg.stored (l : Ldg) (u : FlashUnit) : Ldg :=
  match u.area with
  | .cornerstone => { l with cornerstone := l.cornerstone ++ [u] }
  | .ring => { l with
      ring := keepUnits 20480 u.unit l.ring ++ [u]
      staged := l.staged.filter (fun q => !(u.recs.any (fun r => r.seq == q.rcd.seq))) }
  | .tail => { l with tail := keepUnits 1024 u.unit l.tail ++ [u] }

/-- A program that has failed is repeated in the next unit, and what follows it in its area moves on by one (R432). -/
def Ldg.repeated (l : Ldg) (u : FlashUnit) : Ldg :=
  { l with
    programs := l.programs.map (fun q => if q.area = u.area && u.unit ≤ q.unit then { q with unit := q.unit + 1 } else q)
    ringUnit := if u.area = .ring then l.ringUnit + 1 else l.ringUnit
    tailUnit := if u.area = .tail then l.tailUnit + 1 else l.tailUnit
    fault := setBit l.fault 1 true }

/-- LEDGER_FLASH_PROGRAM_DONE: the oldest program in progress ends. -/
def execLedgerFlashProgramDone (ok : Bool) (s : State) : Host.Outcome State Fault Refusal :=
  .next (match s.ldg.programs with
    | [] => s
    | u :: rest => { s with ldg := if ok then ({ s.ldg with programs := rest }).stored u else s.ldg.repeated u })

end Sys2Proof.Machine
end

