-- ==== Sys2Proof/Machine/Seal.lean ====
section
/-! DEFINITION. Seal and gauge (R393 to R404, R434): what arrives on the management buses and at the debug port. -/

namespace Sys2Proof.Machine

/-! ## Answers -/

def State.say (s : State) (r : MgmtRsp) : State := { s with gge := { s.gge with rsp := r } }

/-- SPDM error codes of DSP0274: InvalidRequest, Busy, UnsupportedRequest. -/
def spdmInvalid : Nat := 1
def spdmBusy : Nat := 3
def spdmUnsupported : Nat := 7

/-- ENDPOINT_ID_ASSIGN. -/
def State.assignEid (s : State) (bus : Bus) (eid : Byte) : State := ({ s with gge := { s.gge with eid := some eid } }).say (.done bus)

def execEndpointIdAssign (bus : Bus) (eid : Byte) (s : State) : Host.Outcome State Fault Refusal :=
  .next (if s.gaugeUp then s.assignEid bus eid else s)

/-! ## SPDM (R395 to R397) -/

/-- TPM_ALG_SHA_256 in the hash field of DSP0274, and the number of the PCI-SIG registry there. PRESUMED (127). -/
def spdmSha256 : Nat := 1
def spdmPciSig : Nat := 3

/-- The answer to NEGOTIATE_ALGORITHMS (R396): SHA-256, and SLH-DSA-SHA2-128s as algorithm 1 of vendor 0x1F3C. -/
def algorithms (bus : Bus) : MgmtRsp := .algorithms bus spdmSha256 spdmPciSig 0x1F3C 0x0001 (Config.spdmBody 2)

def execGetVersion (bus : Bus) (s : State) : Host.Outcome State Fault Refusal := .next (s.serve (fun s => s.say (.bytes bus (Config.spdmBody 0))))
def execGetCapabilities (bus : Bus) (s : State) : Host.Outcome State Fault Refusal := .next (s.serve (fun s => s.say (.bytes bus (Config.spdmBody 1))))
def execNegotiateAlgorithms (bus : Bus) (s : State) : Host.Outcome State Fault Refusal := .next (s.serve (fun s => s.say (algorithms bus)))

/-- GET_DIGESTS: the digest of the one chain. -/
def execGetDigests (bus : Bus) (s : State) : Host.Outcome State Fault Refusal := .next (s.serve (fun s => s.say (.bytes bus (sha256 Config.certChain))))

/-- GET_CERTIFICATE: slot 0 holds the chain. -/
def certificate (bus : Bus) (slot off len : Nat) : MgmtRsp :=
  if slot = 0 then .bytes bus ((Config.certChain.drop off).take len) else .error bus spdmInvalid

def execGetCertificate (bus : Bus) (slot off len : Nat) (s : State) : Host.Outcome State Fault Refusal :=
  .next (s.serve (fun s => s.say (certificate bus slot off len)))

/-- A response that seal signs: one at a time. -/
def State.sign (s : State) (bus : Bus) (body : List Byte) : State :=
  if s.sealBlk.signing.isSome then s.say (.error bus spdmBusy) else { s with sealBlk := { s.sealBlk with signing := some (bus, body) } }

/-- CHALLENGE. -/
def execChallenge (bus : Bus) (nonce : BitVec 256) (s : State) : Host.Outcome State Fault Refusal :=
  .next (s.serve (fun s => s.sign bus (Config.spdmBody 3 ++ toBytes 32 nonce.toNat)))

/-- The security configuration that measurement 6 digests: REVOKE0, SVN[1..4], the active bank, the unlock state and its scope. DESIGN CHOICE (90): one byte each
in this order, and the scope in two. -/
def Seal.config (q : Seal) : List Byte :=
  toBytes 1 q.revoked.toNat ++ (List.range 4).flatMap (fun j => toBytes 1 (q.svn.getD j 0)) ++ toBytes 1 q.active ++ toBytes 1 (Bool.toNat q.debug)
    ++ toBytes 2 q.scope.toNat

/-- Measurement block `i` (R397). DESIGN CHOICE (90): the bytes that 5 to 7 digest, of which the rule names the content alone. -/
def State.measurement (s : State) (i : Nat) : List Byte :=
  let q := s.sealBlk
  if i ≤ 4 then sha256 (imgPayload (q.image q.bank i)) ++ toBytes 1 (leAt (q.image q.bank i) 8 1)
  else if i = 5 then sha256 (Config.calBytes s.gge.inUse)
  else if i = 6 then sha256 q.config
  else sha256 (toBytes 4 (s.barWord 0) ++ toBytes 6 Config.serial.toNat)

/-- The measurements that a request names: one block, all of them for 0xFF, or their number for 0. -/
def State.measurements (s : State) (index : Nat) : Option (List Byte) :=
  if index = 0 then some [7]
  else if index ≤ 7 then some (s.measurement index)
  else if index = 255 then some ((List.range 7).flatMap (fun i => s.measurement (i + 1)))
  else none

/-- GET_MEASUREMENTS: signed where the request carries a nonce. -/
def State.getMeasurements (s : State) (bus : Bus) (index : Nat) (nonce : Option (BitVec 256)) : State :=
  match s.measurements index, nonce with
  | none, _ => s.say (.error bus spdmInvalid)
  | some b, none => s.say (.bytes bus b)
  | some b, some n => s.sign bus (Config.spdmBody 4 ++ b ++ toBytes 32 n.toNat)

def execGetMeasurements (bus : Bus) (index : Nat) (nonce : Option (BitVec 256)) (s : State) : Host.Outcome State Fault Refusal :=
  .next (s.serve (fun s => s.getMeasurements bus index nonce))

/-- KEY_EXCHANGE and PSK_EXCHANGE: no session. -/
def execKeyExchange (bus : Bus) (s : State) : Host.Outcome State Fault Refusal := .next (s.serve (fun s => s.say (.error bus spdmUnsupported)))
def execPskExchange (bus : Bus) (s : State) : Host.Outcome State Fault Refusal := .next (s.serve (fun s => s.say (.error bus spdmUnsupported)))

/-- SPDM_SIGNING_DONE: the signed response is sent. -/
def State.signed (s : State) : State :=
  match s.sealBlk.signing with
  | none => s
  | some (bus, body) => ({ s with sealBlk := { s.sealBlk with signing := none } }).say (.bytes bus (body ++ toBytes 7856 (Config.slhSign Config.idKey body).toNat))

def execSpdmSigningDone (s : State) : Host.Outcome State Fault Refusal := .next s.signed

/-! ## Firmware update (R392 to R394) -/

/-- The bank that an update writes: the one the module does not run, or where none runs the one its boot record does not name. -/
def Seal.inactive (q : Seal) : Nat := if q.booted then 1 - q.bank else 1 - q.active

/-- An image of the update takes its place in the inactive bank. -/
def Seal.write (q : Seal) (component : Nat) (image : List Byte) : Seal :=
  { q with
    boot := Tab.set none q.boot (8 * q.inactive + component) (some image)
    updated := if component ∈ q.updated then q.updated else q.updated ++ [component]
    verified := false }

/-- FIRMWARE_UPDATE_WRITE: components are 1 to 5, and an image whose SVN exceeds 64 is refused (R392, R394). -/
def State.updateWrite (s : State) (component : Nat) (image : List Byte) : State :=
  if component = 0 || 64 < leAt image 8 1 then s.say .updateRefused
  else ({ s with sealBlk := s.sealBlk.write component image }).say .updateDone

def execFirmwareUpdateWrite (component : Fin 6) (image : List Byte) (s : State) : Host.Outcome State Fault Refusal :=
  .next (if s.gaugeUp then s.updateWrite component.val image else s)

/-- VERIFY_COMPLETE: checks 1 to 5 on what the update wrote; a failure reports VerifyFailed, and a REVOKE image that passes blows REVOKE0. An update that has
written nothing has nothing to verify and is refused. -/
def State.verifyUpdate (s : State) : State :=
  let q := s.sealBlk
  let b := q.inactive
  match ([1, 2, 3, 4, 5].filter (· ∈ q.updated)).findSome? (fun t => (q.check (q.image b t) t).map (fun n => (t, n))) with
  | some (t, n) =>
    (({ s with sealBlk := { q with verified := false, fault := setBit q.fault 0 true } }).ev (srcOf 0x0E 0) evSealImgReject t b (toBytes 1 n)).say .verifyFailed
  | none =>
    if q.updated.isEmpty then s.say .updateRefused
    else ({ s with sealBlk := { q with verified := true, revoked := q.revoked || 5 ∈ q.updated } }).say .updateDone

def execVerifyComplete (s : State) : Host.Outcome State Fault Refusal := .next (if s.gaugeUp then s.verifyUpdate else s)

/-- ACTIVATE_FIRMWARE: the images that the update did not carry are copied, and the bank is active from the next start. -/
def Seal.activate (q : Seal) : Seal :=
  let b := q.inactive
  { q with
    boot := ([1, 2, 3, 4].filter (fun t => !q.updated.contains t)).foldl (fun m t => Tab.set none m (8 * b + t) (some (q.image (1 - b) t))) q.boot
    active := b
    updated := []
    verified := false }

/-- An update that has not passed its verification is not activated. -/
def State.activateFirmware (s : State) : State :=
  if s.sealBlk.verified then ({ s with sealBlk := s.sealBlk.activate }).say .updateDone else s.say .updateRefused

def execActivateFirmware (s : State) : Host.Outcome State Fault Refusal := .next (if s.gaugeUp then s.activateFirmware else s)

/-! ## Sensors (R401) -/

/-- A temperature sensor is read: the reading with its VALID, as GGE_TEMP gives them. -/
def State.readTemp (s : State) (bus : Bus) (i : Nat) (reading : Bool) : State :=
  let (inj, s) := s.injCheck evGgeSensorFail (srcOf 0x10 i)
  let (s, l) := if reading && !inj then (s, []) else s.sensorFail i inj
  let t := Tab.get (0, false) s.gge.temps i
  (s.evs l).say (.bytes bus (toBytes 4 (t.1.toNat + (if t.2 then 2 ^ 16 else 0))))

/-- What gauge holds of a rail sensor. DESIGN CHOICE (128): two bytes, in the unit of GGE_PIN where it has one. -/
def Gge.rail (g : Gge) : SensorId → BitVec 16
  | .inputVolts => g.vin
  | .inputAmps => g.amps
  | .inputWatts => g.watts
  | .dieVolts d => g.dieVolts.getD d.val 0
  | .dieAmps d => g.dieAmps.getD d.val 0
  | _ => 0

/-- PLDM_SENSOR_READ. Gauge's own status is served in SEAL_BOOT_FAIL too (R391, R400); DESIGN CHOICE (128): it is GGE_STATUS. A rail sensor that returns no reading
has no sensor index, and is answered as an error. -/
def State.readSensor (s : State) (bus : Bus) (i : SensorId) (reading : Bool) : State :=
  match i with
  | .status => if s.gaugeUp then s.say (.bytes bus (toBytes 4 (s.ggeWord 0))) else s
  | .temp j => s.serve (fun s => s.readTemp bus j.val reading)
  | r => s.serve (fun s => s.say (if reading then .bytes bus (toBytes 2 (s.gge.rail r).toNat) else .error bus spdmInvalid))

def execPldmSensorRead (bus : Bus) (i : SensorId) (reading : Bool) (s : State) : Host.Outcome State Fault Refusal := .next (s.readSensor bus i reading)

/-! ## Outputs of the sideband connector (R402, R465) -/

/-- ALERT_N is low while a bit of GGE_ALERT is set. -/
def State.alertN (s : State) : Bool := s.gge.alert == 0

/-- MOD_READY is released high when start-up reaches ready. -/
def State.modReady (s : State) : Bool := s.pln.stage == 8 && s.hod.ready

/-- PRESENT_N is grounded on the module. -/
def State.presentN (_ : State) : Bool := false

/-! ## Debug unlock (R398, R399) -/

/-- NONCE_REQUEST. -/
def State.newNonce (s : State) (bus : Bus) : State :=
  let n := s.sealBlk.nonces
  ({ s with sealBlk := { s.sealBlk with nonce := some n, nonces := n + 1 } }).say (.bytes bus (toBytes 32 (Config.nonce n).toNat))

def execNonceRequest (bus : Bus) (s : State) : Host.Outcome State Fault Refusal := .next (s.serve (fun s => s.newNonce bus))

/-- Whether a token passes: magic, SERIAL, nonce, zero bytes, reserved scope bits, key and signature. -/
def Seal.tokenOk (q : Seal) (tok : List Byte) : Bool :=
  let body := tok.take 64
  let pk := tok.drop 7920
  tok.length == 7952 && leAt body 0 4 == 0x4B4F5444 && leAt body 8 6 == Config.serial.toNat
    && (match q.nonce with | some n => (body.drop 16).take 32 == toBytes 32 (Config.nonce n).toNat | none => false)
    && leAt body 7 1 == 0 && leAt body 14 2 == 0 && leAt body 48 16 == 0 && leAt body 5 2 < 16
    && q.keyOk (leAt body 4 1) pk && slhVerify pk body ((tok.drop 64).take 7856)

/-- DEBUG_TOKEN: the nonce is consumed either way. -/
def State.token (s : State) (bus : Bus) (tok : List Byte) : State :=
  let src := srcOf 0x0E 0
  let (inj, s) := s.injCheck evSealTokenReject src
  let q := s.sealBlk
  if q.tokenOk tok && !inj then
    let scope := q.scope ||| BitVec.ofNat 16 (leAt tok 5 2)
    (({ s with sealBlk := { q with nonce := none, debug := true, scope := scope } }).ev src evSealDebugUnlock (leAt tok 5 2)).say (.done bus)
  else
    (({ s with sealBlk := { q with nonce := none, fault := setBit q.fault 2 true } }).ev src evSealTokenReject 0 0 [] inj).say (.error bus spdmInvalid)

def execDebugToken (bus : Bus) (token : List Byte) (s : State) : Host.Outcome State Fault Refusal := .next (s.serve (fun s => s.token bus token))

/-! ## Calibration (R403, R404) -/

/-- CALIBRATION_READ: the newest stored set that passes. -/
def State.readCal (s : State) (bus : Bus) : State :=
  match s.gge.read with
  | some c => s.say (.bytes bus (Config.calBytes c))
  | none => s.say (.error bus spdmInvalid)

def execCalibrationRead (bus : Bus) (s : State) : Host.Outcome State Fault Refusal := .next (s.serve (fun s => s.readCal bus))

/-- CALIBRATION_WRITE: the older slot is replaced; other sensor trims need scope bit 3. -/
def State.writeCal (s : State) (bus : Bus) (c : Calibration) : State :=
  if (s.gge.read.bind Calibration.trims) != c.trims && !s.unlocked 3 then s.say (.error bus spdmInvalid)
  else ({ s with gge := s.gge.store c }).say (.done bus)

def execCalibrationWrite (bus : Bus) (c : Calibration) (s : State) : Host.Outcome State Fault Refusal := .next (s.serve (fun s => s.writeCal bus c))

/-- LEDGER_READ_MESSAGE, which works in SEAL_BOOT_FAIL too. -/
def execLedgerReadMessage (bus : Bus) (seq : W64) (s : State) : Host.Outcome State Fault Refusal :=
  .next (if s.gaugeUp then s.say (.bytes bus (s.recordBytes seq.toNat)) else s)

/-! ## The debug port (R19, R20, R399, R452) -/

/-- Whether a local address lies in footing or the undercroft. -/
def localOk (a : Nat) : Bool := a < 0xC000000000 || (0x10000000000 ≤ a && a < 0x20000000000)

/-- A physical access: another node's address is not answered, and a reserved range raises BOUNDS_FAULT and has no effect. -/
def State.physical (s : State) (addr : W64) (f : Nat → State) : State :=
  let a := fld addr.toNat 49 0
  if fld addr.toNat 63 50 ≠ s.arc.node.toNat then s
  else if localOk a then f a
  else s.ev (srcOf 0x05 0) evBoundsFault a

/-- The address of the block whose entry a byte of the side-table belongs to (R245). -/
def sideBlock (a : Nat) : Nat := if a < 0xBFC0000000 then (a - 0xBF90000000) / 4 * 4096 else 2 ^ 40 + (a - 0xBFC0000000) / 4 * 4096

/-- The object's block whose entry a byte of the side-table belongs to, by table index and block. -/
def State.sideOwner (s : State) (a : Nat) : Option (Nat × Nat) := (s.ownerAt (sideBlock a)).map (fun p => (p.1, p.2 / 4096))

/-- Whether an address lies in the object table (R264). -/
def inTable (a : Nat) : Bool := 0xBF88000000 ≤ a && a < 0xBF90000000

/-- A byte of the object table (R264). -/
def State.tableByte (s : State) (a : Nat) : Byte :=
  BitVec.ofNat 8 (((s.entryWords ((a - 0xBF88000000) / 128)).getD (a % 128 / 8) 0).toNat / 256 ^ (a % 8))

/-- The entry of a block of an object (R252): the CRC-32C of its bytes, little-endian, unless what is stored differs from it, which bit 17 of the block says. -/
def State.blockEntry (s : State) (i b a : Nat) : List Byte :=
  if bitOf (s.badBlock i b) 17 then Mem.read s.phys (a / 4 * 4) 4 else toBytes 4 (crc32c (s.objRead i (4096 * b) 4096))

/-- A byte of the side-table: of the entry of an object's block, of a block of the object table (R264), or of memory that holds neither. -/
def State.sideByte (s : State) (a : Nat) : List Byte :=
  if inTable (sideBlock a) then [(toBytes 4 (crc32c ((List.range 4096).map (fun j => s.tableByte (sideBlock a + j))))).getD (a % 4) 0]
  else
    match s.sideOwner a with
    | some (i, b) => [(s.blockEntry i b a).getD (a % 4) 0]
    | none => Mem.read s.phys a 1

/-- The byte at a local address: of the object table (R264), of the side-table (R245), of an object, or of memory that holds none. -/
def State.physRead (s : State) (a : Nat) : List Byte :=
  if inTable a then [s.tableByte a]
  else if inSide a then s.sideByte a
  else
    match s.ownerAt a with
    | some (i, off) => s.objRead i off 1
    | none => Mem.read s.phys a 1

/-- The debug port changes a block or its entry, at `a`, by `f`: neither follows the other. The entry is stored as it stood, and the block counts as mismatched, by
bit 17, while its CRC differs from it (R253). -/
def State.tamper (s : State) (i b a : Nat) (f : State → State) : State :=
  let t := f { s with phys := Mem.write s.phys (a / 4 * 4) (s.blockEntry i b a) }
  let m := t.badBlock i b % 2 ^ 17
  let same := Mem.read t.phys (a / 4 * 4) 4 == toBytes 4 (crc32c (t.objRead i (4096 * b) 4096))
  { t with bad := Tab.set 0 t.bad (badKey i b) (if same then m else m + 2 ^ 17) }

/-- Writes the byte at a local address. Only the hod writes the object table (R264). A byte of an object is written without its side-table entry, and a byte of an entry
without its block. -/
def State.physWrite (s : State) (a : Nat) (v : Byte) : State :=
  let put (s : State) : State := { s with phys := Mem.write s.phys a [v] }
  if inTable a || (inSide a && inTable (sideBlock a)) then s
  else if inSide a then
    match s.sideOwner a with
    | some (i, b) => s.tamper i b a put
    | none => put s
  else
    match s.ownerAt a with
    | some (i, off) => s.tamper i (off / 4096) (sideEntry a) (fun s => s.objWrite i off [v])
    | none => put s

/-- DEBUG_PORT_ACCESS, with scope bit 0. -/
def State.portAccess (s : State) (a : PortAccess) : State :=
  if !s.unlocked 0 || s.pln.stage < 2 then s
  else
    match a with
    | .readReg addr size =>
      let s := if addr / 0x10000 = 0x60 then s.countFetches else s
      match s.barRead addr size with
      | some v => { s with gge := { s.gge with port := toBytes size v } }
      | none => s
    | .writeReg addr size v => if barAligned addr size then s.barStore .debugPort addr size v.toNat else s
    | .readPhys addr => s.physical addr (fun a => { s with gge := { s.gge with port := s.physRead a } })
    | .writePhys addr v => s.physical addr (fun a => s.physWrite a v)

def execDebugPortAccess (a : PortAccess) (s : State) : Host.Outcome State Fault Refusal := .next (s.portAccess a)

end Sys2Proof.Machine
end

