-- ==== Sys2Proof/Machine/Syn.lean ====
section
/-! DEFINITION. SYN: signals, waits and sets (R318 to R326). -/

namespace Sys2Proof.Machine

/-- The full counter name of a SYN instruction. -/
def synName (i : Ins) : Nat := i.at 89 74

/-- Whether the value is the immediate. -/
def synImm (i : Ins) : Bool := i.flag 0

/-- Whether REMOTE is set. -/
def synRemote (i : Ins) : Bool := i.flag 1

/-- The word checks common to the class: fields and the name (R318, R321). -/
def synWord (k : Nat) (i : Ins) (remote : Bool) : Bool :=
  i.flagsBelow (if remote then 2 else 1) && i.zero 73 32 && (if synImm i then i.zero 99 95 else i.zero 31 0) && (synRemote i || i.zero 94 90)
    && (fullName k (synName i)).isSome

/-- The value of a SYN instruction. -/
def synValue (s : State) (x : Nat) (i : Ins) : W32 :=
  if synImm i then BitVec.ofNat 32 (i.at 31 0) else (s.reg x i.sa).setWidth 32

/-- Whether the value register holds zero outside [31:0] (R117, R321). -/
def synRegOk (s : State) (x : Nat) (i : Ins) : Bool := synImm i || (s.reg x i.sa).toNat < 2 ^ 32

/-- The destination node of a remote signal. -/
def synNode (s : State) (x : Nat) (i : Ins) : Nat := (s.reg x i.sb).toNat

/-- Whether REMOTE is allowed with the name: a job or system counter (R321). -/
def remoteName (k : Nat) (i : Ins) : Bool :=
  match fullName k (synName i) with
  | some (.ctx _ _) => false
  | _ => true

/-- A remote signal's message (R325). -/
def State.signalMsg (s : State) (dst name : Nat) (amt : W32) : Msg :=
  { s.newMsg dst 5 with len := 8, data := toBytes 2 name ++ [s.kst.epoch, 0] ++ toBytes 4 amt.toNat }

/-- SYN.SIGNAL on the named node (R325): a module holds at most 1,024 that have not been acknowledged. -/
def State.signalRemote (s : State) (x : Nat) (i : Ins) : State :=
  if 1024 ≤ s.kst.out then (s.issuedLast x).wait x .remoteLimit
  else
    let s := { s with kst := { s.kst with out := s.kst.out + 1 } }
    (s.sendMsg (s.signalMsg (synNode s x i) (synName i) (synValue s x i))).advance x

/-- SYN.SIGNAL on a counter of this module. -/
def State.signalLocal (s : State) (x : Nat) (i : Ins) : State :=
  match fullName (coreOf x) (synName i) with
  | some c => (s.signal c (synValue s x i).toInt).advance x
  | none => s

def execSynSignal (x : Fin 512) (i : Ins) (s : State) : Host.Outcome State Fault Refusal :=
  .next (s.issue x i (synWord (coreOf x) i true && (!synRemote i || remoteName (coreOf x) i)) (fun s => s.advance x)
    (fun s =>
      if synRemote i then
        s.checked x (need (synRegOk s x i && s.arc.other (synNode s x i)) evBoundsFault) (fun s => s.signalRemote x i)
      else s.checked x (need (synRegOk s x i) evBoundsFault) (fun s => s.signalLocal x i)))

/-- SYN.WAIT (R319, R320, R324). -/
def State.synWait (s : State) (x : Nat) (i : Ins) : State :=
  match fullName (coreOf x) (synName i) with
  | some c =>
    let t := synValue s x i
    if s.counter c < t then (s.issuedLast x).wait x (.counter c t)
    else
      match c with
      | .ctx _ _ => s.advance x
      | _ => (s.issuedLast x).wait x (.delay c t)
  | none => s

def execSynWait (x : Fin 512) (i : Ins) (s : State) : Host.Outcome State Fault Refusal :=
  .next (s.issue x i (synWord (coreOf x) i false) (fun s => s.advance x)
    (fun s => s.checked x (need (synRegOk s x i) evBoundsFault) (fun s => s.synWait x i)))

/-- Whether a name is one of the context's own counters. -/
def ownName (x : Nat) (i : Ins) : Bool :=
  match fullName (coreOf x) (synName i) with
  | some (.ctx y _) => y.val == x
  | _ => false

/-- SYN.SET (R319). -/
def State.synSet (s : State) (x : Nat) (i : Ins) : State :=
  match fullName (coreOf x) (synName i) with
  | some c => (s.setCounter c (synValue s x i)).advance x
  | none => s

def execSynSet (x : Fin 512) (i : Ins) (s : State) : Host.Outcome State Fault Refusal :=
  .next (s.issue x i (synWord (coreOf x) i false && ownName x i) (fun s => s.advance x)
    (fun s => s.checked x (need (synRegOk s x i) evBoundsFault) (fun s => s.synSet x i)))

/-- The hold of a SYN.WAIT on a counter already met ends (R324). -/
def execWaitDelayExpiry (x : Fin 512) (s : State) : Host.Outcome State Fault Refusal :=
  .next (match (s.ctx x).st, (s.ctx x).wait with
    | .waiting, .delay _ _ => s.wake x 16
    | _, _ => s)

/-- The end of a context switch (R92): the context selected is RUNNING, unless issue is held (R409). -/
def execContextSwitch (k : Fin 64) (s : State) : Host.Outcome State Fault Refusal :=
  .next (match (s.core k).switching with
    | some x =>
      if !s.canIssue k then s
      else
      let s := s.setCore k { s.core k with switching := none }
      if (s.ctx x).st = .ready && !(ctxsOf k).any (fun y => (s.ctx y).st = .running) then
        s.setCtx x { s.ctx x with st := .running, issued := 0 }
      else s.select k
    | none => s)

/-- A context has issued 256 instructions in a row (R91): it is replaced when one of equal priority is READY. -/
def State.quantum (s : State) (k : Nat) : State :=
  match (ctxsOf k).find? (fun x => (s.ctx x).st = .running) with
  | none => s
  | some x =>
    if (s.ctx x).issued < 256 || !s.canIssue k then s
    else
      let s := s.setCore k { s.core k with quantum := true }
      match s.best k with
      | some y => if (s.ctx x).prio ≤ (s.ctx y).prio then s.leave x { s.ctx x with st := .ready } else s
      | none => s

def execContextQuantum (k : Fin 64) (s : State) : Host.Outcome State Fault Refusal := .next (s.quantum k)

end Sys2Proof.Machine
end

