-- ==== Sys2Proof/Machine/Dispatch.lean ====
section
/-! DEFINITION. The command of each row, by its meaning. -/

namespace Sys2Proof.Machine

def exec (i : Instr) (s : State) : Host.Outcome State Fault Refusal :=
  match i with
  | .ctlNop x w => Sys2Proof.Machine.execCtlNop x w s
  | .ctlBr x w => Sys2Proof.Machine.execCtlBr x w s
  | .ctlBrx x w => Sys2Proof.Machine.execCtlBrx x w s
  | .ctlCall x w => Sys2Proof.Machine.execCtlCall x w s
  | .ctlLoop x w => Sys2Proof.Machine.execCtlLoop x w s
  | .ctlYield x w => Sys2Proof.Machine.execCtlYield x w s
  | .ctlDrain x w => Sys2Proof.Machine.execCtlDrain x w s
  | .ctlEnd x w => Sys2Proof.Machine.execCtlEnd x w s
  | .scaAdd x w => Sys2Proof.Machine.execScaAdd x w s
  | .scaSub x w => Sys2Proof.Machine.execScaSub x w s
  | .scaMul x w => Sys2Proof.Machine.execScaMul x w s
  | .scaMaddi x w => Sys2Proof.Machine.execScaMaddi x w s
  | .scaAnd x w => Sys2Proof.Machine.execScaAnd x w s
  | .scaOr x w => Sys2Proof.Machine.execScaOr x w s
  | .scaXor x w => Sys2Proof.Machine.execScaXor x w s
  | .scaShl x w => Sys2Proof.Machine.execScaShl x w s
  | .scaShr x w => Sys2Proof.Machine.execScaShr x w s
  | .scaSar x w => Sys2Proof.Machine.execScaSar x w s
  | .scaMin x w => Sys2Proof.Machine.execScaMin x w s
  | .scaMax x w => Sys2Proof.Machine.execScaMax x w s
  | .scaMinu x w => Sys2Proof.Machine.execScaMinu x w s
  | .scaMaxu x w => Sys2Proof.Machine.execScaMaxu x w s
  | .scaCmpeq x w => Sys2Proof.Machine.execScaCmpeq x w s
  | .scaCmpne x w => Sys2Proof.Machine.execScaCmpne x w s
  | .scaCmplt x w => Sys2Proof.Machine.execScaCmplt x w s
  | .scaCmple x w => Sys2Proof.Machine.execScaCmple x w s
  | .scaCmpltu x w => Sys2Proof.Machine.execScaCmpltu x w s
  | .scaCmpleu x w => Sys2Proof.Machine.execScaCmpleu x w s
  | .scaPand x w => Sys2Proof.Machine.execScaPand x w s
  | .scaPor x w => Sys2Proof.Machine.execScaPor x w s
  | .scaPxor x w => Sys2Proof.Machine.execScaPxor x w s
  | .scaPnot x w => Sys2Proof.Machine.execScaPnot x w s
  | .scaLi x w => Sys2Proof.Machine.execScaLi x w s
  | .scaId x w => Sys2Proof.Machine.execScaId x w s
  | .scaLd x w e => Sys2Proof.Machine.execScaLd x w e s
  | .scaSt x w => Sys2Proof.Machine.execScaSt x w s
  | .scaFadd32 x w => Sys2Proof.Machine.execScaFadd32 x w s
  | .scaFmul32 x w => Sys2Proof.Machine.execScaFmul32 x w s
  | .scaFfma32 x w => Sys2Proof.Machine.execScaFfma32 x w s
  | .scaI2f32 x w => Sys2Proof.Machine.execScaI2f32 x w s
  | .scaF2i32 x w => Sys2Proof.Machine.execScaF2i32 x w s
  | .scaSetimm x w => Sys2Proof.Machine.execScaSetimm x w s
  | .movLdt x w => Sys2Proof.Machine.execMovLdt x w s
  | .movStt x w => Sys2Proof.Machine.execMovStt x w s
  | .movLdb x w => Sys2Proof.Machine.execMovLdb x w s
  | .movStb x w => Sys2Proof.Machine.execMovStb x w s
  | .movSpcpy x w => Sys2Proof.Machine.execMovSpcpy x w s
  | .movFill x w => Sys2Proof.Machine.execMovFill x w s
  | .movPref x w => Sys2Proof.Machine.execMovPref x w s
  | .matFwd x w => Sys2Proof.Machine.execMatFwd x w s
  | .matDgrad x w => Sys2Proof.Machine.execMatDgrad x w s
  | .matWgrad x w => Sys2Proof.Machine.execMatWgrad x w s
  | .matWgradm x w => Sys2Proof.Machine.execMatWgradm x w s
  | .matDrain x w => Sys2Proof.Machine.execMatDrain x w s
  | .matClear x w => Sys2Proof.Machine.execMatClear x w s
  | .matPdrain x w => Sys2Proof.Machine.execMatPdrain x w s
  | .matCombine x w => Sys2Proof.Machine.execMatCombine x w s
  | .vecAdd x w => Sys2Proof.Machine.execVecAdd x w s
  | .vecSub x w => Sys2Proof.Machine.execVecSub x w s
  | .vecMul x w => Sys2Proof.Machine.execVecMul x w s
  | .vecFma x w => Sys2Proof.Machine.execVecFma x w s
  | .vecMax x w => Sys2Proof.Machine.execVecMax x w s
  | .vecMin x w => Sys2Proof.Machine.execVecMin x w s
  | .vecAbs x w => Sys2Proof.Machine.execVecAbs x w s
  | .vecMuli x w => Sys2Proof.Machine.execVecMuli x w s
  | .vecAddi x w => Sys2Proof.Machine.execVecAddi x w s
  | .vecSel x w => Sys2Proof.Machine.execVecSel x w s
  | .vecExp2 x w => Sys2Proof.Machine.execVecExp2 x w s
  | .vecLog2 x w => Sys2Proof.Machine.execVecLog2 x w s
  | .vecRcp x w => Sys2Proof.Machine.execVecRcp x w s
  | .vecRsqrt x w => Sys2Proof.Machine.execVecRsqrt x w s
  | .vecRsum x w => Sys2Proof.Machine.execVecRsum x w s
  | .vecRmax x w => Sys2Proof.Machine.execVecRmax x w s
  | .vecRamax x w => Sys2Proof.Machine.execVecRamax x w s
  | .vecCvt x w => Sys2Proof.Machine.execVecCvt x w s
  | .vecOptaw x w => Sys2Proof.Machine.execVecOptaw x w s
  | .vecOptms x w => Sys2Proof.Machine.execVecOptms x w s
  | .attFwd x w => Sys2Proof.Machine.execAttFwd x w s
  | .attBwd x w => Sys2Proof.Machine.execAttBwd x w s
  | .synSignal x w => Sys2Proof.Machine.execSynSignal x w s
  | .synWait x w => Sys2Proof.Machine.execSynWait x w s
  | .synSet x w => Sys2Proof.Machine.execSynSet x w s
  | .arcRscat x w => Sys2Proof.Machine.execArcRscat x w s
  | .arcAgath x w => Sys2Proof.Machine.execArcAgath x w s
  | .arcAred x w => Sys2Proof.Machine.execArcAred x w s
  | .arcSend x w => Sys2Proof.Machine.execArcSend x w s
  | .arcRecv x w => Sys2Proof.Machine.execArcRecv x w s
  | .arcCirc x w => Sys2Proof.Machine.execArcCirc x w s
  | .arcOvor x w => Sys2Proof.Machine.execArcOvor x w s
  | .hodPin x w => Sys2Proof.Machine.execHodPin x w s
  | .hodUnpin x w => Sys2Proof.Machine.execHodUnpin x w s
  | .hodPromote x w => Sys2Proof.Machine.execHodPromote x w s
  | .hodDemote x w => Sys2Proof.Machine.execHodDemote x w s
  | .hodDrop x w => Sys2Proof.Machine.execHodDrop x w s
  | .hodAppend x w => Sys2Proof.Machine.execHodAppend x w s
  | .hodTrim x w => Sys2Proof.Machine.execHodTrim x w s
  | .numRd x w => Sys2Proof.Machine.execNumRd x w s
  | .numStepupd x w => Sys2Proof.Machine.execNumStepupd x w s
  | .numStepbegin x w => Sys2Proof.Machine.execNumStepbegin x w s
  | .ingOpen x w => Sys2Proof.Machine.execIngOpen x w s
  | .ingDecode x w => Sys2Proof.Machine.execIngDecode x w s
  | .ingClose x w => Sys2Proof.Machine.execIngClose x w s
  | .operationStart k u => Sys2Proof.Machine.execOperationStart k u s
  | .longOpComplete id ds => Sys2Proof.Machine.execLongOpComplete id ds s
  | .contextSwitch k => Sys2Proof.Machine.execContextSwitch k s
  | .contextQuantum k => Sys2Proof.Machine.execContextQuantum k s
  | .waitDelayExpiry x => Sys2Proof.Machine.execWaitDelayExpiry x s
  | .coreWdog k => Sys2Proof.Machine.execCoreWdog k s
  | .pageExhausted id => Sys2Proof.Machine.execPageExhausted id s
  | .hodMoveComplete o ds => Sys2Proof.Machine.execHodMoveComplete o ds s
  | .recoveryComplete o => Sys2Proof.Machine.execRecoveryComplete o s
  | .softRepair row => Sys2Proof.Machine.execSoftRepair row s
  | .regionEmpty region => Sys2Proof.Machine.execRegionEmpty region s
  | .scrub row ds => Sys2Proof.Machine.execScrub row ds s
  | .refresh stack => Sys2Proof.Machine.execRefresh stack s
  | .footingTempReading temps => Sys2Proof.Machine.execFootingTempReading temps s
  | .flitReceive port f => Sys2Proof.Machine.execFlitReceive port f s
  | .nakReceived port seq => Sys2Proof.Machine.execNakReceived port seq s
  | .linkLossOfLock port => Sys2Proof.Machine.execLinkLossOfLock port s
  | .linkRetrainDone port r => Sys2Proof.Machine.execLinkRetrainDone port r s
  | .sendArrival m => Sys2Proof.Machine.execSendArrival m s
  | .circulationArrival m => Sys2Proof.Machine.execCirculationArrival m s
  | .reductionPartialArrival m => Sys2Proof.Machine.execReductionPartialArrival m s
  | .gatherArrival m => Sys2Proof.Machine.execGatherArrival m s
  | .orContributionArrival m => Sys2Proof.Machine.execOrContributionArrival m s
  | .orDelivery => Sys2Proof.Machine.execOrDelivery s
  | .remoteSignalArrival m => Sys2Proof.Machine.execRemoteSignalArrival m s
  | .completionArrival m => Sys2Proof.Machine.execCompletionArrival m s
  | .peerReadRequest m => Sys2Proof.Machine.execPeerReadRequest m s
  | .peerData m => Sys2Proof.Machine.execPeerData m s
  | .epochMarker pair vc epoch => Sys2Proof.Machine.execEpochMarker pair vc epoch s
  | .decodeStart e => Sys2Proof.Machine.execDecodeStart e s
  | .decodeComplete e ds => Sys2Proof.Machine.execDecodeComplete e ds s
  | .qryWdog e => Sys2Proof.Machine.execQryWdog e s
  | .create e => Sys2Proof.Machine.execCreate e s
  | .destroy e => Sys2Proof.Machine.execDestroy e s
  | .promote e => Sys2Proof.Machine.execPromote e s
  | .demote e => Sys2Proof.Machine.execDemote e s
  | .registerClass e => Sys2Proof.Machine.execRegister e s
  | .codeLoad e => Sys2Proof.Machine.execCodeLoad e s
  | .jobStart e reports => Sys2Proof.Machine.execJobStart e reports s
  | .preempt e => Sys2Proof.Machine.execPreempt e s
  | .resume e => Sys2Proof.Machine.execResume e s
  | .jobStop e => Sys2Proof.Machine.execJobStop e s
  | .restore e => Sys2Proof.Machine.execRestore e s
  | .restoreBarrier others => Sys2Proof.Machine.execRestoreBarrier others s
  | .sourceDone e => Sys2Proof.Machine.execSourceDone e s
  | .continueJob e => Sys2Proof.Machine.execContinueJob e s
  | .startEntry r e => Sys2Proof.Machine.execStart r e s
  | .startDispatch r => Sys2Proof.Machine.execStartDispatch r s
  | .doorbell r v => Sys2Proof.Machine.execDoorbell r v s
  | .ringEnable r v => Sys2Proof.Machine.execRingEnable r v s
  | .ringDisable r v => Sys2Proof.Machine.execRingDisable r v s
  | .cqHeadWrite r v => Sys2Proof.Machine.execCqHeadWrite r v s
  | .hodEntrySel v => Sys2Proof.Machine.execHodEntrySel v s
  | .ldgReadSel v => Sys2Proof.Machine.execLdgReadSel v s
  | .injectionArm v => Sys2Proof.Machine.execInjectionArm v s
  | .kstDebugSet c v => Sys2Proof.Machine.execKstDebugSet c v s
  | .w1cClear addr v events => Sys2Proof.Machine.execW1cClear addr v events s
  | .registerWrite q addr size v => Sys2Proof.Machine.execRegisterWrite q addr size v s
  | .bar2Read w off len ds => Sys2Proof.Machine.execBar2Read w off len ds s
  | .bar2Write w off data => Sys2Proof.Machine.execBar2Write w off data s
  | .bar2ReadTimeout id => Sys2Proof.Machine.execBar2ReadTimeout id s
  | .configRequest => Sys2Proof.Machine.execConfigRequest s
  | .functionLevelReset => Sys2Proof.Machine.execFunctionLevelReset s
  | .perstN => Sys2Proof.Machine.execPerstN s
  | .captureQuiescent => Sys2Proof.Machine.execCaptureQuiescent s
  | .captureBarrier others => Sys2Proof.Machine.execCaptureBarrier others s
  | .captureEndBarrier => Sys2Proof.Machine.execCaptureEndBarrier s
  | .prsQuiesceTimeout => Sys2Proof.Machine.execPrsQuiesceTimeout s
  | .cairnDrainComplete readable => Sys2Proof.Machine.execCairnDrainComplete readable s
  | .replayVerdict others => Sys2Proof.Machine.execReplayVerdict others s
  | .msnWdog m => Sys2Proof.Machine.execMsnWdog m s
  | .budgetRefill => Sys2Proof.Machine.execBudgetRefill s
  | .forcedFlush => Sys2Proof.Machine.execForcedFlush s
  | .ledgerDrop => Sys2Proof.Machine.execLedgerDrop s
  | .powerOn calibration unreadable => Sys2Proof.Machine.execPowerOn calibration unreadable s
  | .sealBoot => Sys2Proof.Machine.execSealBoot s
  | .masonStart => Sys2Proof.Machine.execMasonStart s
  | .computeRailUp failed => Sys2Proof.Machine.execComputeRailUp failed s
  | .coreGroupEnable => Sys2Proof.Machine.execCoreGroupEnable s
  | .footingTraining lanes failedStacks => Sys2Proof.Machine.execFootingTraining lanes failedStacks s
  | .undercroftTraining ok => Sys2Proof.Machine.execUndercroftTraining ok s
  | .patternTestDone regions => Sys2Proof.Machine.execPatternTestDone regions s
  | .repairReplay failing => Sys2Proof.Machine.execRepairReplay failing s
  | .linkTraining r => Sys2Proof.Machine.execLinkTraining r s
  | .hodInit => Sys2Proof.Machine.execHodInit s
  | .moduleReady => Sys2Proof.Machine.execModuleReady s
  | .supplyWarn volts => Sys2Proof.Machine.execSupplyWarn volts s
  | .warningReleased => Sys2Proof.Machine.execWarningReleased s
  | .supplyRecoveryDone => Sys2Proof.Machine.execSupplyRecoveryDone s
  | .supplyFail volts => Sys2Proof.Machine.execSupplyFail volts s
  | .alwaysOnLost => Sys2Proof.Machine.execAlwaysOnLost s
  | .plnRailFail rail => Sys2Proof.Machine.execPlnRailFail rail s
  | .plnPllUnlock => Sys2Proof.Machine.execPlnPllUnlock s
  | .droopDetect g => Sys2Proof.Machine.execDroopDetect g s
  | .arrayRampWindow k a => Sys2Proof.Machine.execArrayRampWindow k a s
  | .sensorReading temps vin watts => Sys2Proof.Machine.execSensorReading temps vin watts s
  | .endpointIdAssign bus eid => Sys2Proof.Machine.execEndpointIdAssign bus eid s
  | .getVersion bus => Sys2Proof.Machine.execGetVersion bus s
  | .getCapabilities bus => Sys2Proof.Machine.execGetCapabilities bus s
  | .negotiateAlgorithms bus => Sys2Proof.Machine.execNegotiateAlgorithms bus s
  | .getDigests bus => Sys2Proof.Machine.execGetDigests bus s
  | .getCertificate bus slot off len => Sys2Proof.Machine.execGetCertificate bus slot off len s
  | .challenge bus nonce => Sys2Proof.Machine.execChallenge bus nonce s
  | .getMeasurements bus index nonce => Sys2Proof.Machine.execGetMeasurements bus index nonce s
  | .keyExchange bus => Sys2Proof.Machine.execKeyExchange bus s
  | .pskExchange bus => Sys2Proof.Machine.execPskExchange bus s
  | .spdmSigningDone => Sys2Proof.Machine.execSpdmSigningDone s
  | .firmwareUpdateWrite component image => Sys2Proof.Machine.execFirmwareUpdateWrite component image s
  | .verifyComplete => Sys2Proof.Machine.execVerifyComplete s
  | .activateFirmware => Sys2Proof.Machine.execActivateFirmware s
  | .pldmSensorRead bus w reading => Sys2Proof.Machine.execPldmSensorRead bus w reading s
  | .nonceRequest bus => Sys2Proof.Machine.execNonceRequest bus s
  | .debugToken bus token => Sys2Proof.Machine.execDebugToken bus token s
  | .calibrationRead bus => Sys2Proof.Machine.execCalibrationRead bus s
  | .calibrationWrite bus c => Sys2Proof.Machine.execCalibrationWrite bus c s
  | .ledgerReadMessage bus seq => Sys2Proof.Machine.execLedgerReadMessage bus seq s
  | .debugPortAccess a => Sys2Proof.Machine.execDebugPortAccess a s
  | .warningWindowExpiry => Sys2Proof.Machine.execWarningWindowExpiry s
  | .ledgerFlashProgramDone ok => Sys2Proof.Machine.execLedgerFlashProgramDone ok s
  | .pcieLinkTraining width speed => Sys2Proof.Machine.execPcieLinkTraining width speed s

end Sys2Proof.Machine
end

