-- ==== Sys2Proof/Machine/Step.lean ====
section
/-! DEFINITION. The step: the command at the front of the queue, or one compute clock when none waits. -/

namespace Sys2Proof.Machine

/-- An idle clock: PLN_CCLK counts while the root PLL is locked (R418). -/
def State.idle (s : State) : State := if s.pln.lock then ({ s with pln := { s.pln with cclk := s.pln.cclk + 1 } }).onTick else s

def step (s : State) : Host.Outcome State Fault Refusal :=
  match s.pending with
  | [] => .next s.idle
  | c :: rest => exec c { s with pending := rest }

/-- The command that a word of the table's bits spells, put at the front of the queue. -/
def State.withFetchWord (s : State) (nbits w : Nat) : State :=
  match decodeTableWord nbits w with
  | some c => { s with pending := c :: s.pending }
  | none => s

end Sys2Proof.Machine
end

