-- ==== Sys2Proof/WellFormed.lean ====
section
/-! DEFINITION. Well-formed commands: the ranges that the operand types do not carry already. Every width of a field of a register, an entry or
an instruction word is in its type; an entry or word that the module rejects is a well-formed command. -/

namespace Sys2Proof

/-- A region of footing, or from 2^20 on of the undercroft (R243, R278). -/
def regionWf (r : Nat) : Bool := decide (r < 393216) || (decide (2 ^ 20 ≤ r) && decide (r < 2 ^ 20 + 524288))

/-- Software clears a 32-bit register of BAR 0, or the alert by PLDM (R9, R402). -/
def W1cAt.wf : W1cAt → Bool
  | .bar0 addr => decide (addr % 4 = 0) && decide (addr < 2 ^ 26)
  | .pldm => true

/-- A detection names a word of the module: local addresses (R19), scratchpad and accumulator offsets (R97, R101), and blocks of an object of at
most 2^40 bytes. -/
def Detect.wf : Detect → Bool
  | .spad _ a => decide (a < 2 ^ 24)
  | .mtrCorr a => decide (a < 2 ^ 50)
  | .mtrClean a => decide (a < 2 ^ 50)
  | .mtrDirty a _ b => decide (a < 2 ^ 50) && decide (b < 2 ^ 28)
  | .mtrCombine a => decide (a < 2 ^ 50)
  | .ftgCorr _ a => decide (a < 393216 * 2 ^ 21)
  | .ftgUncorr a _ b => decide (a < 393216 * 2 ^ 21) && decide (b < 2 ^ 28)
  | .ucfCorr a => decide (2 ^ 40 ≤ a) && decide (a < 2 ^ 41)
  | .ucfUncorr a _ b => decide (2 ^ 40 ≤ a) && decide (a < 2 ^ 41) && decide (b < 2 ^ 28)
  | .side a _ => inSide a
  | .csum _ b => decide (b < 2 ^ 28)
  | .csumTwice _ b => decide (b < 2 ^ 28)
  | .flash seq => decide (seq < 2 ^ 64)

/-- A message of a kind (R298). -/
def Msg.wf (m : Msg) (kind : Nat) : Bool := m.kind == kind && decide (m.data.length ≤ 262144) && decide (m.off < 2 ^ 40) && decide (m.len < 2 ^ 40)

/-- A neighbour's positions lie in rings of at most 1,024 modules (R294). -/
def Neighbour.wf (n : Neighbour) : Bool := n.pos.toList.all (fun p => decide (p < 1024))

/-- A register access of 4 or 8 bytes, aligned (R449). -/
def PortAccess.wf : PortAccess → Bool
  | .readReg a n => (n == 4 || n == 8) && decide (a % n = 0) && decide (a + n ≤ 2 ^ 26)
  | .writeReg a n _ => (n == 4 || n == 8) && decide (a % n = 0) && decide (a + n ≤ 2 ^ 26)
  | .readPhys _ => true
  | .writePhys _ _ => true

/-- A well-formed finding of a page of cairn flash that cannot be read. -/
def Detect.inFlash (d : Detect) : Bool := d.wf && (match d with | .flash _ => true | _ => false)

/-- An instruction word with what its fetch meets. -/
def Ins.wf (i : Ins) : Bool := i.found.all Detect.wf

/-- Well-formed commands. -/
def Instr.wf (c : Instr) : Bool :=
  match c with
  | .ctlNop _ i => i.wf
  | .ctlBr _ i => i.wf
  | .ctlBrx _ i => i.wf
  | .ctlCall _ i => i.wf
  | .ctlLoop _ i => i.wf
  | .ctlYield _ i => i.wf
  | .ctlDrain _ i => i.wf
  | .ctlEnd _ i => i.wf
  | .scaAdd _ i => i.wf
  | .scaSub _ i => i.wf
  | .scaMul _ i => i.wf
  | .scaMaddi _ i => i.wf
  | .scaAnd _ i => i.wf
  | .scaOr _ i => i.wf
  | .scaXor _ i => i.wf
  | .scaShl _ i => i.wf
  | .scaShr _ i => i.wf
  | .scaSar _ i => i.wf
  | .scaMin _ i => i.wf
  | .scaMax _ i => i.wf
  | .scaMinu _ i => i.wf
  | .scaMaxu _ i => i.wf
  | .scaCmpeq _ i => i.wf
  | .scaCmpne _ i => i.wf
  | .scaCmplt _ i => i.wf
  | .scaCmple _ i => i.wf
  | .scaCmpltu _ i => i.wf
  | .scaCmpleu _ i => i.wf
  | .scaPand _ i => i.wf
  | .scaPor _ i => i.wf
  | .scaPxor _ i => i.wf
  | .scaPnot _ i => i.wf
  | .scaLi _ i => i.wf
  | .scaId _ i => i.wf
  | .scaLd _ i _ => i.wf
  | .scaSt _ i => i.wf
  | .scaFadd32 _ i => i.wf
  | .scaFmul32 _ i => i.wf
  | .scaFfma32 _ i => i.wf
  | .scaI2f32 _ i => i.wf
  | .scaF2i32 _ i => i.wf
  | .scaSetimm _ i => i.wf
  | .movLdt _ i => i.wf
  | .movStt _ i => i.wf
  | .movLdb _ i => i.wf
  | .movStb _ i => i.wf
  | .movSpcpy _ i => i.wf
  | .movFill _ i => i.wf
  | .movPref _ i => i.wf
  | .matFwd _ i => i.wf
  | .matDgrad _ i => i.wf
  | .matWgrad _ i => i.wf
  | .matWgradm _ i => i.wf
  | .matDrain _ i => i.wf
  | .matClear _ i => i.wf
  | .matPdrain _ i => i.wf
  | .matCombine _ i => i.wf
  | .vecAdd _ i => i.wf
  | .vecSub _ i => i.wf
  | .vecMul _ i => i.wf
  | .vecFma _ i => i.wf
  | .vecMax _ i => i.wf
  | .vecMin _ i => i.wf
  | .vecAbs _ i => i.wf
  | .vecMuli _ i => i.wf
  | .vecAddi _ i => i.wf
  | .vecSel _ i => i.wf
  | .vecExp2 _ i => i.wf
  | .vecLog2 _ i => i.wf
  | .vecRcp _ i => i.wf
  | .vecRsqrt _ i => i.wf
  | .vecRsum _ i => i.wf
  | .vecRmax _ i => i.wf
  | .vecRamax _ i => i.wf
  | .vecCvt _ i => i.wf
  | .vecOptaw _ i => i.wf
  | .vecOptms _ i => i.wf
  | .attFwd _ i => i.wf
  | .attBwd _ i => i.wf
  | .synSignal _ i => i.wf
  | .synWait _ i => i.wf
  | .synSet _ i => i.wf
  | .arcRscat _ i => i.wf
  | .arcAgath _ i => i.wf
  | .arcAred _ i => i.wf
  | .arcSend _ i => i.wf
  | .arcRecv _ i => i.wf
  | .arcCirc _ i => i.wf
  | .arcOvor _ i => i.wf
  | .hodPin _ i => i.wf
  | .hodUnpin _ i => i.wf
  | .hodPromote _ i => i.wf
  | .hodDemote _ i => i.wf
  | .hodDrop _ i => i.wf
  | .hodAppend _ i => i.wf
  | .hodTrim _ i => i.wf
  | .numRd _ i => i.wf
  | .numStepupd _ i => i.wf
  | .numStepbegin _ i => i.wf
  | .ingOpen _ i => i.wf
  | .ingDecode _ i => i.wf
  | .ingClose _ i => i.wf
  | .operationStart _ u => u.found.all Detect.wf
  | .longOpComplete _ ds => ds.all Detect.wf
  | .contextSwitch .. => true
  | .contextQuantum .. => true
  | .waitDelayExpiry .. => true
  | .coreWdog .. => true
  | .pageExhausted _ => true
  | .hodMoveComplete _ ds => ds.all Detect.wf
  | .recoveryComplete o => o.found.all Detect.wf
  | .softRepair row => row.found.all Detect.wf
  | .regionEmpty region => regionWf region
  | .scrub _ ds => ds.all Detect.wf
  | .refresh .. => true
  | .footingTempReading .. => true
  | .flitReceive _ f => decide (f.payload.length = 248)
  | .nakReceived .. => true
  | .linkLossOfLock .. => true
  | .linkRetrainDone .. => true
  | .sendArrival m => m.wf 0
  | .circulationArrival m => m.wf 1
  | .reductionPartialArrival m => m.of.wf 2 && m.found.all Detect.wf
  | .gatherArrival m => m.wf 3
  | .orContributionArrival m => m.wf 4
  | .orDelivery => true
  | .remoteSignalArrival m => m.wf 5
  | .completionArrival m => m.wf 8
  | .peerReadRequest m => m.of.wf 6 && m.found.all Detect.wf
  | .peerData m => m.wf 7
  | .epochMarker .. => true
  | .decodeStart .. => true
  | .decodeComplete _ ds => ds.all Detect.wf
  | .qryWdog .. => true
  | .create .. => true
  | .destroy .. => true
  | .promote .. => true
  | .demote .. => true
  | .registerClass .. => true
  | .codeLoad .. => true
  | .jobStart _ reports => reports.all Neighbour.wf
  | .preempt .. => true
  | .resume .. => true
  | .jobStop .. => true
  | .restore e => e.found.all Detect.inFlash
  | .restoreBarrier others => decide (others.of.length ≤ 16383) && others.found.all Detect.inFlash
  | .sourceDone .. => true
  | .continueJob .. => true
  | .startEntry .. => true
  | .startDispatch .. => true
  | .doorbell .. => true
  | .ringEnable .. => true
  | .ringDisable .. => true
  | .cqHeadWrite .. => true
  | .hodEntrySel .. => true
  | .ldgReadSel .. => true
  | .injectionArm .. => true
  | .kstDebugSet .. => true
  | .w1cClear at_ _ _ => at_.wf
  | .registerWrite _ addr size _ => (size == 4 || size == 8) && decide (addr % size = 0) && decide (addr + size ≤ 2 ^ 26)
  | .bar2Read _ off len ds => decide (0 < len) && decide (off.val + len ≤ 2 ^ 30) && decide (len ≤ 4096) && ds.all Detect.wf
  | .bar2Write _ off data => !data.of.bytes.isEmpty && decide (off.val + data.of.bytes.length ≤ 2 ^ 30) && decide (data.of.bytes.length ≤ 4096) && data.found.all Detect.wf
  | .bar2ReadTimeout .. => true
  | .configRequest => true
  | .functionLevelReset => true
  | .perstN => true
  | .captureQuiescent => true
  | .captureBarrier others => decide (others.of.length ≤ 16383) && others.found.all Detect.wf
  | .captureEndBarrier => true
  | .prsQuiesceTimeout => true
  | .cairnDrainComplete .. => true
  | .replayVerdict others => decide (others.length ≤ 16383)
  | .msnWdog .. => true
  | .budgetRefill => true
  | .forcedFlush => true
  | .ledgerDrop => true
  | .powerOn .. => true
  | .sealBoot => true
  | .masonStart => true
  | .computeRailUp failed => decide failed.Nodup
  | .coreGroupEnable => true
  | .footingTraining _ ftgStacks => decide ftgStacks.Nodup
  | .undercroftTraining .. => true
  | .patternTestDone regions => decide (regions.map Prod.fst).Nodup
  | .repairReplay failing => decide failing.Nodup
  | .linkTraining .. => true
  | .hodInit => true
  | .moduleReady => true
  | .supplyWarn .. => true
  | .warningReleased => true
  | .supplyRecoveryDone => true
  | .supplyFail .. => true
  | .alwaysOnLost => true
  | .plnRailFail .. => true
  | .plnPllUnlock => true
  | .droopDetect .. => true
  | .arrayRampWindow .. => true
  | .sensorReading temps _ _ => temps.toList.all (fun t => match t with | some v => decide (-32768 ≤ v) && decide (v ≤ 32767) | none => true)
  | .endpointIdAssign .. => true
  | .getVersion .. => true
  | .getCapabilities .. => true
  | .negotiateAlgorithms .. => true
  | .getDigests .. => true
  | .getCertificate _ slot _ len => decide (slot < 8) && decide (len ≤ 65535)
  | .challenge .. => true
  | .getMeasurements _ index _ => decide (index < 256)
  | .keyExchange .. => true
  | .pskExchange .. => true
  | .spdmSigningDone => true
  | .firmwareUpdateWrite component image => decide (0 < component.val) && decide (image.length ≤ 8192 + 2 ^ 24)
  | .verifyComplete => true
  | .activateFirmware => true
  | .pldmSensorRead .. => true
  | .nonceRequest .. => true
  | .debugToken .. => true
  | .calibrationRead .. => true
  | .calibrationWrite .. => true
  | .ledgerReadMessage .. => true
  | .debugPortAccess a => a.wf
  | .warningWindowExpiry => true
  | .ledgerFlashProgramDone .. => true
  | .pcieLinkTraining .. => true

end Sys2Proof
end

