-- ==== Sys2Proof/Safety.lean ====
section
/-! DEFINITION. The terms that claims are stated in: the issue of an instruction without a check that stops it, states that differ only in which
contexts are selected, the canonical form of the memories, and safe runs. -/

namespace Sys2Proof.Machine

/-- Checks 1 to 5 of R117 let context `x` issue `i`, nothing holds the issue, its fetch finds nothing, and no armed point makes a check of it report. -/
structure State.Admits (s : State) (x : Fin 512) (i : Ins) : Prop where
  running : (s.ctx x).st = .running
  core : s.canIssue (coreOf x) = true
  noFault : (s.ctx x).asyncFlt = none
  held : s.opHeld x = false
  waits : s.opWaits x = false
  fetch : s.fetchHeld x = false
  text : s.inText x (s.ctx x).pc.toNat = true
  verifies : s.readIns x i = (false, s)
  point : s.injArmed evIllegalEncoding (srcOf 0x01 x) = false
  defined : s.undefinedWord x = false
  reserved : i.rsv = 0
  psel : i.psel ≠ 8

/-- Checks 1 to 6 of R117 let it issue, and its predicate is true. -/
structure State.Issues (s : State) (x : Fin 512) (i : Ins) : Prop extends s.Admits x i where
  predicate : (s.ctx x).executes i = true
  bounds : s.injArmed evBoundsFault (srcOf 0x01 x) = false

/-- Checks 1 to 6 let it issue, and its predicate is false (R121). -/
structure State.Skips (s : State) (x : Fin 512) (i : Ins) : Prop extends s.Admits x i where
  predicate : (s.ctx x).executes i = false

/-- The control and scalar instructions with the fields of `i`, each with what checks 4 and 5 ask of its word. -/
def controlWords (x : Fin 512) (i : Ins) : List (Bool × Instr) :=
  [(ctlNopWord i, .ctlNop x i), (ctlNopWord i, .ctlYield x i), (ctlNopWord i, .ctlDrain x i), (ctlNopWord i, .ctlEnd x i), (ctlBrWord i, .ctlBr x i),
    (ctlBrxWord i, .ctlBrx x i), (ctlCallWord i, .ctlCall x i), (ctlLoopWord i, .ctlLoop x i)]

/-- The instructions of two or three scalar sources and a scalar destination. -/
def arithmetic (x : Fin 512) (i : Ins) : List Instr :=
  [.scaAdd x i, .scaSub x i, .scaMul x i, .scaAnd x i, .scaOr x i, .scaXor x i, .scaShl x i, .scaShr x i, .scaSar x i, .scaMin x i, .scaMax x i,
    .scaMinu x i, .scaMaxu x i, .scaFadd32 x i, .scaFmul32 x i, .scaFfma32 x i]

/-- The scalar comparisons. -/
def comparisons (x : Fin 512) (i : Ins) : List Instr :=
  [.scaCmpeq x i, .scaCmpne x i, .scaCmplt x i, .scaCmple x i, .scaCmpltu x i, .scaCmpleu x i]

/-- The other scalar instructions, the synchronisation instructions and NUM.RD, with the same checks. -/
def scalarWords (x : Fin 512) (i : Ins) : List (Bool × Instr) :=
  [(predWord i true, .scaPand x i), (predWord i true, .scaPor x i), (predWord i true, .scaPxor x i), (predWord i false, .scaPnot x i),
    (scaWord i true true true false .required, .scaMaddi x i), (scaWord i true false false false .required, .scaLi x i),
    (scaWord i true false false false .unused, .scaId x i), (scaWord i true true false false .required, .scaLd x i .ok),
    (scaWord i false true true false .required, .scaSt x i), (scaWord i true true false false .unused, .scaI2f32 x i),
    (scaWord i true true false false .unused, .scaF2i32 x i), (scaWord i false true false false .unused, .scaSetimm x i),
    (synWord (coreOf x) i true && (!synRemote i || remoteName (coreOf x) i), .synSignal x i), (synWord (coreOf x) i false, .synWait x i),
    (synWord (coreOf x) i false && ownName x i, .synSet x i), (numRdWord i, .numRd x i)]

/-- The short instructions with the fields of `i`, each with what checks 4 and 5 ask of its word. -/
def shortWords (x : Fin 512) (i : Ins) : List (Bool × Instr) :=
  controlWords x i ++ (arithmetic x i).map (fun c => (scaWord i true true true false .b, c))
    ++ (comparisons x i).map (fun c => (scaWord i false true true true .b, c)) ++ scalarWords x i

/-- MOV, MAT and ATT with the fields of `i`, each with what checks 4 and 5 ask of its word beside its signal. -/
def tensorWords (x : Fin 512) (i : Ins) : List (Bool × Instr) :=
  [(movTileWord i, .movLdt x i), (movTileWord i, .movStt x i), (movBlockWord i true true, .movLdb x i), (movBlockWord i true true, .movStb x i),
    (movBlockWord i true false, .movSpcpy x i), (movBlockWord i true false, .movFill x i), (movBlockWord i false true, .movPref x i),
    (matProductWord .matFwd i, .matFwd x i), (matProductWord .matDgrad i, .matDgrad x i), (matProductWord .matWgrad i, .matWgrad x i),
    (matProductWord .matWgradm i, .matWgradm x i), (matDrainWord i, .matDrain x i), (matClearWord i, .matClear x i),
    (matSplitWord false i, .matPdrain x i), (matSplitWord true i, .matCombine x i), (attWord false i, .attFwd x i), (attWord true i, .attBwd x i)]

/-- VEC, with the same checks. -/
def vectorWords (x : Fin 512) (i : Ins) : List (Bool × Instr) :=
  [(vecWord (vecForm .vecAdd) i, .vecAdd x i), (vecWord (vecForm .vecSub) i, .vecSub x i), (vecWord (vecForm .vecMul) i, .vecMul x i),
    (vecWord (vecForm .vecFma) i, .vecFma x i), (vecWord (vecForm .vecMax) i, .vecMax x i), (vecWord (vecForm .vecMin) i, .vecMin x i),
    (vecWord (vecForm .vecAbs) i, .vecAbs x i), (vecWord (vecForm .vecMuli) i, .vecMuli x i), (vecWord (vecForm .vecAddi) i, .vecAddi x i),
    (vecWord (vecForm .vecSel) i, .vecSel x i), (vecWord (vecForm .vecExp2) i, .vecExp2 x i), (vecWord (vecForm .vecLog2) i, .vecLog2 x i),
    (vecWord (vecForm .vecRcp) i, .vecRcp x i), (vecWord (vecForm .vecRsqrt) i, .vecRsqrt x i), (vecWord (vecForm .vecRsum) i, .vecRsum x i),
    (vecWord (vecForm .vecRmax) i, .vecRmax x i), (vecWord (vecForm .vecRamax) i, .vecRamax x i), (vecCvtWord i, .vecCvt x i),
    (vecOptWord i, .vecOptaw x i), (vecOptWord i, .vecOptms x i)]

/-- HOD, ARC, NUM and ING, with the same checks. -/
def outboundWords (x : Fin 512) (i : Ins) : List (Bool × Instr) :=
  [(hodWord i false false false, .hodPin x i), (hodWord i false false false, .hodUnpin x i), (hodWord i false false true, .hodPromote x i),
    (hodWord i true false false, .hodDemote x i), (hodWord i false false false, .hodDrop x i), (hodWord i true true false, .hodAppend x i),
    (hodWord i true false false, .hodTrim x i), (arcWord .arcRscat i, .arcRscat x i), (arcWord .arcAgath i, .arcAgath x i),
    (arcWord .arcAred i, .arcAred x i), (arcWord .arcSend i, .arcSend x i), (arcWord .arcRecv i, .arcRecv x i), (arcWord .arcCirc i, .arcCirc x i),
    (arcWord .arcOvor i, .arcOvor x i), (numWord i, .numStepupd x i), (numWord i, .numStepbegin x i), (ingWord .ingOpen i, .ingOpen x i),
    (ingWord .ingDecode i, .ingDecode x i), (ingWord .ingClose i, .ingClose x i)]

/-- The long instructions with the fields of `i`, each with what checks 4 and 5 ask of its word. -/
def longWords (x : Fin 512) (i : Ins) : List (Bool × Instr) := 
  (tensorWords x i ++ vectorWords x i ++ outboundWords x i).map (fun p => (p.1 && i.sigOk (coreOf x), p.2))

/-- A long operation has room: the limits of R96 hold nothing. -/
abbrev State.Room (s : State) (x : Fin 512) (u : CoreUnit) : Prop := s.outstanding x < 16 ∧ s.queued (coreOf x) u < 32

/-- `t` is `s` but for the selection of contexts on the cores (R91, R92): a context's registers and counters are the same in both. -/
def State.Reselected (s t : State) : Prop :=
  t = { s with ctxs := t.ctxs, cores := t.cores }
    ∧ ∀ y, t.ctx y = { s.ctx y with st := (t.ctx y).st, wait := (t.ctx y).wait, issued := (t.ctx y).issued }

/-- No page is being recomputed (R225). -/
def State.NoRecompute (s : State) : Prop := ∀ p ∈ s.objs, p.2.recompute = none

/-- Nothing waits for an object or a fetch: no recompute, no context held on a fetch or on an operation. -/
structure State.Quiet (s : State) : Prop where
  recompute : s.NoRecompute
  fetch : ∀ x, (s.ctx x).wait ≠ .fetch
  held : ∀ x, s.opHeld x = false ∧ (s.ctx x).wait ≠ .held

/-- No injection point is armed (R441). -/
abbrev State.Unarmed (s : State) : Prop := s.ldg.injCtl.getLsbD 40 = false

/-- Command `c` answers a next state that is `u` but for the selection of contexts. -/
def State.Gives (s : State) (c : Instr) (u : State) : Prop := ∃ t, exec c s = .next t ∧ u.Reselected t

/-- Context `x` with `c` in place of what it holds, its program counter moved to the next instruction. -/
def State.past (s : State) (x : Nat) (c : Ctx) : State := s.setCtx x { c with pc := c.pc + 16 }

/-- Context `x` with `v` in scalar register `n` (s0 discards it), past its instruction. -/
def State.pastSreg (s : State) (x n : Nat) (v : W64) : State := s.past x ((s.ctx x).setSreg n v)

/-- Context `x` with `v` in predicate `n` (p0 discards it), past its instruction. -/
def State.pastPred (s : State) (x n : Nat) (v : Bool) : State := s.past x ((s.ctx x).setPred n v)

/-- Context `x` with its program counter at `pc`. -/
def State.atPc (s : State) (x : Nat) (c : Ctx) (pc : W64) : State := s.setCtx x { c with pc := pc }

/-- `o` as it enters its unit's queue. -/
def State.entered (s : State) (x : Nat) (o : Op) : State :=
  { s with ops := s.ops ++ [{ o with id := s.nextOp, src := .ctx x, core := coreOf x, off := s.pcUnits x, st := .queued }], nextOp := s.nextOp + 1 }

/-- Context `x` past a long operation that has entered its queue as `o` with the signal and the word of `i`. -/
def State.pastLong (s : State) (x : Fin 512) (i : Ins) (o : Op) : State := (s.entered x { o with sig := i.sig, ins := i }).past x (s.ctx x)

/-- Command `c` is a long instruction of context `x` whose checks 1 to 7 raise nothing: it enters the queue of its unit as `o`. -/
def State.Enters (s : State) (x : Fin 512) (i : Ins) (c : Instr) (word : Bool) (faults : List Nat) (o : Op) : Prop :=
  word = true → faults = [] → s.Room x o.unit → s.Gives c (s.pastLong x i o)

/-- A message of the epoch in force has reached its destination in its turn, and no point is armed. -/
structure State.Arrives (s : State) (m : Msg) : Prop where
  epoch : m.epoch = s.kst.epoch
  dst : m.dst = s.arc.node
  inOrder : s.arc.heldIn.any (fun q => q.src == m.src && msgVc q == msgVc m) = false
  unarmed : s.Unarmed

/-- Mason can take entry `e` at the head of ring 0, and its opcode is `op` (R382). -/
structure State.Takes (s : State) (op : Nat) (e : BitVec 512) : Prop where
  free : s.ring0Free op = true
  entry : s.entryAt 0 (s.ring 0).head.toNat = some (entBytes e)
  opcode : entOp e = op

/-- The checks common to all entries of ring 0 let it run (R381), and no supply warning holds it. -/
structure State.Accepts (s : State) (op : Nat) (e : BitVec 512) : Prop extends s.Takes op e where
  head : entHead e = true
  zeros : entZeros op e = true
  ready : 8 ≤ s.pln.stage
  going : s.pln.stopped = false
  calm : s.warned = false

/-- The state after the fetch of `e` from ring 0. -/
def State.taken (s : State) (e : BitVec 512) : State := s.fetch 0 (entTag e) (entFlags e)

/-- The state after the fetch of `e` from ring 0 and its answer. -/
def State.answers (s : State) (e : BitVec 512) (status result : Nat) : State := (s.taken e).answer 0 (s.ring 0).head.toNat status result

/-- The W1C register `reg` at address `a` of BAR 0, of `n` bits (R7, R451). -/
inductive ClearReg : Nat → Nat → (State → W32) → Prop
  | core (p : Fin 68) : ClearReg (0x100010 + p.val * 0x10000) 11 (fun s => (s.slot p.val).fault)
  | mtr : ClearReg 0x600008 4 (fun s => s.mtr.fault)
  | ftg (i : Fin 8) : ClearReg (0x800008 + i.val * 0x10000) 5 (fun s => (s.stack i.val).fault)
  | ucf : ClearReg 0xA00008 3 (fun s => s.ucf.fault)
  | hod : ClearReg 0xB00008 4 (fun s => s.hod.fault)
  | lnk (p : Fin 16) : ClearReg (0xC00008 + p.val * 0x10000) 7 (fun s => (s.port p.val).fault)
  | arc : ClearReg 0xD00018 4 (fun s => s.arc.fault)
  | kst : ClearReg 0xE00008 3 (fun s => s.kst.fault)
  | msn : ClearReg 0x1000008 1 (fun s => s.msn.fault)
  | prs : ClearReg 0x1200008 7 (fun s => s.prs.fault)
  | qry : ClearReg 0x1300008 6 (fun s => s.qry.fault)
  | hif : ClearReg 0x1400008 3 (fun s => s.hif.fault)
  | ldg : ClearReg 0x1500008 3 (fun s => s.ldg.fault)
  | seal : ClearReg 0x1600008 3 (fun s => s.sealBlk.fault)
  | pln : ClearReg 0x1700008 6 (fun s => s.pln.fault)
  | gge : ClearReg 0x1800008 2 (fun s => s.gge.fault)
  | alert : ClearReg 0x1800010 3 (fun s => s.gge.alert)

/-- No request is held, on an object or on capacity. -/
def State.NoneHeld (s : State) : Prop := ∀ o ∈ s.ops, (∀ i a, o.st ≠ .heldObj i a) ∧ ∀ c p a, o.st ≠ .heldCap c p a

/-- A started operation of a context's outbound port completes, with nothing held and nothing that it reads or pins out of reach. -/
structure State.EndsOutbound (s : State) (id : Nat) (o : Op) : Prop where
  found : s.findOp id = some o
  number : o.id = id
  ctx : ∃ x, o.src = .ctx x
  started : o.st = .started
  unit : o.unit = .outbound
  quiet : s.Quiet
  none : s.NoneHeld
  unarmed : s.Unarmed
  reached : (s.refs o).all (s.reaches o.src) = true

/-- Accesses of the host reach BAR 0 and BAR 2 (R375, R423). -/
structure State.HostUp (s : State) : Prop where
  link : s.hif.down = false
  credits : s.stalled = false
  started : 2 ≤ s.pln.stage

/-- Gauge serves every message (R391, R400). -/
structure State.GaugeServes (s : State) : Prop where
  up : s.gaugeUp = true
  boot : s.sealBlk.bootFail = false

/-- The four memories are in canonical form. -/
abbrev State.MemoryWf (s : State) : Prop :=
  Mem.wf s.spad = true ∧ Mem.wf s.objMem = true ∧ Mem.wf s.phys = true ∧ Mem.wf s.hostMem = true

/-- The numbers of the operations in flight are numbers that have been given. -/
def State.Numbered (s : State) : Prop := ∀ o ∈ s.ops, o.id < s.nextOp

/-- The invariant of every step: canonical memories, and operations in flight by numbers that have been given. -/
structure State.Inv (s : State) : Prop where
  memory : s.MemoryWf
  numbered : s.Numbered

/-- A run that goes on for `n` steps. -/
def State.Runs (s : State) : Nat → Prop
  | 0 => True
  | n + 1 => ∃ t, step s = .next t ∧ t.Runs n

end Sys2Proof.Machine
end

