-- ==== Sys2Proof/Certificates/Slice0/Obligations.lean ====
section
/-! DEFINITION. The statements for the provers. -/

open Sys2Proof Sys2Proof.Machine

/-! ## The step -/

/-- A step takes the command at the front of the queue and runs it with the queue's rest. -/
def Obligations.StepRunsFront : Prop :=
  ∀ (c : Instr) (rest : List Instr) (s : State), step { s with pending := c :: rest } = exec c { s with pending := rest }

/-- On an empty queue the module idles for one compute clock: PLN_CCLK counts while the root PLL is locked, and nothing else changes where no access of the host, no
message and no trace record waits and no restore makes room. The idle step is the model's choice (assumption 1). -/
def Obligations.IdleCounts : Prop :=
  ∀ s : State, s.pending = [] →
    (s.pln.lock = false → step s = .next s)
    ∧ (s.pln.lock = true → s.hif.waiting = [] → s.arc.heldIn = [] → s.ldg.traceStaged = [] → (∀ img own left, s.prs.restore ≠ .table img own left) →
      step s = .next { s with pln := { s.pln with cclk := s.pln.cclk + 1 } })

/-- No command is refused and none stops the module: every command of every state answers a next state. -/
def Obligations.EveryCommandGoesOn : Prop := ∀ (c : Instr) (s : State), ∃ t, exec c s = .next t

/-- What reset leaves: every context IDLE, nothing started, every memory empty and canonical, the rings but the first disabled, no job, no operation and
an empty queue. -/
def Obligations.ResetState : Prop :=
  State.reset.pending = [] ∧ State.reset.MemoryWf ∧ State.reset.ops = [] ∧ State.reset.pln.stage = 0 ∧ State.reset.pln.lock = false
    ∧ State.reset.msn.job = false ∧ State.reset.msn.fw = false ∧ State.reset.sealBlk.booted = false ∧ State.reset.sealBlk.debug = false
    ∧ State.reset.pln.vmin = 0xFFFF ∧ State.reset.Inv
    ∧ (∀ x : Fin 512, (State.reset.ctx x).st = .idle) ∧ (∀ r : Fin 32, r ≠ 0 → (State.reset.ring r).en = false)
    ∧ State.reset.spad = [] ∧ State.reset.objMem = [] ∧ State.reset.phys = [] ∧ State.reset.hostMem = []

/-! ## Instruction words (R115, R118, R119) -/

/-- Decoding the word of a Photer instruction gives that instruction back, with every operand bit. -/
def Obligations.PhoterRoundTrip : Prop :=
  ∀ (c : Instr) (x : Fin 512) (w : BitVec 128), Photer.encode c = some (x, w) → ∃ e, Photer.decode x e w = some c

/-- A word that decodes is the word of the instruction it decodes to; a word of CLASS 0xB to 0xF decodes to none. -/
def Obligations.PhoterWords : Prop :=
  (∀ (c : Instr) (x : Fin 512) (e : Ecc) (w : BitVec 128), Photer.decode x e w = some c → Photer.encode c = some (x, w))
    ∧ ∀ (x : Fin 512) (e : Ecc) (w : BitVec 128), 0xB ≤ (w.extractLsb' 124 4).toNat → Photer.decode x e w = none

/-! ## Issue of an instruction (R107, R117, R121) -/

/-- An instruction whose predicate is false only moves its context on: no CTL, SCA, SYN or NUM.RD one has any other effect, and a long one signals its counter and
enters no queue. (What one does to a valid SETIMM latch is a statement of its own.) -/
def Obligations.FalsePredicate : Prop :=
  ∀ (x : Fin 512) (i : Ins) (s : State), s.Skips x i →
    (∀ p ∈ shortWords x i, p.1 = true → s.Gives p.2 (s.past x (s.ctx x)))
    ∧ ((s.ctx x).latchValid = false → s.injOvercommit x = false → ∀ p ∈ longWords x i, p.1 = true →
      s.Gives p.2 ((s.signalShort (coreOf x) i.sig).past x ((s.signalShort (coreOf x) i.sig).ctx x)))

/-- A word that checks 4 or 5 reject makes its context FAULTED at the instruction, whatever its predicate and whichever Photer instruction it is of; CORE_CTX_FLT holds
the code and the offset. -/
def Obligations.IllegalEncoding : Prop :=
  ∀ (x : Fin 512) (i : Ins) (s : State), s.Admits x i → s.NoRecompute → ∀ p ∈ shortWords x i ++ longWords x i, p.1 = false →
    ∃ t, exec p.2 s = .next t ∧ (t.ctx x).st = .faulted ∧ (t.ctx x).pc = (s.ctx x).pc
      ∧ ∀ p, s.slotOf (coreOf x) = some p → Tab.get 0 (t.slot p).flt (x.val % 8) = BitVec.ofNat 64 (0x0101 + (s.ctx x).pc.toNat / 16 * 2 ^ 16)

/-! ## CTL (R122 to R124) -/

/-- CTL.NOP does nothing; a branch inside the text region takes its context to its target; CALL links; LOOP counts down and falls through at zero. -/
def Obligations.CtlBranches : Prop :=
  ∀ (x : Fin 512) (i : Ins) (s : State), s.Issues x i →
    let c := s.ctx x
    let target := c.pc + BitVec.ofInt 64 (16 * signed 32 (i.at 31 0))
    let n := s.reg x (i.at 94 90) - 1
    (ctlNopWord i = true → s.Gives (.ctlNop x i) (s.past x c))
    ∧ (ctlBrWord i = true → s.inText x target.toNat = true → s.Gives (.ctlBr x i) (s.atPc x c target))
    ∧ (ctlBrxWord i = true → s.inText x (s.reg x (i.at 94 90)).toNat = true → s.Gives (.ctlBrx x i) (s.atPc x c (s.reg x (i.at 94 90))))
    ∧ (ctlCallWord i = true → s.inText x target.toNat = true →
        s.Gives (.ctlCall x i) (s.atPc x (c.setSreg (i.at 99 95) (c.pc + 16)) target))
    ∧ (ctlLoopWord i = true → n = 0 → s.Gives (.ctlLoop x i) (s.pastSreg x (i.at 94 90) 0))
    ∧ (ctlLoopWord i = true → n ≠ 0 → s.inText x target.toNat = true → s.Gives (.ctlLoop x i) (s.atPc x (c.setSreg (i.at 94 90) n) target))

/-- CTL.YIELD leaves its context past the instruction, the last that issued on its core, READY or selected again at once, and READY
where another READY context of its core has its priority or a higher one; CTL.DRAIN passes with no operation
outstanding and waits with one; CTL.END ends the context with none and holds it with one, and makes the latch invalid. -/
def Obligations.CtlHolds : Prop :=
  ∀ (x : Fin 512) (i : Ins) (s : State), s.Issues x i → ctlNopWord i = true →
    (∃ t, exec (.ctlYield x i) s = .next t ∧ (s.past x (s.ctx x)).Reselected t ∧ ((t.ctx x).st = .ready ∨ (t.ctx x).st = .running)
      ∧ (t.core (coreOf x)).last = some x.val
      ∧ ∀ y ∈ ctxsOf (coreOf x), y ≠ x.val → (s.ctx y).st = .ready → (s.ctx x).prio ≤ (s.ctx y).prio → (t.ctx x).st = .ready)
    ∧ (s.outstanding x = 0 → s.Gives (.ctlDrain x i) (s.past x (s.ctx x)))
    ∧ (s.outstanding x ≠ 0 → ∃ t, exec (.ctlDrain x i) s = .next t ∧ s.Reselected t ∧ (t.ctx x).st = .waiting ∧ (t.ctx x).wait = .drain)
    ∧ (s.outstanding x = 0 → s.NoRecompute → ∃ t, exec (.ctlEnd x i) s = .next t ∧ (t.ctx x).st = .idle ∧ (t.ctx x).latchValid = false
        ∧ (t.ctx x).sr = (s.ctx x).sr ∧ (t.ctx x).preds = (s.ctx x).preds ∧ (t.ctx x).ctr = (s.ctx x).ctr ∧ (∀ y, y ≠ x.val → (t.ctx y).pc = (s.ctx y).pc)
        ∧ t.objMem = s.objMem ∧ t.spad = s.spad ∧ t.acc = s.acc ∧ t.nsb = s.nsb ∧ t.ops = s.ops)
    ∧ (s.outstanding x ≠ 0 → ∃ t, exec (.ctlEnd x i) s = .next t ∧ (t.ctx x).st = .waiting ∧ (t.ctx x).wait = .ended ∧ (t.ctx x).latchValid = false
        ∧ (s.setCtx x { s.ctx x with latchValid := false }).Reselected t)

/-! ## SCA (R125 to R130) -/

/-- The integer operations on SA and b: 64-bit results that wrap, into SD alone. -/
def Obligations.ScaInteger : Prop :=
  ∀ (x : Fin 512) (i : Ins) (s : State), s.Issues x i → scaWord i true true true false .b = true →
    let a := s.reg x (i.at 94 90)
    let b := if i.flag 0 then BitVec.ofNat 64 (i.at 63 0) else s.reg x (i.at 89 85)
    let n := b.toNat % 64
    s.Gives (.scaAdd x i) (s.pastSreg x (i.at 99 95) (BitVec.ofNat 64 (a.toNat + b.toNat)))
    ∧ s.Gives (.scaSub x i) (s.pastSreg x (i.at 99 95) (BitVec.ofInt 64 ((a.toNat : Int) - b.toNat)))
    ∧ s.Gives (.scaMul x i) (s.pastSreg x (i.at 99 95) (BitVec.ofNat 64 (a.toNat * b.toNat)))
    ∧ s.Gives (.scaAnd x i) (s.pastSreg x (i.at 99 95) (a &&& b))
    ∧ s.Gives (.scaOr x i) (s.pastSreg x (i.at 99 95) (a ||| b))
    ∧ s.Gives (.scaXor x i) (s.pastSreg x (i.at 99 95) (a ^^^ b))
    ∧ s.Gives (.scaShl x i) (s.pastSreg x (i.at 99 95) (BitVec.ofNat 64 (a.toNat * 2 ^ n)))
    ∧ s.Gives (.scaShr x i) (s.pastSreg x (i.at 99 95) (BitVec.ofNat 64 (a.toNat / 2 ^ n)))
    ∧ s.Gives (.scaSar x i) (s.pastSreg x (i.at 99 95) (BitVec.ofInt 64 (a.toInt / 2 ^ n)))
    ∧ s.Gives (.scaMin x i) (s.pastSreg x (i.at 99 95) (if a.toInt ≤ b.toInt then a else b))
    ∧ s.Gives (.scaMax x i) (s.pastSreg x (i.at 99 95) (if a.toInt ≤ b.toInt then b else a))
    ∧ s.Gives (.scaMinu x i) (s.pastSreg x (i.at 99 95) (if a.toNat ≤ b.toNat then a else b))
    ∧ s.Gives (.scaMaxu x i) (s.pastSreg x (i.at 99 95) (if a.toNat ≤ b.toNat then b else a))

/-- The comparisons of SA with b and the operations on predicates, into PD alone. -/
def Obligations.ScaPredicates : Prop :=
  ∀ (x : Fin 512) (i : Ins) (s : State), s.Issues x i →
    let a := s.reg x (i.at 94 90)
    let b := if i.flag 0 then BitVec.ofNat 64 (i.at 63 0) else s.reg x (i.at 89 85)
    let p := (s.ctx x).pred (i.at 92 90)
    let q := (s.ctx x).pred (i.at 87 85)
    (scaWord i false true true true .b = true →
      s.Gives (.scaCmpeq x i) (s.pastPred x (i.at 84 82) (decide (a.toNat = b.toNat)))
      ∧ s.Gives (.scaCmpne x i) (s.pastPred x (i.at 84 82) (decide (a.toNat ≠ b.toNat)))
      ∧ s.Gives (.scaCmplt x i) (s.pastPred x (i.at 84 82) (decide (a.toInt < b.toInt)))
      ∧ s.Gives (.scaCmple x i) (s.pastPred x (i.at 84 82) (decide (a.toInt ≤ b.toInt)))
      ∧ s.Gives (.scaCmpltu x i) (s.pastPred x (i.at 84 82) (decide (a.toNat < b.toNat)))
      ∧ s.Gives (.scaCmpleu x i) (s.pastPred x (i.at 84 82) (decide (a.toNat ≤ b.toNat))))
    ∧ (predWord i true = true →
      s.Gives (.scaPand x i) (s.pastPred x (i.at 84 82) (p && q))
      ∧ s.Gives (.scaPor x i) (s.pastPred x (i.at 84 82) (p || q))
      ∧ s.Gives (.scaPxor x i) (s.pastPred x (i.at 84 82) (xor p q)))
    ∧ (predWord i false = true → s.Gives (.scaPnot x i) (s.pastPred x (i.at 84 82) (!p)))

/-- MADDI, LI, ID, the FP32 operations, the conversions and SETIMM. -/
def Obligations.ScaOthers : Prop :=
  ∀ (x : Fin 512) (i : Ins) (s : State), s.Issues x i →
    let a := s.reg x (i.at 94 90)
    let b := if i.flag 0 then BitVec.ofNat 64 (i.at 63 0) else s.reg x (i.at 89 85)
    let low (v : W64) : W32 := v.setWidth 32
    let d := i.at 99 95
    (scaWord i true true true false .required = true →
      s.Gives (.scaMaddi x i) (s.pastSreg x d (BitVec.ofNat 64 (a.toNat + (s.reg x (i.at 89 85)).toNat * i.at 63 0))))
    ∧ (scaWord i true false false false .required = true → s.Gives (.scaLi x i) (s.pastSreg x d (BitVec.ofNat 64 (i.at 63 0))))
    ∧ (scaWord i true false false false .unused = true →
        s.Gives (.scaId x i) (s.pastSreg x d (BitVec.ofNat 64 (x.val / 8 + 2 ^ 6 * (x.val % 8) + 2 ^ 9 * s.arc.node.toNat))))
    ∧ (scaWord i true true true false .b = true →
      s.Gives (.scaFadd32 x i) (s.pastSreg x d ((fadd32 .rne (low a) (low b)).setWidth 64))
      ∧ s.Gives (.scaFmul32 x i) (s.pastSreg x d ((fmul32 .rne (low a) (low b)).setWidth 64))
      ∧ s.Gives (.scaFfma32 x i) (s.pastSreg x d ((ffma32 .rne (low a) (low b) (low (s.reg x d))).setWidth 64)))
    ∧ (scaWord i true true false false .unused = true →
      s.Gives (.scaI2f32 x i) (s.pastSreg x d ((i2f32 a).setWidth 64))
      ∧ s.Gives (.scaF2i32 x i) (s.pastSreg x d (f2i32 (low a))))
    ∧ (scaWord i false true false false .unused = true →
        s.Gives (.scaSetimm x i) (s.past x { s.ctx x with latch := low a, latchValid := true }))

/-- SCA.LD and SCA.ST at an aligned address inside the scratchpad: the eight bytes of the context's own core, little-endian, with no detection. -/
def Obligations.ScaLoadStore : Prop :=
  ∀ (x : Fin 512) (i : Ins) (s : State), s.Issues x i →
    let a := (s.reg x (i.at 94 90) + BitVec.ofNat 64 (i.at 63 0)).toNat
    let src := srcOf 0x01 (0x200 + (s.slotOf (coreOf x)).getD 0)
    a % 8 = 0 → a + 8 ≤ 0x600000 →
      (scaWord i true true false false .required = true → s.injArmed evSpadUncorr src (fun g => g / 8 == a / 8) = false →
          s.injArmed evSpadCorr src (fun g => g / 8 == a / 8) = false →
        s.Gives (.scaLd x i .ok) (s.pastSreg x (i.at 99 95) (BitVec.ofNat 64 (ofBytes (s.spadRead (coreOf x) a 8)))))
      ∧ (scaWord i false true true false .required = true →
        s.Gives (.scaSt x i) ((s.spadWrite (coreOf x) a (toBytes 8 (s.reg x (i.at 89 85)).toNat)).past x (s.ctx x)))

/-- An SCA.LD or SCA.ST whose address is misaligned or whose bytes reach beyond 0x5F_FFFF raises BOUNDS_FAULT: its context is FAULTED at the instruction,
CORE_CTX_FLT holds the code and the offset, and no register or byte changes. -/
def Obligations.ScaBounds : Prop :=
  ∀ (x : Fin 512) (i : Ins) (s : State), s.Issues x i → s.NoRecompute →
    let a := (s.reg x (i.at 94 90) + BitVec.ofNat 64 (i.at 63 0)).toNat
    let stops (c : Instr) : Prop :=
      ∃ t, exec c s = .next t ∧ (t.ctx x).st = .faulted ∧ (t.ctx x).pc = (s.ctx x).pc ∧ (t.ctx x).sr = (s.ctx x).sr ∧ t.spad = s.spad
        ∧ ∀ p, s.slotOf (coreOf x) = some p → Tab.get 0 (t.slot p).flt (x.val % 8) = BitVec.ofNat 64 (0x0102 + (s.ctx x).pc.toNat / 16 * 2 ^ 16)
    (a % 8 ≠ 0 ∨ 0x600000 < a + 8) →
      (scaWord i true true false false .required = true → stops (.scaLd x i .ok))
      ∧ (scaWord i false true true false .required = true → stops (.scaSt x i))

/-! ## SYN and NUM.RD (R83, R315, R319 to R321, R325) -/

/-- SYN.SIGNAL on a counter of the module adds its amount, saturating at 0 and at 2^32 − 1 with the sticky flag, changes no other counter, and releases the waits that
it meets; a REMOTE one sends one signal message and counts it as out, or waits while 1,024 are out. SYN.SET writes a counter of its own and clears its sticky
flag. -/
def Obligations.SynSignalSet : Prop :=
  ∀ (x : Fin 512) (i : Ins) (s : State), s.Issues x i →
    let v : W32 := if i.flag 0 then BitVec.ofNat 32 (i.at 31 0) else (s.reg x (i.at 99 95)).setWidth 32
    let node := (s.reg x (i.at 94 90)).toNat
    synRegOk s x i = true →
      (synWord (coreOf x) i true = true → synRemote i = false → ∀ c, fullName (coreOf x) (i.at 89 74) = some c →
          (∀ g, s.injArmed evKeySat (satSource c) g = false) →
        let sum := ((s.counter c).toNat : Int) + v.toInt
        (0 ≤ sum → sum ≤ 0xFFFFFFFF → ∃ n : W32, (n.toNat : Int) = sum
          ∧ s.Gives (.synSignal x i) (((s.putCounter c n (s.sticky c)).release c).past x (((s.putCounter c n (s.sticky c)).release c).ctx x)))
        ∧ ∃ t, exec (.synSignal x i) s = .next t ∧ (t.counter c).toNat = (max 0 (min sum 0xFFFFFFFF)).toNat
          ∧ t.sticky c = (s.sticky c || decide (sum < 0) || decide (0xFFFFFFFF < sum))
          ∧ (∀ d, d ≠ c → t.counter d = s.counter d ∧ t.sticky d = s.sticky d)
          ∧ (∀ (y : Nat) (w : W32), (t.ctx y).st = .waiting → (t.ctx y).wait = .counter c w → (t.counter c).toNat < w.toNat)
          ∧ (t.ctx x).pc = (s.ctx x).pc + 16 ∧ (t.ctx x).sr = (s.ctx x).sr)
      ∧ (synWord (coreOf x) i true = true → synRemote i = true → remoteName (coreOf x) i = true → s.arc.other node = true →
        (s.kst.out < 1024 → ∃ t, exec (.synSignal x i) s = .next t ∧ t.kst.out = s.kst.out + 1 ∧ (t.ctx x).pc = (s.ctx x).pc + 16
            ∧ t.kst.ctr = s.kst.ctr ∧ t.kst.sys = s.kst.sys
            ∧ ((s.arc.route node).isSome = true → ∃ m ∈ t.arc.outbox, m.kind = 5 ∧ m.dst = BitVec.ofNat 14 node
              ∧ m.data = toBytes 2 (i.at 89 74) ++ [s.kst.epoch, 0] ++ toBytes 4 v.toNat))
        ∧ (1024 ≤ s.kst.out → ∃ t, exec (.synSignal x i) s = .next t ∧ s.Reselected t ∧ (t.ctx x).st = .waiting ∧ (t.ctx x).wait = .remoteLimit))
      ∧ (synWord (coreOf x) i false = true → ownName x i = true → ∀ c, fullName (coreOf x) (i.at 89 74) = some c →
        s.Gives (.synSet x i) (((s.putCounter c v false).release c).past x (((s.putCounter c v false).release c).ctx x)))

/-- SYN.WAIT on a context counter that is met passes at once, and on a job or system counter that is met it waits out its hold; on one that is not met its context
waits on the counter and the threshold. -/
def Obligations.SynWaits : Prop :=
  ∀ (x : Fin 512) (i : Ins) (s : State), s.Issues x i → synWord (coreOf x) i false = true → synRegOk s x i = true →
    let v : W32 := if i.flag 0 then BitVec.ofNat 32 (i.at 31 0) else (s.reg x (i.at 99 95)).setWidth 32
    ∀ c, fullName (coreOf x) (i.at 89 74) = some c →
      (v.toNat ≤ (s.counter c).toNat → (∃ y n, c = .ctx y n) → s.Gives (.synWait x i) (s.past x (s.ctx x)))
      ∧ (v.toNat ≤ (s.counter c).toNat → (∀ y n, c ≠ .ctx y n) → ∃ t, exec (.synWait x i) s = .next t ∧ s.Reselected t
          ∧ (t.ctx x).st = .waiting ∧ (t.ctx x).wait = .delay c v)
      ∧ ((s.counter c).toNat < v.toNat → ∃ t, exec (.synWait x i) s = .next t ∧ s.Reselected t
          ∧ (t.ctx x).st = .waiting ∧ (t.ctx x).wait = .counter c v)

/-- NUM.RD reads the field of the numeric state block that FSEL names, signed fields extended, into SD. -/
def Obligations.NumRead : Prop :=
  ∀ (x : Fin 512) (i : Ins) (s : State), s.Issues x i → numRdWord i = true →
    ∃ v, s.Gives (.numRd x i) (s.pastSreg x (i.at 99 95) v)
      ∧ (i.at 94 89 = 0 → v = s.nsb.step) ∧ (i.at 94 89 = 1 → v = s.nsb.key) ∧ (i.at 94 89 = 2 → v = s.nsb.cursor)
      ∧ (i.at 94 89 = 3 → v.toNat = s.nsb.stride.toNat) ∧ (i.at 94 89 = 4 → v.toNat = s.nsb.clean.toNat)
      ∧ (i.at 94 89 = 5 → v.toNat = s.nsb.interval.toNat) ∧ (i.at 94 89 = 6 → v.toInt = s.nsb.lstep.toInt)
      ∧ (i.at 94 89 = 7 → v.toInt = s.nsb.lnext.toInt) ∧ (i.at 94 89 = 8 → v = if s.nsb.taint then 1 else 0)
      ∧ (i.at 94 89 = 9 → v = BitVec.ofNat 64 (s.nsb.outcome + if s.nsb.applied then 4 else 0))
      ∧ (i.at 94 89 = 10 → v.toNat = s.nsb.version.toNat)

/-! ## Long operations: issue (R93 to R97, R104, R120) -/

/-- MOV: the operation enters the move unit's queue with the registers and the descriptor as they are at issue. -/
def Obligations.MovEnters : Prop :=
  ∀ (x : Fin 512) (i : Ins) (s : State), s.Issues x i → i.sigOk (coreOf x) = true →
    let r (n : Nat) := s.reg x n
    let td := s.tdAt x (i.at 70 54)
    let tile := tileOf i td (r (i.at 99 95)).toNat (r (i.at 94 90)).toNat (r (i.at 75 71)).toNat
    let op (k : LKind) (regs : List W64) (tds : List Td) : Op :=
      { id := 0, src := .ctx x, kind := k, unit := .move, ins := i, core := coreOf x, off := 0, regs := regs, tds := tds }
    let tf := tile.faults (r (i.at 94 90)).toNat (r (i.at 75 71)).toNat
    let bf (k : LKind) := movFaults k (r (i.at 99 95)).toNat (r (i.at 94 90)).toNat (r (i.at 75 71)).toNat (r (i.at 70 66)).toNat
    let tregs := [r (i.at 99 95), r (i.at 94 90), r (i.at 75 71)]
    let bregs := tregs ++ [r (i.at 70 66)]
    s.Enters x i (.movLdt x i) (movTileWord i) tf (op .movLdt tregs [td])
    ∧ s.Enters x i (.movStt x i) (movTileWord i) tf (op .movStt tregs [td])
    ∧ s.Enters x i (.movLdb x i) (movBlockWord i true true) (bf .movLdb) (op .movLdb bregs [])
    ∧ s.Enters x i (.movStb x i) (movBlockWord i true true) (bf .movStb) (op .movStb bregs [])
    ∧ s.Enters x i (.movSpcpy x i) (movBlockWord i true false) (bf .movSpcpy) (op .movSpcpy bregs [])
    ∧ s.Enters x i (.movFill x i) (movBlockWord i true false) (bf .movFill) (op .movFill bregs [])
    ∧ s.Enters x i (.movPref x i) (movBlockWord i false true) (bf .movPref) (op .movPref bregs [])

/-- MAT: the operation enters its array's queue; a product of more passes than one records ACC_REPASS with them. -/
def Obligations.MatEnters : Prop :=
  ∀ (x : Fin 512) (i : Ins) (s : State), s.Issues x i → i.sigOk (coreOf x) = true → s.injOvercommit x = false →
    let product (k : LKind) (c : Instr) : Prop :=
      let o := s.productOp k x i
      let slots := (slotsOf (matSmask i)).length
      let n := passes (shapeM (o.r 2)) (shapeN (o.r 2)) slots
      matProductWord k i = true → s.productFaults o = [] → s.Room x o.unit →
        ∃ u, (s.pastLong x i o).Reselected u ∧ exec c s = .next (if 1 < n then
          u.ev (srcOf 0x01 x) evAccRepass n (shapeM (o.r 2)) (toBytes 4 (shapeN (o.r 2)) ++ toBytes 4 slots ++ toBytes 7 (s.pcUnits x)) else u)
    product .matFwd (.matFwd x i) ∧ product .matDgrad (.matDgrad x i) ∧ product .matWgrad (.matWgrad x i) ∧ product .matWgradm (.matWgradm x i)
    ∧ s.Enters x i (.matDrain x i) (matDrainWord i) (drainFaults (s.drainOp x i)) (s.drainOp x i)
    ∧ s.Enters x i (.matClear x i) (matClearWord i) []
        { id := 0, src := .ctx x, kind := .matClear, ins := i, core := coreOf x, off := 0, unit := arrUnit (matArr i) }
    ∧ s.Enters x i (.matPdrain x i) (matSplitWord false i) (s.splitFaults (s.splitOp .matPdrain x i)) (s.splitOp .matPdrain x i)
    ∧ s.Enters x i (.matCombine x i) (matSplitWord true i) (s.splitFaults (s.splitOp .matCombine x i)) (s.splitOp .matCombine x i)

/-- VEC with the latch invalid: the operation enters the vector unit's queue. -/
def Obligations.VecEnters : Prop :=
  ∀ (x : Fin 512) (i : Ins) (s : State), s.Issues x i → i.sigOk (coreOf x) = true → (s.ctx x).latchValid = false →
    let enters (k : LKind) (c : Instr) : Prop := s.Enters x i c (vecWord (vecForm k) i) (vecFaults (s.vecOp k x i)) (s.vecOp k x i)
    let opb := opbOf (s.spadRead (coreOf x) (s.reg x (i.at 99 95)).toNat 128)
    enters .vecAdd (.vecAdd x i) ∧ enters .vecSub (.vecSub x i) ∧ enters .vecMul (.vecMul x i) ∧ enters .vecFma (.vecFma x i)
    ∧ enters .vecMax (.vecMax x i) ∧ enters .vecMin (.vecMin x i) ∧ enters .vecAbs (.vecAbs x i) ∧ enters .vecMuli (.vecMuli x i)
    ∧ enters .vecAddi (.vecAddi x i) ∧ enters .vecSel (.vecSel x i) ∧ enters .vecExp2 (.vecExp2 x i) ∧ enters .vecLog2 (.vecLog2 x i)
    ∧ enters .vecRcp (.vecRcp x i) ∧ enters .vecRsqrt (.vecRsqrt x i) ∧ enters .vecRsum (.vecRsum x i) ∧ enters .vecRmax (.vecRmax x i)
    ∧ enters .vecRamax (.vecRamax x i)
    ∧ s.Enters x i (.vecCvt x i) (vecCvtWord i) (cvtFaults (s.cvtOp x i)) (s.cvtOp x i)
    ∧ (s.nsb.outcome ≠ 0 → s.Enters x i (.vecOptaw x i) (vecOptWord i) (optFaults opb (s.optOp .vecOptaw x i)) (s.optOp .vecOptaw x i)
        ∧ s.Enters x i (.vecOptms x i) (vecOptWord i) (optFaults opb (s.optOp .vecOptms x i)) (s.optOp .vecOptms x i))

/-- With a valid SETIMM latch, a VEC instruction with an immediate field takes the latch's value for it and makes the latch invalid; one without is an
illegal encoding that leaves the latch valid; and one whose predicate is false only makes it invalid (R130). -/
def Obligations.SetimmConsumed : Prop :=
  ∀ (x : Fin 512) (i : Ins) (s : State), i.sigOk (coreOf x) = true → (s.ctx x).latchValid = true →
    (s.Issues x i → ∀ k c, (k, c) ∈ [(LKind.vecMuli, Instr.vecMuli x i), (.vecAddi, .vecAddi x i), (.vecSel, .vecSel x i)] →
        vecWord (vecForm k) i = true → vecFaults (s.vecOp k x i) = [] → s.Room x .vector →
      ∃ t, exec c s = .next t ∧ (t.ctx x).latchValid = false ∧ ∃ o, t.ops = s.ops ++ [o] ∧ o.kind = k ∧ o.imm = (s.ctx x).latch)
    ∧ (s.Issues x i → s.NoRecompute → ∀ k c, (k, c) ∈ [(LKind.vecAdd, Instr.vecAdd x i), (.vecSub, .vecSub x i), (.vecMul, .vecMul x i), (.vecFma, .vecFma x i),
          (.vecMax, .vecMax x i), (.vecMin, .vecMin x i), (.vecAbs, .vecAbs x i), (.vecExp2, .vecExp2 x i), (.vecLog2, .vecLog2 x i), (.vecRcp, .vecRcp x i),
          (.vecRsqrt, .vecRsqrt x i), (.vecRsum, .vecRsum x i), (.vecRmax, .vecRmax x i), (.vecRamax, .vecRamax x i)] → vecWord (vecForm k) i = true →
      ∃ t, exec c s = .next t ∧ (t.ctx x).st = .faulted ∧ (t.ctx x).latchValid = true ∧ t.ops = s.ops)
    ∧ (s.Skips x i → ∀ k c, (k, c) ∈ [(LKind.vecMuli, Instr.vecMuli x i), (.vecAdd, .vecAdd x i), (.vecSub, .vecSub x i), (.vecRsum, .vecRsum x i)] →
        vecWord (vecForm k) i = true →
      ∃ t, exec c s = .next t ∧ (t.ctx x).latchValid = false ∧ (t.ctx x).pc = (s.ctx x).pc + 16 ∧ t.ops = s.ops)

/-- ATT and HOD: the operation enters the queue of the voussoir or of the outbound port, with what it reads at issue. -/
def Obligations.AttHodEnters : Prop :=
  ∀ (x : Fin 512) (i : Ins) (s : State), s.Issues x i → i.sigOk (coreOf x) = true →
    let hod (k : LKind) (c : Instr) (sb sc keep : Bool) : Prop := s.Enters x i c (hodWord i sb sc keep) (hodFaults7 (s.hodOp k x i)) (s.hodOp k x i)
    s.Enters x i (.attFwd x i) (attWord false i) (attFaults (s.attOp .attFwd x i)) (s.attOp .attFwd x i)
    ∧ s.Enters x i (.attBwd x i) (attWord true i) (attFaults (s.attOp .attBwd x i)) (s.attOp .attBwd x i)
    ∧ hod .hodPin (.hodPin x i) false false false ∧ hod .hodUnpin (.hodUnpin x i) false false false
    ∧ hod .hodPromote (.hodPromote x i) false false true ∧ hod .hodDemote (.hodDemote x i) true false false
    ∧ hod .hodDrop (.hodDrop x i) false false false ∧ hod .hodAppend (.hodAppend x i) true true false
    ∧ hod .hodTrim (.hodTrim x i) true false false

/-- ARC, NUM and ING: the operation enters its queue; a collective takes the next number of its course (R303). NUM.STEPUPD enters once the step has an outcome and
waits for it before (R77); NUM.STEPBEGIN where neither the update, a capture nor the replay check holds it, with the comparison of the system counters made where the
step has its outcome (R329), and waits where one does. -/
def Obligations.ArcNumIngEnters : Prop :=
  ∀ (x : Fin 512) (i : Ins) (s : State), s.Issues x i → i.sigOk (coreOf x) = true →
    let collective (k : LKind) (c : Instr) : Prop :=
      let o := s.arcOp k x i
      arcWord k i = true → s.arcFaults o = [] → s.Room x .outbound → o.arcCourse < s.arc.issued.length →
        ∃ t, exec c s = .next t ∧ (t.ctx x).pc = (s.ctx x).pc + 16
          ∧ t.arc.issued.getD o.arcCourse 0 = s.arc.issued.getD o.arcCourse 0 + 1
          ∧ ∃ q ∈ t.ops, q.id = s.nextOp ∧ q.kind = k ∧ q.regs = o.regs
    let num (k : LKind) : Op := { id := 0, src := .ctx x, kind := k, unit := .outbound, ins := {}, core := coreOf x, off := 0 }
    collective .arcRscat (.arcRscat x i) ∧ collective .arcAgath (.arcAgath x i) ∧ collective .arcAred (.arcAred x i)
    ∧ s.Enters x i (.arcSend x i) (arcWord .arcSend i) (s.arcFaults (s.arcOp .arcSend x i)) (s.arcOp .arcSend x i)
    ∧ (s.receives < 1024 → s.Enters x i (.arcRecv x i) (arcWord .arcRecv i) (s.arcFaults (s.arcOp .arcRecv x i)) (s.arcOp .arcRecv x i))
    ∧ s.Enters x i (.arcCirc x i) (arcWord .arcCirc i) (s.arcFaults (s.arcOp .arcCirc x i)) (s.arcOp .arcCirc x i)
    ∧ s.Enters x i (.arcOvor x i) (arcWord .arcOvor i) [] (s.arcOp .arcOvor x i)
    ∧ (s.nsb.outcome ≠ 0 → s.Enters x i (.numStepupd x i) (numWord i) [] (num .numStepupd))
    ∧ (s.nsb.outcome = 0 → numWord i = true →
        ∃ t, exec (.numStepupd x i) s = .next t ∧ s.Reselected t ∧ (t.ctx x).st = .waiting ∧ (t.ctx x).wait = .outcome)
    ∧ (s.nsb.outcome = 0 → s.Enters x i (.numStepbegin x i) (numWord i) [] (num .numStepbegin))
    ∧ (s.stepHeld = false → s.nsb.outcome ≠ 0 → s.Unarmed → (∀ k : Fin 64, k.val < 32 → s.counter (.sys k) = 0) →
        s.Enters x i (.numStepbegin x i) (numWord i) [] { num .numStepbegin with words := [1] })
    ∧ (s.stepHeld = true → s.nsb.applied = false → numWord i = true →
        ∃ t, exec (.numStepbegin x i) s = .next t ∧ s.Reselected t ∧ (t.ctx x).st = .waiting ∧ (t.ctx x).wait = .applied)
    ∧ (s.stepHeld = true → s.nsb.applied = true → s.captureDue = false → numWord i = true →
        ∃ t, exec (.numStepbegin x i) s = .next t ∧ s.Reselected t ∧ (t.ctx x).st = .waiting ∧ (t.ctx x).wait = .stepBegin)
    ∧ s.Enters x i (.ingOpen x i) (ingWord .ingOpen i) (s.ingFaults (s.ingOp .ingOpen x i)) (s.ingReady (s.ingOp .ingOpen x i))
    ∧ s.Enters x i (.ingDecode x i) (ingWord .ingDecode i) (s.ingFaults (s.ingOp .ingDecode x i)) (s.ingReady (s.ingOp .ingDecode x i))
    ∧ s.Enters x i (.ingClose x i) (ingWord .ingClose i) (s.ingFaults (s.ingOp .ingClose x i)) (s.ingReady (s.ingOp .ingClose x i))

/-! ## Units at work (R94, R97, R100, R104) -/

/-- The operation at the head of a queue, its unit free and its checks passed, is started, requests that it releases are evaluated, and contexts held on the queue go on;
with a fault of check 8 it ends as `State.asyncFault` says, ILLEGAL_ENCODING before BOUNDS_FAULT. A compute operation or a MOV within the scratchpad is then in
progress, nothing that it reads or writes has changed, and an array of it that has never started one begins its ramp. -/
def Obligations.OperationStarts : Prop :=
  ∀ (k : Fin 64) (u : CoreUnit) (s : State) (o : Op), s.head k.val u = some o → s.unitFree o = true → s.warned = false → s.Unarmed →
    let v := (s.rampUp o).startOp o
    (s.faults8 o = [] → (o.kind.arch = true → s.bad = []) →
      exec (.operationStart k ⟨u, []⟩) s = .next (((v.1.settle v.2).queueFreed k.val u).settleRecomputes))
    ∧ (evIllegalEncoding ∈ s.faults8 o →
      exec (.operationStart k ⟨u, []⟩) s = .next (((s.asyncFault o evIllegalEncoding).queueFreed k.val u).settleRecomputes))
    ∧ (evBoundsFault ∈ s.faults8 o → evIllegalEncoding ∉ s.faults8 o →
      exec (.operationStart k ⟨u, []⟩) s = .next (((s.asyncFault o evBoundsFault).queueFreed k.val u).settleRecomputes))
    ∧ (s.faults8 o = [] → s.Quiet → s.refs o = [] →
      o.kind ∈ [LKind.matFwd, .matDgrad, .matWgrad, .matWgradm, .matDrain, .matClear, .matPdrain, .matCombine, .vecAdd, .vecSub, .vecMul, .vecFma, .vecMax, .vecMin,
        .vecAbs, .vecMuli, .vecAddi, .vecSel, .vecExp2, .vecLog2, .vecRcp, .vecRsqrt, .vecRsum, .vecRmax, .vecRamax, .vecCvt, .vecOptaw, .vecOptms,
        .attFwd, .attBwd, .movSpcpy, .movFill] →
      ∃ t, exec (.operationStart k ⟨u, []⟩) s = .next t ∧ (∃ q ∈ t.ops, q.id = o.id ∧ q.st = .started) ∧ t.spad = s.spad ∧ t.acc = s.acc
        ∧ t.objMem = s.objMem ∧ t.nsb = s.nsb ∧ t.mtr = s.mtr
        ∧ ∀ a ∈ o.arrays, Tab.get 0 s.pln.lastStart (3 * o.core + arrayNo a) = 0 → Tab.get 8 t.pln.ramp (3 * o.core + arrayNo a) = 1)

/-- An operation of a core's units that completes without a detection has exactly its writes: scratchpad, accumulators, combine area and object bytes are as those writes
leave them, and the numeric state block is unchanged; a MOV to or from an object does so where nothing that it reaches is held. -/
def Obligations.ComputeCompletes : Prop :=
  ∀ (id : Nat) (s : State) (o : Op) (x : Nat), s.findOp id = some o → o.id = id → o.src = .ctx x → o.st = .started → o.pinned = [] →
    o.unit ≠ .outbound → s.Quiet → s.Unarmed →
    (o.kind ∈ [LKind.matFwd, .matDgrad, .matWgrad, .matWgradm, .matDrain, .matClear, .matPdrain, .matCombine, .vecAdd, .vecSub, .vecMul, .vecFma, .vecMax, .vecMin,
      .vecAbs, .vecMuli, .vecAddi, .vecSel, .vecExp2, .vecLog2, .vecRcp, .vecRsqrt, .vecRsum, .vecRmax, .vecRamax, .vecCvt, .vecOptaw, .vecOptms,
      .attFwd, .attBwd, .movSpcpy, .movFill]
      ∨ o.kind ∈ [LKind.movLdt, .movStt, .movLdb, .movStb, .movPref] ∧ s.NoneHeld ∧ s.bad = [] ∧ (s.refs o).all (s.reaches o.src) = true) →
    ∃ t, exec (.longOpComplete id []) s = .next t
      ∧ t.spad = (s.applyEff (s.computeEff o)).spad ∧ t.acc = (s.applyEff (s.computeEff o)).acc
      ∧ t.mtr.combine = (s.applyEff (s.computeEff o)).mtr.combine ∧ t.objMem = (s.applyEff (s.computeEff o)).objMem
      ∧ t.nsb = s.nsb ∧ t.findOp id = none

/-- What the MOV operations and MAT.CLEAR write: the bytes of the source to the destination, the eight-byte pattern throughout, nothing for a prefetch, +0 to every slot;
a row of whole bytes that MOV.LDT writes holds the codes of the tensor, and the byte that MOV.STT leaves in a changed block is that of R201. -/
def Obligations.BlockEffects : Prop :=
  ∀ (s : State) (o : Op),
    let r (j : Nat) : Nat := (o.regs.getD j 0).toNat
    (o.kind = .movLdb → s.movEff o = { wrs := [.spad o.core (r 0) (s.objRead (hIdx (r 1)) (r 2) (r 3))] })
    ∧ (o.kind = .movStb → s.movEff o = { wrs := [.obj (hIdx (r 1)) (r 2) (s.spadRead o.core (r 0) (r 3))] })
    ∧ (o.kind = .movSpcpy → s.movEff o = { wrs := [.spad o.core (r 1) (s.spadRead o.core (r 0) (r 3))] })
    ∧ (o.kind = .movFill → r 3 % 8 = 0 → ∃ a : List Byte, a.length = r 3 ∧ s.movEff o = { wrs := [.spad o.core (r 0) a] }
        ∧ ∀ j, 8 * j + 8 ≤ r 3 → ofBytes ((a.drop (8 * j)).take 8) = r 1)
    ∧ (o.kind = .movPref → s.movEff o = {})
    ∧ (o.kind = .movLdt → ∀ j ≤ o.tile.t1, ∃ bs : List Byte, Wr.spad o.core (o.tile.a + j * o.tile.step) bs ∈ (s.movEff o).wrs
        ∧ ∀ c ≤ o.tile.t0, o.tile.td.w = 2 → (bs.getD c 0).toNat = (s.rowCodes o.tile.td (o.tile.elem 0 j) (o.tile.t0 + 1)).getD c 0)
    ∧ (o.kind = .movStt → ∀ b ∈ o.tile.changed, ∃ bs : List Byte, Wr.obj (hIdx o.tile.td.handle) (4096 * b) bs ∈ (s.movEff o).wrs ∧ bs.length = 4096
        ∧ ∀ j < 4096, o.tile.td.scaleOfByte (4096 * b + j) = none → o.tile.td.elemOfByte (4096 * b + j) = none → bs.getD j 0 = 0)
    ∧ (o.kind = .matClear → ∀ j ∈ slotsOf (drnSmask o.ins), ∀ m n, accAt ((s.applyEff (clearEff o)).accSlot o.core o.arr j) m n = 0)

/-- What MAT writes. A product's element is its initial value, +0 or what its slot held, and takes the exact sum of one product block after the other, scaled by the two
blocks' exponents, with one rounding each, a sum of zero leaving it as it is; a masked element keeps its initial value. A RAW drain writes the FP32 words of the slots
through the epilogue; a part of a combine area is its slot's words; and MAT.COMBINE adds the parts in ascending order. -/
def Obligations.MatResults : Prop :=
  (∀ (a b : Opnd) (m n j : Nat) (init : W32),
    let l := pairBlock a.f b.f
    let sum := blockSum ((List.range l).map (fun i => (a.value m (l * j + i), b.value n (l * j + i))))
    dot a b 0 m n init = init
    ∧ ((∃ q e, sum = .fin q 0 e) → dot a b (l * (j + 1)) m n init = dot a b (l * j) m n init)
    ∧ ((∀ q e, sum ≠ .fin q 0 e) → dot a b (l * (j + 1)) m n init
        = round32 .rne (FVal.add (val32 (dot a b (l * j) m n init)) (sum.scale (((a.scale m (l * j) : Int) - 127) + ((b.scale n (l * j) : Int) - 127))))))
  ∧ ∀ (s : State) (o : Op), s.MemoryWf →
    let u := s.applyEff (s.matEff o)
    (let gm := shapeM (o.r 2)
      let gn := shapeN (o.r 2)
      let k := shapeK (o.r 2)
      let slots := slotsOf (matSmask o.ins)
      o.kind ∈ [LKind.matFwd, .matDgrad, .matWgrad, .matWgradm] → gm * gn ≤ slots.length → ∀ m < 128 * gm, ∀ n < 128 * gn,
        let j := slotAt slots gm gn (m / 128) (n / 128)
        let init := if matAcc o.ins then accAt (s.accSlot o.core o.arr j) (m % 128) (n % 128) else 0
        accAt (u.accSlot o.core o.arr j) (m % 128) (n % 128)
          = if o.masked gn m n then init
            else dot (s.opnd o.core (areaOf (o.r 0)) (o.td 0).f (matTra o.ins) (128 * gm) k)
              (s.opnd o.core (areaOf (o.r 1)) (o.td 1).f (matTrb o.ins) (128 * gn) k) k m n init)
    ∧ (o.kind = .matDrain → drnRaw o.ins = true → drainFaults o = [] → ∀ m < 128 * drnGm o.ins, ∀ n < 128 * drnGn o.ins,
        let r := areaOf (o.r 0)
        let bias := if drnEpi o.ins < 2 then 0 else BitVec.ofNat 32 (leAt (s.spadRead o.core (fld (o.r 3) 22 0 + 4 * n) 4) 0 4)
        leAt (u.spadRead o.core (r.a + m * r.step .fp32 (128 * drnGn o.ins) + 4 * n) 4) 0 4
          = (epilogue (drnEpi o.ins) (BitVec.ofNat 32 (fld (o.r 3) 63 32)) bias
              (accAt (o.snap.getD (m / 128 * drnGn o.ins + n / 128) []) (m % 128) (n % 128))).toNat)
    ∧ (o.kind = .matPdrain → (o.snap.headD []).length = 16384 → Tab.get [] u.mtr.combine (o.r 0 + splitI (o.r 1)) = o.snap.headD [])
    ∧ (o.kind = .matCombine → (∀ p < splitS (o.r 1), Tab.get [] s.mtr.combine (o.r 0 + p) ≠ []) → ∀ m < 128, ∀ n < 128,
        accAt (u.accSlot o.core o.arr o.oneSlot) m n
          = (List.range (splitS (o.r 1))).foldl (fun v p => fadd32 .rne v (accAt (Tab.get [] s.mtr.combine (o.r 0 + p)) m n))
              (if o.ins.flag 2 then accAt (s.accSlot o.core o.arr o.oneSlot) m n else 0))

/-- Narrowing: a value that its format holds keeps its code in every rounding mode, one that saturates takes the largest finite code, a block's scale is the smallest that
brings its amax within the format, never below 2^−127 and for gradients never above 2^0, and the rows and scale bytes of a narrowed tile hold the codes. VEC: an
element, the result of a reduced row and a widened element stand in the destination's words, a masked one as zero with MZ and as it was without; a row of which no element
is included reduces to the identity. -/
def Obligations.VectorResults : Prop :=
  (∀ (f : Fmt) (rm : Rm) (c m : Nat) (q : Bool) (e : Int),
    (c < 2 ^ fmtBits f → decodeFmt f c = .fin q m e → m ≠ 0 → narrowVal f rm (.fin q m e) = (c, false))
    ∧ ((f, c) ∈ [(Fmt.fp4, 7), (.e4m3, 0x7E), (.e5m2, 0x7B), (.ge3, 7)] → saturates f rm m e = true →
      narrowVal f rm (.fin q m e) = (c + if q then 2 ^ (fmtBits f - 1) else 0, true))
    ∧ (blockLen f ≠ 0 → m ≠ 0 →
      let k := absmaxExp f m e
      magLe m (e - k) (maxMag f).1 (maxMag f).2 = true ∧ magLe m (e - (k - 1)) (maxMag f).1 (maxMag f).2 = false
      ∧ (scaleCode f false (.fin q m e) : Int) = max k (-127) + 127 ∧ (scaleCode f true (.fin q m e) : Int) = min (max k (-127)) 0 + 127))
  ∧ (∀ (s : State) (k : Nat) (t : Tile) (mode : NMode) (v : Mat), s.MemoryWf → t.pitchOk = true →
    let u := s.applyEff (s.narrowTile k t mode v)
    (∀ r ≤ t.t1, ∀ c ≤ t.t0, (u.tileCodes k t r).getD c 0 = (s.narrowAt t mode (t.scaleCodes v) v c r).1 % 16 ^ t.td.w)
    ∧ ∀ j < t.scales, (u.tileScales k t).getD j 0 = (t.scaleCodes v).getD j 0 % 256)
  ∧ (∀ (k : LKind) (rm : Rm) (cols : Nat), (vecForm k).red = true → reduceRow k rm cols (fun _ => redId k) = redId k)
  ∧ ∀ (s : State) (o : Op), s.MemoryWf →
    (let rows := shapeRows (o.r 4)
      let cols := shapeCols (o.r 4)
      let at_ (q : Source) := s.sourceVals o.core q rows cols
      let masked := (s.maskBits o.core (o.ins.zero 60 56) (o.r 5) (o.ins.at 45 44) rows cols).at
      let d := areaOf (o.r 0)
      let word (u : State) (r c : Nat) : Nat := leAt (u.spadRead o.core (d.a + r * d.step .fp32 cols + 4 * c) 4) 0 4
      vecFaults o = [] →
        ((vecForm o.kind).red = false → ∀ r < rows, ∀ c < cols,
          word (s.applyEff (s.vecEff o)) r c
            = if masked r c = false then (vecElem o.kind (vecRm o.ins) o.imm (at_ o.vecA r c) (at_ o.vecB r c) (at_ o.vecC r c)).toNat
              else if vecMz o.ins then 0 else word s r c)
        ∧ ((vecForm o.kind).red = true → ∀ r < rows,
          let v := reduceRow o.kind (vecRm o.ins) cols (fun c => if masked r c then redId o.kind else at_ o.vecA r c)
          leAt ((s.applyEff (s.vecEff o)).spadRead o.core (d.a + 4 * r) 4) 0 4
            = (if o.ins.zero 70 66 then v else redOp o.kind (vecRm o.ins) (at_ o.vecC r 0) v).toNat))
    ∧ (vecWid o.ins = true → cvtFaults o = [] → o.cvtF.none = false → o.ins.sb ≠ 0 → ∀ r < shapeRows (o.r 3), ∀ c < shapeCols (o.r 3),
        let t := o.cvtTile
        let d := areaOf (o.r 0)
        leAt ((s.applyEff (s.cvtEff o)).spadRead o.core (d.a + r * d.step .fp32 (shapeCols (o.r 3)) + 4 * c) 4) 0 4
          = (widen1 t.td.f ((s.tileCodes o.core t r).getD c 0) ((s.tileScales o.core t).getD (t.blockNo (t.elem c r)) 0)).toNat)

/-- A write to the scratchpad of a core changes the bytes of its range and no other byte of any core; a write to an object changes its range alone and
stamps WSTEP, unless it is of the object's recompute. -/
def Obligations.MemoryWrites : Prop :=
  (∀ (s : State) (k a j : Nat) (bs : List Byte), j < bs.length → Tab.get 0 (s.spadWrite k a bs).spad (spadKey k (a + j)) = bs.getD j 0)
    ∧ (∀ (s : State) (k a key : Nat) (bs : List Byte), (key < spadKey k a ∨ spadKey k a + bs.length ≤ key) →
        Tab.get 0 (s.spadWrite k a bs).spad key = Tab.get 0 s.spad key)
    ∧ (∀ (s : State) (i off j : Nat) (bs : List Byte), j < bs.length → Tab.get 0 (s.objWrite i off bs).objMem (objKey i (off + j)) = bs.getD j 0)
    ∧ (∀ (s : State) (i off key : Nat) (bs : List Byte), (key < objKey i off ∨ objKey i off + bs.length ≤ key) →
        Tab.get 0 (s.objWrite i off bs).objMem key = Tab.get 0 s.objMem key)
    ∧ (∀ (s : State) (i off : Nat) (bs : List Byte),
        ((s.objWrite i off bs).obj i).wstep = if (s.obj i).recompute.isSome then (s.obj i).wstep else s.nsb.step)
    ∧ ∀ (s : State) (i off : Nat) (bs : List Byte), s.MemoryWf → (s.objWrite i off bs).MemoryWf ∧ (s.spadWrite i off bs).MemoryWf

/-! ## The step boundary (R74 to R79) -/

/-- What NUM.STEPUPD and NUM.STEPBEGIN do to the numeric state block: after SKIP L_next falls by one, to −64 at least, and the clean count restarts; after
COMMIT, at the doubling interval, it rises by one, to 63 at most, and the count restarts; else L_next is L_step and the count rises. The cursor advances
in every case; step and L_step stay. One that finds the step applied changes nothing. NUM.STEPBEGIN adds 1 to the step, takes L_next, and clears outcome and taint. -/
def Obligations.StepScale : Prop :=
  (∀ n : Nsb, -64 ≤ n.lstep.toInt → n.lstep.toInt ≤ 63 →
    (n.outcome = 2 → n.stepupd.lnext.toInt = max (n.lstep.toInt - 1) (-64) ∧ n.stepupd.clean = 0)
    ∧ (n.outcome = 1 → n.clean + 1 = n.interval → n.stepupd.lnext.toInt = min (n.lstep.toInt + 1) 63 ∧ n.stepupd.clean = 0)
    ∧ (n.outcome = 1 → n.clean + 1 ≠ n.interval → n.stepupd.lnext = n.lstep ∧ n.stepupd.clean = n.clean + 1)
    ∧ -64 ≤ n.stepupd.lnext.toInt ∧ n.stepupd.lnext.toInt ≤ 63
    ∧ n.stepupd.step = n.step ∧ n.stepupd.lstep = n.lstep ∧ n.stepupd.cursor = n.cursor + n.stride.setWidth 64 ∧ n.stepupd.applied = true
    ∧ n.stepbegin.step = n.step + 1 ∧ n.stepbegin.lstep = n.lnext ∧ n.stepbegin.outcome = 0 ∧ n.stepbegin.taint = false
    ∧ n.stepbegin.key = n.key ∧ n.stepbegin.cursor = n.cursor)
  ∧ ∀ (id : Nat) (s : State) (o : Op) (x : Nat), s.findOp id = some o → o.id = id → o.src = .ctx x → o.st = .started → o.unit = .outbound → o.pinned = [] →
      s.Quiet → s.Unarmed → s.nsb.outcome ≠ 0 →
    (o.kind = .numStepupd → s.nsb.applied = false → (s.refs o).all (s.reaches o.src) = true → ∃ t, exec (.longOpComplete id []) s = .next t ∧ t.nsb = s.nsb.stepupd ∧ t.findOp id = none)
    ∧ (o.kind = .numStepupd → s.nsb.applied = true → (s.refs o).all (s.reaches o.src) = true →
        ∃ t, exec (.longOpComplete id []) s = .next t ∧ t.nsb = s.nsb ∧ t.findOp id = none)
    ∧ (o.kind = .numStepbegin → s.nsb.applied = true → s.captureDue = false → s.replayDue = false → s.pln.warn = false → s.prs.warned = false →
        s.arc.orEarly = [] →
      ∃ t, exec (.longOpComplete id []) s = .next t ∧ t.nsb = s.nsb.stepbegin ∧ t.findOp id = none)

/-! ## Contexts (R91, R92, R108) -/

/-- The end of a switch runs the context selected; the quantum replaces a context that has used it when one of equal or higher priority is READY; the
hold of a met SYN.WAIT ends past the instruction. -/
def Obligations.ContextSelection : Prop :=
  ∀ (s : State),
    (∀ (k : Fin 64) (x : Nat), (s.core k.val).switching = some x → s.canIssue k.val = true → (s.ctx x).st = .ready → (∀ y ∈ ctxsOf k.val, (s.ctx y).st ≠ .running) →
      ∃ t, exec (.contextSwitch k) s = .next t ∧ s.Reselected t ∧ (t.ctx x).st = .running ∧ (t.core k.val).switching = none)
    ∧ (∀ (k : Fin 64) (x y : Nat), (ctxsOf k.val).find? (fun z => (s.ctx z).st = .running) = some x → 256 ≤ (s.ctx x).issued → s.canIssue k.val = true →
        s.best k.val = some y → (s.ctx x).prio ≤ (s.ctx y).prio →
      exec (.contextQuantum k) s
        = .next ((s.setCore k.val { s.core k.val with quantum := true }).leave x { s.ctx x with st := .ready }))
    ∧ (∀ (x : Fin 512) (c : Counter) (v : W32), (s.ctx x).st = .waiting → (s.ctx x).wait = .delay c v → s.canIssue (coreOf x) = true →
      s.Gives (.waitDelayExpiry x) (s.past x (s.ctx x)))

/-- CORE_WDOG marks the slot of a core that has work and issues nothing failed, sets its fault bit and adds its repair record; MSN_WDOG stops mason until
the module is reset. -/
def Obligations.Watchdogs : Prop :=
  ∀ (s : State), s.Unarmed →
    (∀ (k : Fin 64) (p : Nat), s.slotOf k.val = some p → (∃ x ∈ ctxsOf k.val, (s.ctx x).st = .running) →
      ∃ t, exec (.coreWdog k) s = .next t ∧ (t.slot p).failed = true ∧ (t.slot p).fault.getLsbD 10 = true
        ∧ (∃ q ∈ t.ftg.repairs, q.typ = 5 ∧ q.slot = p) ∧ t.ctxs = s.ctxs ∧ t.objMem = s.objMem)
    ∧ (∀ m : Fin 4, s.msn.fw = true → ∃ t, exec (.msnWdog m) s = .next t ∧ t.msn.dead = true ∧ t.objMem = s.objMem)

/-! ## Footing and the undercroft (R247 to R261) -/

/-- SOFT_REPAIR takes the lowest unused spare row of the bank and records it; a row without one is written back in place and recorded with spare row 0xFF (the model's
choice, assumption 115), and its region becomes RETIRING; REGION_EMPTY retires the region with
32 units of capacity; SCRUB marks its stack, whose last row ends the pass (assumption 117); REFRESH changes no content; a temperature reading sets FTG_TEMP and keeps the maximum. -/
def Obligations.FootingUpkeep : Prop :=
  ∀ (s : State), s.Unarmed →
    (∀ (r : RowId) (p : PendingRow), s.Numbered → (s.stack r.stack.val).pendingRows.find? (fun p => p.row == r) = some p →
        p.inj = false → p.inPlace = false →
      ∃ t, exec (.softRepair ⟨r, []⟩) s = .next t
        ∧ Tab.get 0 (t.stack r.stack.val).spares r.bankKey = Tab.get 0 (s.stack r.stack.val).spares r.bankKey + 1
        ∧ (∃ q ∈ t.ftg.repairs, q.typ = 2 ∧ q.row = some r ∧ q.spare = Tab.get 0 (s.stack r.stack.val).spares r.bankKey)
        ∧ t.objMem = s.objMem)
    ∧ (∀ (r : RowId) (p : PendingRow), (s.stack r.stack.val).pendingRows.find? (fun p => p.row == r) = some p → p.inPlace = true →
        s.regionOut r.region = false →
      ∃ t, exec (.softRepair ⟨r, []⟩) s = .next t ∧ (∃ b, (r.region, r, b) ∈ t.ftg.retiring)
        ∧ (p.inj = false → ∃ q ∈ t.ftg.repairs, q.typ = 2 ∧ q.row = some r ∧ q.spare = 0xFF)
        ∧ Tab.get 0 (t.stack r.stack.val).spares r.bankKey = Tab.get 0 (s.stack r.stack.val).spares r.bankKey)
    ∧ (∀ (g : Nat) (r : RowId), s.ftg.retiring.find? (fun q => q.1 == g) = some (g, r, false) → s.emptied g = true →
      ∃ t, exec (.regionEmpty g) s = .next t ∧ g ∈ t.ftg.retired ∧ t.hod.allocFast = s.hod.allocFast - 32
        ∧ (∃ q ∈ t.ftg.repairs, q.typ = 4 ∧ q.region = g) ∧ t.objMem = s.objMem)
    ∧ (∀ (r : RowId), r.region ∉ s.ftg.retired → (s.stack r.stack.val).train = 1 → s.Quiet →
      ∃ t, exec (.scrub r []) s = .next t ∧ (t.stack r.stack.val).scrub = !lastOfStack r ∧ t.objMem = s.objMem ∧ t.bad = s.bad)
    ∧ (∀ (i : Fin 8), (s.stack i.val).train = 1 →
      exec (.refresh i) s = .next { s with ftg := { s.ftg with refreshes := s.ftg.refreshes + 1 } })
    ∧ (∀ (v : Vector (BitVec 8) 8) (i : Fin 8), (∀ j : Fin 8, (s.stack j.val).train = 1) →
      ∃ t, exec (.footingTempReading v) s = .next t ∧ (t.stack i.val).temp = v[i]
        ∧ (t.stack i.val).tmax.toNat = max (s.stack i.val).tmax.toNat v[i].toNat ∧ t.objMem = s.objMem)

/-- A HOD operation on an object in a state that satisfies it has its effect at its start and then awaits its completion, which leaves or gives up its pin. A move ends with
its object resident in the new home and its bytes unchanged; a recovery ends with the object resident and sound; a request held on capacity beyond
HOD_APPEND_LIMIT ends with PAGE_EXHAUSTED. -/
def Obligations.ObjectMoves : Prop :=
  ∀ (s : State), s.Unarmed →
    (∀ (k : Fin 64) (o : Op) (x : Nat), s.head k.val .outbound = some o → o.src = .ctx x → s.unitFree o = true → s.warned = false → s.faults8 o = [] →
        s.Quiet → s.NoneHeld → o.pinned = [] →
      let i := hIdx o.hodHandle
      let ob := s.obj i
      let n := fld o.hodArg 31 0
      let resident : Prop := ob.st = .fast ∨ ob.st = .slow
      let starts (done : State → Prop) : Prop := ∃ t, exec (.operationStart k ⟨.outbound, []⟩) s = .next t ∧ (∃ q ∈ t.ops, q.id = o.id ∧ q.st = .started)
        ∧ t.objMem = s.objMem ∧ t.nsb = s.nsb ∧ done t
      (o.kind = .hodPin → resident → starts (fun t => (t.obj i).pins = ob.pins + 1))
      ∧ (o.kind = .hodUnpin → starts (fun t => (t.obj i).pins = ob.pins - 1))
      ∧ (o.kind = .hodPromote → ob.st = .fast → ob.home = 0 → starts (fun t => (t.obj i).pins = ob.pins + 1))
      ∧ (o.kind = .hodDemote → ob.st = .slow → ob.home = 1 → o.target.1 = 1 → starts (fun t => t.obj i = ob))
      ∧ (o.kind = .hodDrop → s.mayDrop i = true → starts (fun t => (t.obj i).st = .dropped ∧ (t.obj i).page = ob.page))
      ∧ (o.kind = .hodTrim → resident → n ≤ ob.fill → starts (fun t => t.obj i = ob.setP 1 31 0 n))
      ∧ (o.kind = .hodAppend → resident → ob.fill + n ≤ ob.cap → starts (fun t => t.obj i = ob.setP 1 31 0 (ob.fill + n)
          ∧ t.spad = (s.spadWrite o.core (o.regs.getD 2 0).toNat
              (toBytes 4 ob.handle.toNat ++ toBytes 4 0 ++ toBytes 4 (ob.fill + n) ++ List.replicate 52 0)).spad)))
    ∧ (∀ (id i : Nat) (o : Op), s.EndsOutbound id o → o.kind.hodOp = true → o.pinned = [] ∨ o.pinned = [i] →
      ∃ t, exec (.longOpComplete id []) s = .next t ∧ t.findOp id = none ∧ t.objMem = s.objMem ∧ t.spad = s.spad ∧ t.acc = s.acc ∧ t.nsb = s.nsb
        ∧ (o.pinned = [i] → (t.obj i).pins = if o.keepsPin then (s.obj i).pins else (s.obj i).pins - 1))
    ∧ (∀ (i : Fin 1048576) (m : Move), s.Quiet → (s.obj i.val).move = some m → m.region = none → m.op = none → (s.obj i.val).st ≠ .poisoned → s.bad = [] →
        s.ops = [] →
      ∃ t, exec (.hodMoveComplete i []) s = .next t ∧ (t.obj i.val).home = m.toHome ∧ (t.obj i.val).move = none
        ∧ (t.obj i.val).st = (if m.toHome = 0 then .fast else .slow) ∧ t.objMem = s.objMem)
    ∧ (∀ (i : Fin 1048576) (src : Nat), s.Quiet → (s.obj i.val).recover = some src → (s.obj i.val).st = .poisoned → src ≠ 1 → s.ops = [] →
      ∃ t, exec (.recoveryComplete ⟨i, []⟩) s = .next t ∧ ((t.obj i.val).st = .fast ∨ (t.obj i.val).st = .slow) ∧ (t.obj i.val).recover = none
        ∧ (∀ b < 2 ^ 28, t.badBlock i.val b = 0) ∧ t.objMem = s.objMem)
    ∧ (∀ (id since prio n : Nat) (o : Op) (x : Nat), s.NoRecompute → s.findOp id = some o → o.id = id → o.st = .heldCap since prio n → o.src = .ctx x →
        fld s.hod.limit.toNat 47 0 < s.pln.cclk.toNat - since →
      ∃ t, exec (.pageExhausted id) s = .next t ∧ t.findOp id = none ∧ t.hod.fault.getLsbD 2 = true)

/-! ## Links (R289 to R291) -/

/-- A good flit with the SEQ expected is accepted and expected next is the SEQ after it; a good one that is ahead of its turn is kept for it; an invalid one is answered
with a NAK and accepted no further; a NAK counts a replay and makes the sender go back to the SEQ it names, and the eighth in succession for one SEQ retrains the
port, as a loss of lock does. Training in service: no failed lane, one, two to five, six or more, and no partner leave the port as R291 lists. -/
def Obligations.LinkPorts : Prop :=
  ∀ (s : State) (p : Fin 16), s.Unarmed →
    ((s.port p.val).inUse = true →
      (∀ f : Flit, f.fecOk = true → f.crcOk = true → flitFields f = true → sequenced f = true → f.seq = (s.pair (pairOf p.val)).expect →
          (∀ e ∈ (s.pair (pairOf p.val)).early, e.1 ≠ f.seq + 1) →
        ∃ t, exec (.flitReceive p f) s = .next t ∧ (t.pair (pairOf p.val)).expect = f.seq + 1 ∧ (t.pair (pairOf p.val)).nak = false ∧ t.objMem = s.objMem)
      ∧ (∀ f : Flit, f.fecOk = true → f.crcOk = true → flitFields f = true → sequenced f = true → f.seq ≠ (s.pair (pairOf p.val)).expect →
          (s.pair (pairOf p.val)).nak = false → (f.seq - (s.pair (pairOf p.val)).expect).toNat < 2048 → (∀ e ∈ (s.pair (pairOf p.val)).early, e.1 ≠ f.seq) →
        ∃ t, exec (.flitReceive p f) s = .next t ∧ (t.pair (pairOf p.val)).expect = (s.pair (pairOf p.val)).expect
          ∧ (t.pair (pairOf p.val)).early = (s.pair (pairOf p.val)).early ++ [(f.seq, p.val, f.typ != 4)])
      ∧ (∀ f : Flit, (f.fecOk = false ∨ f.crcOk = false ∨ 4 < f.typ.toNat ∨ f.rsv ≠ 0) →
        ∃ t, exec (.flitReceive p f) s = .next t ∧ (t.pair (pairOf p.val)).nak = true
          ∧ (t.pair (pairOf p.val)).expect = (s.pair (pairOf p.val)).expect ∧ t.objMem = s.objMem)
      ∧ (∀ q : BitVec 12, (∀ n, (s.pair (pairOf p.val)).resent = some (q, n) → n < 7) → ∃ t, exec (.nakReceived p q) s = .next t
          ∧ (t.port p.val).state = (s.port p.val).state ∧ (t.port p.val).replay = satInc (s.port p.val).replay ∧ (t.pair (pairOf p.val)).acked = q)
      ∧ (∀ q : BitVec 12, (s.pair (pairOf p.val)).resent = some (q, 7) → ∃ t, exec (.nakReceived p q) s = .next t ∧ (t.port p.val).state = 5)
      ∧ (∃ t, exec (.linkLossOfLock p) s = .next t ∧ (t.port p.val).state = 5 ∧ (t.port p.val).fault.getLsbD 1 = true ∧ t.pairs = s.pairs))
    ∧ (∀ r : Training, (s.port p.val).state = 5 →
      let n := popCount 9 r.failed.toNat
      ∃ t, exec (.linkRetrainDone p r) s = .next t
        ∧ (r.partner = false → (t.port p.val).state = 0)
        ∧ (r.partner = true → 6 ≤ n → (t.port p.val).state = 4)
        ∧ (r.partner = true → n < 6 → r.pport.val ≠ matching p.val → (t.port p.val).state = 4)
        ∧ (r.partner = true → 2 ≤ n → n < 6 → r.pport.val = matching p.val → (t.port p.val).state = 3 ∧ (t.port p.val).width = 4)
        ∧ (r.partner = true → n ≤ 1 → r.pport.val = matching p.val → (t.port p.val).state = 2 ∧ (t.port p.val).width = 8))

/-! ## Messages between modules (R302 to R308, R325, R326) -/

/-- A message of another epoch is discarded and counted, and one for another module is forwarded; neither has a further effect. -/
def Obligations.MessagesElsewhere : Prop :=
  ∀ (s : State) (m : Msg) (c : Instr) (ds : List Detect),
    c ∈ [Instr.sendArrival m, .circulationArrival m, .reductionPartialArrival ⟨m, ds⟩, .gatherArrival m, .orContributionArrival m, .remoteSignalArrival m,
      .completionArrival m, .peerReadRequest ⟨m, ds⟩, .peerData m] →
    (m.epoch ≠ s.kst.epoch → exec c s = .next { s with kst := { s.kst with discard := satInc s.kst.discard } })
    ∧ (m.epoch = s.kst.epoch → m.dst ≠ s.arc.node → exec c s = .next (s.sendMsg m))

/-- A send is written into its posted receive, which is then no longer posted, and the counter that it names is signalled behind its data; one without a receive is
discarded and reported. A circulation is written where its handle and offset say. A send for which 64 operations run, and a circulation whose object is held, wait on their
link, and so does what comes behind them from the same module on the same channel. An operation of the arch that is done signals and ends. -/
def Obligations.SendsArrive : Prop :=
  ∀ (s : State) (m : Msg), s.Arrives m →
    (∀ o : Op, s.recvFor m = some o → m.len = o.arcLen → s.arcRunning (s.arcUnit o) < 64 → (s.refs o).all (s.reaches o.src) = true →
      ∃ t, exec (.sendArrival m) s = .next t ∧ t.objMem = Mem.write s.objMem (objKey (hIdx o.arcDst) o.arcDoff) m.data
        ∧ o.id ∉ t.arc.posted ∧ t.nsb = s.nsb ∧ (m.ctr = none → t.kst = s.kst)
        ∧ ∀ (n : BitVec 12) (c : Counter), m.ctr = some n → 0x100 ≤ n.toNat → shortName 0 n.toNat = some c → t.counter c = (addSat (s.counter c) 1).1)
    ∧ (∀ o : Op, s.recvFor m = some o → m.len = o.arcLen → 64 ≤ s.arcRunning (s.arcUnit o) → exec (.sendArrival m) s = .next (s.waitIn m))
    ∧ (s.recvFor m = none → ∃ t, exec (.sendArrival m) s = .next t ∧ t.objMem = s.objMem ∧ t.arc.fault.getLsbD 0 = true ∧ t.arc.posted = s.arc.posted)
    ∧ (s.circTarget m = true → s.reaches (.ring 0 0 0 0) { h := m.tag.toNat, lo := m.off, n := m.data.length, wr := true } = true →
      ∃ t, exec (.circulationArrival m) s = .next t ∧ t.objMem = Mem.write s.objMem (objKey (hIdx m.tag.toNat) m.off) m.data
        ∧ t.arc.posted = s.arc.posted ∧ t.nsb = s.nsb)
    ∧ (s.circTarget m = true → s.reaches (.ring 0 0 0 0) { h := m.tag.toNat, lo := m.off, n := m.data.length, wr := true } = false →
      exec (.circulationArrival m) s = .next (s.waitIn m))
    ∧ (∀ p : Msg, p.epoch = s.kst.epoch → p.dst = s.arc.node → s.arc.heldIn.any (fun q => q.src == p.src && msgVc q == msgVc p) = true →
      exec (.sendArrival p) s = .next (s.waitIn p) ∧ exec (.circulationArrival p) s = .next (s.waitIn p))
    ∧ (∀ (id : Nat) (o : Op), s.EndsOutbound id o → o.kind ∈ [LKind.arcSend, .arcRecv, .arcCirc, .arcOvor] → o.pinned = [] →
      ∃ t, exec (.longOpComplete id []) s = .next t ∧ t.findOp id = none ∧ t.objMem = s.objMem ∧ t.spad = s.spad ∧ t.acc = s.acc ∧ t.nsb = s.nsb)

/-- A partial takes this module's terms by FP32 addition: at the chunk's owner it is written into the result, elsewhere it goes on unwritten; a gathered
half is written at its chunk's place. A collective that is done leaves its course, and is counted there. -/
def Obligations.CollectivesArrive : Prop :=
  (∀ (s : State) (id : Nat) (o : Op), s.EndsOutbound id o → o.kind.collective = true → o.pinned = [] →
      ∃ t, exec (.longOpComplete id []) s = .next t ∧ t.findOp id = none ∧ t.arc.coll o.arcCourse = none
        ∧ t.arc.done = s.arc.done.set o.arcCourse (s.arc.done.getD o.arcCourse 0 + 1) ∧ t.objMem = s.objMem ∧ t.nsb = s.nsb)
  ∧ ∀ (s : State) (m : Msg) (q : Coll) (o : Op), s.Arrives m → s.arc.coll m.course = some q → q.k = m.tag.toNat → s.findOp q.op = some o →
    collMatches o m = true → o.tds = [] → (s.refs o).all (s.reaches o.src) = true → s.bad = [] →
    let sum := bytesOf ((wordsOf m.data).zipWith (fadd32 .rne) (s.ownTerms o m.chunk (!m.following)))
    (o.kind = .arcRscat → m.chunk = s.arc.at o.arcCourse →
      ∃ t, exec (.reductionPartialArrival ⟨m, []⟩) s = .next t ∧ t.nsb = s.nsb
        ∧ t.objMem = Mem.write s.objMem (objKey (hIdx o.arcDst) (o.arcDoff + if m.following then 0 else o.resLen / 2)) sum)
    ∧ (m.chunk ≠ s.arc.at o.arcCourse →
      ∃ t, exec (.reductionPartialArrival ⟨m, []⟩) s = .next t ∧ t.objMem = s.objMem ∧ t.nsb = s.nsb
        ∧ ∃ p ∈ t.arc.outbox, p.kind = 2 ∧ p.chunk = m.chunk ∧ p.hop = m.hop + 1 ∧ p.data = sum)
    ∧ (o.kind = .arcAgath →
      ∃ t, exec (.gatherArrival m) s = .next t ∧ t.nsb = s.nsb
        ∧ t.objMem = Mem.write s.objMem (objKey (hIdx o.arcDst) (o.arcDoff + m.chunk * o.arcLen + if m.following then 0 else o.arcLen / 2)) m.data)

/-- A contribution of the step in force is kept once per member; the delivery of the OR is the outcome of the step, 1 clean and 2 overflow, and changes
nothing else of the numeric state. -/
def Obligations.OverflowOr : Prop :=
  ∀ s : State,
    (∀ m : Msg, s.Arrives m → m.tag = s.nsb.step.setWidth 32 → s.arc.posOf m.src.toNat m.course ≠ s.arc.at m.course →
      (∀ g ∈ s.arc.orGot, ¬(g.1 = m.course.val ∧ g.2.1 = s.arc.posOf m.src.toNat m.course)) →
      ∃ t, exec (.orContributionArrival m) s = .next t ∧ t.nsb = s.nsb
        ∧ t.arc.orGot = s.arc.orGot ++ [(m.course.val, s.arc.posOf m.src.toNat m.course, m.data.any (fun b => b != 0))])
    ∧ (s.orReady = true → s.nsb.outcome = 0 →
      ∃ t, exec .orDelivery s = .next t ∧ t.nsb = { s.nsb with outcome := if s.arc.orValue 4 then 2 else 1 }
        ∧ t.arc.delivered = true ∧ t.arc.result = s.arc.orValue 4 ∧ t.objMem = s.objMem ∧ t.spad = s.spad)

/-- A remote signal adds its amount to its job or system counter, saturating; a completion returns one remote signal, or lets its send complete; a read by
the peer that owns it is answered from the object hosted for it, and its data is written there, or waits on its link while the object is held; a marker is noted. -/
def Obligations.MessagesAnswered : Prop :=
  ∀ s : State,
    (∀ (m : Msg) (c : Counter), s.Arrives m → fullName 0 (leAt m.data 0 2) = some c → (∀ x n, c ≠ .ctx x n) →
      ∃ t, exec (.remoteSignalArrival m) s = .next t ∧ t.counter c = (addSat (s.counter c) (signed 32 (leAt m.data 4 4))).1
        ∧ t.objMem = s.objMem ∧ t.nsb = s.nsb)
    ∧ (∀ m : Msg, s.Arrives m → m.coll = 5 →
      ∃ t, exec (.completionArrival m) s = .next t ∧ t.kst.out = s.kst.out - 1 ∧ t.ops = s.ops ∧ t.objMem = s.objMem)
    ∧ (∀ (m : Msg) (o : Op), s.Arrives m → m.coll = 0 → s.findOp m.op = some o → o.kind = .arcSend → o.st = .remote →
      exec (.completionArrival m) s = .next (s.setOp { o with st := .started }))
    ∧ (∀ m : Msg, s.Arrives m → (s.arc.route m.src.toNat).isSome = true →
      (s.ownerOf m m.len = true → s.bad = [] →
          s.reaches (.ring 0 0 0 0) { h := m.tag.toNat, lo := m.off, n := m.len, wr := false } = true →
        ∃ t, exec (.peerReadRequest ⟨m, []⟩) s = .next t ∧ t.objMem = s.objMem
          ∧ ∃ p ∈ t.arc.outbox, p.kind = 7 ∧ p.dst = m.src ∧ p.op = m.op ∧ p.data = s.objRead (hIdx m.tag.toNat) m.off m.len)
      ∧ (s.ownerOf m m.data.length = true → s.reaches (.ring 0 0 0 0) { h := m.tag.toNat, lo := m.off, n := m.data.length, wr := true } = true →
        ∃ t, exec (.peerData m) s = .next t ∧ t.objMem = Mem.write s.objMem (objKey (hIdx m.tag.toNat) m.off) m.data)
      ∧ (s.ownerOf m m.data.length = true → s.reaches (.ring 0 0 0 0) { h := m.tag.toNat, lo := m.off, n := m.data.length, wr := true } = false →
        exec (.peerData m) s = .next (s.waitIn m)))
    ∧ (∀ (p : Fin 8) (v : Fin 4) (e : BitVec 8),
      ∃ t, exec (.epochMarker p v e) s = .next t ∧ (p.val, v.val, e.toNat) ∈ t.kst.markers
        ∧ t = { s with kst := { s.kst with markers := t.kst.markers } })

/-! ## Quarry (R356, R365, R367) -/

/-- ING.OPEN opens its context with its descriptor and ING.CLOSE closes it. An idle engine takes the oldest decode that it may; a decode that completes frees its engine and counts a picture; the watchdog frees its engine and
closes its context in throughput mode, and does nothing in guarded mode. -/
def Obligations.Decodes : Prop :=
  ∀ (s : State) (e : Fin 8), s.Unarmed →
    (∀ (id : Nat) (o : Op), s.EndsOutbound id o → o.pinned = [] →
      (o.kind = .ingOpen → ∃ t, exec (.longOpComplete id []) s = .next t ∧ t.findOp id = none ∧ t.objMem = s.objMem
        ∧ Tab.get none t.qry.streams o.stream = some { desc := o.desc, guarded := o.ins.flag 0 })
      ∧ (o.kind = .ingClose → s.decodesBefore o = [] →
        ∃ t, exec (.longOpComplete id []) s = .next t ∧ t.findOp id = none ∧ t.objMem = s.objMem ∧ Tab.get none t.qry.streams o.stream = none))
    ∧ (∀ o : Op, s.engine e = none → s.warned = false → s.Quiet → o.kind = .ingDecode → (Tab.get none s.qry.streams o.stream).isSome = true →
      s.qry.queue.findSome? (fun id => (s.findOp id).filter (fun o => !s.decoding.contains o.stream && (s.decodesBefore o).isEmpty)) = some o →
      (s.refs o).all (fun r => s.named r.h) = true → (s.refs o).all (s.reaches o.src) = true →
      ∃ t, exec (.decodeStart e) s = .next t ∧ Tab.get none t.qry.engines e.val = some o.id ∧ o.id ∉ t.qry.queue
        ∧ ∃ p ∈ t.ops, p.id = o.id ∧ p.st = .started)
    ∧ (∀ (o : Op) (q : Stream), s.engine e = some o → Tab.get none s.qry.streams o.stream = some q → o.st = .started → s.bad = [] →
      (s.refs o).all (s.reaches o.src) = true →
      ∃ t, exec (.decodeComplete e []) s = .next t ∧ t.qry.pics = s.qry.pics + 1 ∧ Tab.get none t.qry.engines e.val = none ∧ t.nsb = s.nsb)
    ∧ (∀ (o : Op) (q : Stream), s.engine e = some o → Tab.get none s.qry.streams o.stream = some q → q.guarded = false →
      ∃ t, exec (.qryWdog e) s = .next t ∧ Tab.get none t.qry.engines e.val = none ∧ Tab.get none t.qry.streams o.stream = none
        ∧ t.qry.fault.getLsbD 5 = true ∧ t.qry.pics = s.qry.pics)
    ∧ (∀ (o : Op) (q : Stream), s.engine e = some o → Tab.get none s.qry.streams o.stream = some q → q.guarded = true → exec (.qryWdog e) s = .next s)

/-! ## Ring 0 (R381, R382) -/

/-- Every command of ring 0 with a header bit or an unused byte that is not zero is answered MALFORMED, and before start-up step 8 NOJOB; after a class M
event all but PREEMPT and JOB_STOP are answered REFUSED. -/
def Obligations.RingChecks : Prop :=
  ∀ (s : State) (op : Nat) (e : BitVec 512) (c : Instr) (ds : List Detect) (reports : List Neighbour),
    (op, c) ∈ [(0x01, Instr.create e), (0x02, .destroy e), (0x03, .promote e), (0x04, .demote e), (0x05, .registerClass e), (0x06, .codeLoad e),
      (0x10, .jobStart e reports), (0x11, .preempt e), (0x12, .resume e), (0x13, .jobStop e), (0x14, .restore ⟨e, ds⟩), (0x15, .sourceDone e), (0x16, .continueJob e)] →
    s.Takes op e → s.prs.capture = .none →
    ((entHead e && entZeros op e) = false → exec c s = .next (s.answers e stMalformed 0))
    ∧ (entHead e = true → entZeros op e = true → s.pln.stage < 8 → exec c s = .next (s.answers e stNojob 0))
    ∧ (entHead e = true → entZeros op e = true → 8 ≤ s.pln.stage → s.pln.stopped = true → op ≠ 0x11 → op ≠ 0x13 →
      exec c s = .next (s.answers e stRefused 0))

/-- CREATE of an object that its home has room for installs it at the lowest free index with zero bytes; DESTROY frees its entry; PROMOTE and DEMOTE begin
their moves. -/
def Obligations.ObjectCommands : Prop :=
  ∀ (s : State) (e : BitVec 512), s.Quiet → s.NoneHeld → s.Numbered →
    let h := entAt e 8 4
    let i := hIdx h
    (∀ j : Nat, s.Accepts 0x01 e → createOk e = true → entAt e 8 1 = 0 → s.freeIndex = some j → entAt e 12 4 ≤ s.freeUnits (fld (entAt e 10 1) 1 0) →
      ∃ t, exec (.create e) s = .next t ∧ (t.obj j).handle = s.nextHandle j ∧ (t.obj j).size = entAt e 12 4
        ∧ (t.obj j).st = (if fld (entAt e 10 1) 1 0 = 0 then .fast else .slow) ∧ (t.obj j).wstep = BitVec.allOnes 64
        ∧ t.objMem = Mem.clear s.objMem (objKey j 0) (2 ^ 40))
    ∧ (s.Accepts 0x02 e → h < 2 ^ 24 → s.ringHandleOk h = true → s.destroyRefused i = false → ((s.obj i).st = .fast ∨ (s.obj i).st = .slow) →
        s.inProgress i = false →
      ∃ t, exec (.destroy e) s = .next t ∧ (t.obj i).st = .free ∧ (t.obj i).handle = (s.obj i).handle)
    ∧ (s.Accepts 0x03 e → h < 2 ^ 24 → s.ringHandleOk h = true → (s.obj i).st = .slow → (s.obj i).move = none → s.inProgress i = false →
        (s.obj i).size ≤ s.hod.freeFast →
      ∃ t, exec (.promote e) s = .next t ∧ (t.obj i).st = .up ∧ (t.obj i).move = some { toHome := 0, op := some s.nextOp } ∧ t.objMem = s.objMem)
    ∧ (s.Accepts 0x04 e → h < 2 ^ 24 → s.ringHandleOk h = true → entAt e 12 1 = 0 → entAt e 14 2 = 0 → (s.obj i).kind ≠ .code → (s.obj i).st = .fast → (s.obj i).home = 0 →
        (s.obj i).pins = 0 → (s.obj i).move = none → s.inProgress i = false → (s.obj i).size ≤ s.hod.freeSlow →
      ∃ t, exec (.demote e) s = .next t ∧ (t.obj i).st = .down ∧ (t.obj i).move = some { toHome := 1, op := some s.nextOp } ∧ t.objMem = s.objMem)

/-- REGISTER notes the classes that take effect at the next boundary; CODE_LOAD of a sound object in footing makes it a code object pinned for its life, notes its text
region and answers OK with its handle, as it does for an object that is a code object already; one in the undercroft is promoted first. -/
def Obligations.RegisterAndLoad : Prop :=
  ∀ (s : State) (e : BitVec 512),
    let h := entAt e 8 4
    let i := hIdx h
    let r := (entAt e 12 1, entAt e 13 1, entAt e 14 1)
    let d := s.objRead i 0 256
    (s.Accepts 0x05 e → h < 2 ^ 24 → r.1 ≤ 4 → r.2.1 ≤ 3 → (r.2.1 = 1 ↔ r.2.2 ≠ 0) → s.ringHandleOk h = true → s.registerRefused i r = false →
      exec (.registerClass e) s
        = .next ((((s.taken e).setObj i { s.obj i with regNext := some r })).answer 0 (s.ring 0).head.toNat stOk 0))
    ∧ (s.Accepts 0x06 e → h < 2 ^ 24 → s.ringHandleOk h = true → s.waitsFor h = false → (s.obj i).kind = .data → s.codeOk i = true → (s.obj i).home = 0 →
      exec (.codeLoad e) s
        = .next (((s.taken e).setObj i { s.obj i with
            kind := .code, pins := (s.obj i).pins + 1, loadPin := true, evict := false, codeText := some (leAt d 8 8, leAt d 16 8) }).answer 0
              (s.ring 0).head.toNat stOk h))
    ∧ (s.Accepts 0x06 e → h < 2 ^ 24 → s.ringHandleOk h = true → (s.obj i).kind = .code → exec (.codeLoad e) s = .next (s.answers e stOk h))
    ∧ (s.Accepts 0x06 e → h < 2 ^ 24 → s.ringHandleOk h = true → (s.obj i).kind = .data → s.codeOk i = true → s.Quiet → s.NoneHeld → s.Numbered →
        (s.obj i).st = .slow → (s.obj i).home = 1 → (s.obj i).move = none → s.inProgress i = false → (s.obj i).size ≤ s.hod.freeFast →
      ∃ t, exec (.codeLoad e) s = .next t ∧ (t.obj i).kind = .code ∧ (t.obj i).st = .up ∧ (t.obj i).move = some { toHome := 0, op := some s.nextOp }
        ∧ t.objMem = s.objMem)

/-- JOB_START past every refusal: the job runs with the numeric state of its description, at the node that it gives and in epoch 0. PREEMPT stops every context,
RESUME makes the stopped ones ready, JOB_STOP ends the job. -/
def Obligations.JobCommands : Prop :=
  ∀ (s : State) (e : BitVec 512),
    let h := entAt e 8 4
    let j : Job := { d := s.objRead (hIdx h) 0 256 }
    (∀ (reports : List Neighbour) (v : State), s.Accepts 0x10 e → h < 2 ^ 24 → s.waitsFor h = false → s.msn.job = false → s.pln.noJob = false →
        s.ringHandleOk h = true → (s.obj (hIdx h)).kind = .data → 256 ≤ (s.obj (hIdx h)).bytes → (s.jobBad j).min? = none →
        s.topoMismatch (s.topology j) reports = none → (s.taken e).buildMap = some v → (s.taken e).freeImages.jobRoom j = true →
      ∃ t, exec (.jobStart e reports) s = .next t ∧ t.msn.job = true ∧ t.nsb = { nsbOf ((j.d.drop 16).take 64) with outcome := 0, applied := false }
        ∧ t.arc.node = (s.topology j).node ∧ t.kst.epoch = 0 ∧ t.kst.active = true ∧ t.prs.capture = .none)
    ∧ (s.Accepts 0x11 e → s.held = false →
      ∃ t, exec (.preempt e) s = .next t ∧ ∀ x, (t.ctx x).st ≠ .ready ∧ (t.ctx x).st ≠ .running ∧ (t.ctx x).st ≠ .waiting)
    ∧ (s.Accepts 0x12 e → s.prs.capture = .none →
      ∃ t, exec (.resume e) s = .next t ∧ ∀ x, (s.ctx x).st = .stopped → (t.ctx x).st = .ready ∨ (t.ctx x).st = .running)
    ∧ (s.Accepts 0x13 e →
      ∃ t, exec (.jobStop e) s = .next t ∧ t.msn.job = false ∧ t.kst.active = false ∧ t.kst.epoch = s.kst.epoch + 1 ∧ t.nsb = s.nsb
        ∧ t.overflow = false ∧ t.mtr.combine = [])

/-! ## Restore and the replay check (R350, R351) -/

/-- RESTORE with a sound image of its own gets as far as the barrier after step 3, which a module's different numeric state fails; the last barrier ends
it; SOURCE_DONE accepts an object whose digest is right; CONTINUE ends a hold without reference. -/
def Obligations.RestoreCommands : Prop :=
  ∀ (s : State) (e : BitVec 512),
    (∀ m : Image, s.Accepts 0x14 e → s.Unarmed → s.msn.job = true →
        s.prs.images.find? (fun m => m.complete && m.usable && m.step.toNat == entAt e 16 8 && m.jobId == BitVec.ofNat 64 (entAt e 8 8)) = some m →
        s.manifestOk m = true →
      ∃ t, exec (.restore ⟨e, []⟩) s = .next t ∧ t.prs.restore = .nsbBarrier m true ∧ t.kst.epoch = s.kst.epoch + 1 ∧ t.nsb = s.nsb)
    ∧ (∀ (m : Image) (own : Bool) (others : List (BitVec 512)), s.Unarmed → s.prs.restore = .nsbBarrier m own → s.markersIn = true → s.warned = false →
        (∃ o ∈ others, nsbKey (entBytes o) ≠ nsbKey m.nsb.bytes) →
      ∃ t, exec (.restoreBarrier ⟨others, []⟩) s = .next t ∧ t.prs.restore = .none ∧ t.prs.fault.getLsbD 6 = true ∧ t.nsb = s.nsb)
    ∧ (∀ others : Met (List (BitVec 512)), s.prs.restore = .lastBarrier → s.warned = false →
      ∃ t, exec (.restoreBarrier others) s = .next t ∧ t.prs.restore = .none
        ∧ ∀ x, (s.ctx x).st = .stopped → (t.ctx x).st = .ready ∨ (t.ctx x).st = .running)
    ∧ (∀ (m : Image) (wanted : List Nat) (q : Saved), s.Accepts 0x15 e → s.prs.restore = .sources m wanted → entAt e 8 4 < 2 ^ 24 →
        m.objs.find? (fun q => q.idx == hIdx (entAt e 8 4) && q.obj.handle.toNat == entAt e 8 4 && wanted.contains (hIdx (entAt e 8 4))) = some q →
        s.digest (hIdx (entAt e 8 4)) = q.digest →
      ∃ t, exec (.sourceDone e) s = .next t ∧ (t.obj (hIdx (entAt e 8 4))).wstep = m.step)
    ∧ (∀ r : Replay, s.Accepts 0x16 e → s.prs.replay = some r → r.held = true → r.noref = true →
      ∃ t, exec (.continueJob e) s = .next t ∧ t.prs.replay = none ∧ t.nsb = s.nsb)

/-! ## START (R140, R383) -/

/-- A START entry on the ring that mason serves next, in its form, starts its context at the entry's place in the code object, with handle, priority and arguments as the
entry gives them; one that is not is answered MALFORMED. A waiting entry starts in the same way once mason serves its ring, and after a class M event is answered
REFUSED. -/
def Obligations.Starts : Prop :=
  ∀ (s : State) (r : Fin 32), s.startsHeld = false → s.nextServed = some r.val → (∀ x, (s.ctx x).st ≠ .faulted) →
    let started (e : BitVec 512) (x pc : Nat) (t : State) : Prop :=
      (t.ctx x).pc = BitVec.ofNat 64 pc ∧ (t.ctx x).code = BitVec.ofNat 32 (entAt e 8 4) ∧ (t.ctx x).prio = BitVec.ofNat 2 (entAt e 18 1)
        ∧ ((t.ctx x).st = .ready ∨ (t.ctx x).st = .running) ∧ (∀ j < 4, (t.ctx x).sreg (j + 1) = BitVec.ofNat 64 (entAt e (24 + 8 * j) 8))
        ∧ (∀ j, (t.ctx x).counter j = (s.ctx x).counter j) ∧ t.objMem = s.objMem
    (∀ (e : BitVec 512) (x pc : Nat), s.pln.stopped = false → s.waitingStart r = none → s.entryAt r (s.ring r).head.toNat = some (entBytes e) →
        startOk e = true → s.msn.job = true → s.entryOf (entAt e 8 4) (entAt e 12 4) = some pc → s.namesReserved e = false → s.pickCtx e = some x →
      ∃ t, exec (.startEntry r e) s = .next t ∧ started e x pc t)
    ∧ (∀ e : BitVec 512, s.pln.stopped = false → s.waitingStart r = none → s.entryAt r (s.ring r).head.toNat = some (entBytes e) → startOk e = false →
      exec (.startEntry r e) s
        = .next (({ s.fetch r (entTag e) (entFlags e) with msn := { s.msn with served := r.val } }).answer r (s.ring r).head.toNat stMalformed 0))
    ∧ (∀ w : Started, s.pln.stopped = true → s.waitingStart r = some w → exec (.startDispatch r) s = .next (s.refuseStart w))
    ∧ (∀ (w : Started) (x pc : Nat), s.pln.stopped = false → s.waitingStart r = some w →
        s.pickCtx w.entry = some x → s.entryOf (entAt w.entry 8 4) (entAt w.entry 12 4) = some pc →
      ∃ t, exec (.startDispatch r) s = .next t ∧ started w.entry x pc t)

/-! ## The host interface (R373 to R380, R382, R423, R447 to R454, R465) -/

/-- A doorbell in range moves the tail, one out of range disables its ring; EN on a sound ring resets and enables it, EN = 0 disables it; HIF_CQ_HEAD in
range is taken. -/
def Obligations.RingRegisters : Prop :=
  ∀ (s : State) (r : Fin 32) (v : W32), s.HostUp → s.Unarmed →
    let g := s.ring r
    let w : BitVec 16 := v.setWidth 16
    (g.en = true → v.toNat < 2 ^ 16 → (g.tail - g.head).toNat ≤ (w - g.head).toNat → (w - g.head).toNat ≤ s.ringSize r →
      exec (.doorbell r v) s = .next (s.setRing r { g with tail := w }))
    ∧ (g.en = true → (2 ^ 16 ≤ v.toNat ∨ (w - g.head).toNat < (g.tail - g.head).toNat ∨ s.ringSize r < (w - g.head).toNat) →
      ∃ t, exec (.doorbell r v) s = .next t ∧ (t.ring r).en = false ∧ (t.ring r).tail = g.tail ∧ t.hif.fault.getLsbD 0 = true)
    ∧ (v.getLsbD 5 = true → g.en = false → g.drain = false → r ≠ 0 → s.ringSound r (fld v.toNat 4 0) = true →
      exec (.ringEnable r v) s
        = .next (s.setRing r { g with log2 := fld v.toNat 4 0, en := true, head := 0, tail := 0, cqHead := 0, posted := 0, consumed := 0, fetched := [] }))
    ∧ (v.getLsbD 5 = false → g.en = true → exec (.ringDisable r v) s = .next (s.setRing r { g with en := false, drain := !g.fetched.isEmpty }))
    ∧ ((w - g.cqHead).toNat ≤ g.posted - g.consumed →
      exec (.cqHeadWrite r v) s = .next (s.setRing r { g with cqHead := w, consumed := g.consumed + (w - g.cqHead).toNat }))

/-- The selections latch what they select; LDG_INJ_CTL arms a point only under debug unlock; a SET by the debug port writes a counter; W1C bits clear where
ones are written, and in no other register; a register write by the host changes no context, operation, memory or numeric state, one to HOD_APPEND_LIMIT
stores its 48 bits, and a misaligned one is an Unsupported Request; one by the debug port needs scope 0. -/
def Obligations.RegisterWrites : Prop :=
  ∀ s : State, s.HostUp →
    (∀ v : W32, exec (.hodEntrySel v) s
      = .next { s with hod := { s.hod with sel := BitVec.ofNat 32 (fld v.toNat 19 0), entryData := s.entryWords (fld v.toNat 19 0) } })
    ∧ (∀ v : W64, exec (.ldgReadSel v) s = .next { s with ldg := { s.ldg with readSel := v, readData := s.recordBytes v.toNat } })
    ∧ (∀ v : W64, s.unlocked 2 = false → exec (.injectionArm v) s = .next s)
    ∧ (∀ v : W64, s.unlocked 2 = true → v.getLsbD 40 = true → injectable.contains (fld v.toNat 15 0) = true →
        injSource (fld v.toNat 15 0) (fld v.toNat 31 16) = true → fld v.toNat 39 32 ≠ 0 →
      ∃ t, exec (.injectionArm v) s = .next t ∧ t.ldg.injCtl.getLsbD 40 = true ∧ t.ldg.injLeft = fld v.toNat 39 32)
    ∧ (∀ (c : Counter) (v : W32), s.unlocked 0 = true → s.unlocked 1 = true →
      ∃ t, exec (.kstDebugSet c v) s = .next t ∧ t.counter c = v ∧ t.sticky c = false ∧ t.kst.fault.getLsbD 1 = true)
    ∧ (∀ (v ev : W32) (a n : Nat) (reg : State → W32), ClearReg a n reg →
      ∃ t, exec (.w1cClear (.bar0 a) v ev) s = .next t ∧ (∀ b < 32, (reg t).getLsbD b = ((reg s).getLsbD b && !v.getLsbD b || decide (b < n) && ev.getLsbD b))
        ∧ t.objMem = s.objMem ∧ t.spad = s.spad ∧ t.acc = s.acc ∧ t.nsb = s.nsb ∧ t.ctxs = s.ctxs ∧ t.ops = s.ops)
    ∧ (∀ (v ev : W32) (a : Nat), (∀ n reg, ¬ClearReg a n reg) → exec (.w1cClear (.bar0 a) v ev) s = .next s)
    ∧ (∀ (a size : Nat) (v : W64), barAligned a size = true →
      ∃ t, exec (.registerWrite .host a size v) s = .next t ∧ t.objMem = s.objMem ∧ t.spad = s.spad ∧ t.acc = s.acc ∧ t.nsb = s.nsb ∧ t.ctxs = s.ctxs
        ∧ t.ops = s.ops)
    ∧ (∀ v : W64, exec (.registerWrite .host 0xB00028 8 v) s = .next { s with hod := { s.hod with limit := v &&& 0xFFFFFFFFFFFF } })
    ∧ (∀ (a size : Nat) (v : W64), barAligned a size = false → exec (.registerWrite .host a size v) s = .next (s.answerHost .unsupported))
    ∧ ∀ (a size : Nat) (v : W64), s.unlocked 0 = false → exec (.registerWrite .debugPort a size v) s = .next s

/-- A read through a valid window answers the object's bytes and a write stores them, where the object is resident and sound; a write that arrives poisoned stores nothing (the model's choice, assumption 130); an access through no valid
window is an Unsupported Request; a read held too long is answered poisoned. Configuration requests are answered RETRY before step 2 and then with the identity of the
function. A Function Level
Reset and PERST_N end the job and leave every ring disabled, without a completion; the link trains at the width and rate reached. -/
def Obligations.HostAccesses : Prop :=
  ∀ s : State,
    (∀ (w : Fin 256) (off : Fin 1073741824) (len : Nat) (r : ObjRef), s.HostUp → s.Unarmed → s.Quiet → s.bad = [] →
        s.window w off len false = some r → s.bar2Ok r = true → s.reaches .host r = true → s.behind r = false → (s.obj (hIdx r.h)).home ≠ 2 →
      exec (.bar2Read w off len []) s = .next (s.answerHost (.data (s.objRead (hIdx r.h) r.lo r.n))))
    ∧ (∀ (w : Fin 256) (off : Fin 1073741824) (data : List Byte) (r : ObjRef), s.HostUp → s.Unarmed → s.Quiet → s.bad = [] →
        s.window w off data.length true = some r → s.bar2Ok r = true → s.reaches .host r = true → s.behind r = false → (s.obj (hIdx r.h)).kind ≠ .code →
        s.captureHolds (hIdx r.h) = false → (s.obj (hIdx r.h)).home ≠ 2 →
      exec (.bar2Write w off ⟨⟨data, false⟩, []⟩) s = .next (s.objWrite (hIdx r.h) r.lo data))
    ∧ (∀ (w : Fin 256) (off : Fin 1073741824) (data : List Byte) (ds : List Detect) (r : ObjRef), s.HostUp → s.window w off data.length true = some r →
        s.bar2Ok r = true →
      exec (.bar2Write w off ⟨⟨data, true⟩, ds⟩) s = .next { s with hif := { s.hif with aer := setBit s.hif.aer 12 true } })
    ∧ (∀ (w : Fin 256) (off : Fin 1073741824) (len : Nat) (data : Met WriteTlp) (ds : List Detect), s.HostUp → bitOf (Tab.get 0 s.hif.win w.val).toNat 24 = false →
      exec (.bar2Read w off len ds) s = .next ((s.hifFault 1).answerHost .unsupported)
        ∧ exec (.bar2Write w off data) s = .next ((s.hifFault 1).answerHost .unsupported))
    ∧ (∀ (o : Op) (n i off len : Nat), s.ops = [o] → o.kind = .hostRead → o.words = [n, i, off, len] → (∀ x, (s.ctx x).wait ≠ .fetch ∧ (s.ctx x).wait ≠ .held) →
      exec (.bar2ReadTimeout n) s = .next ((({ s with ops := [] }).hifFault 2).late n (.poisoned len)))
    ∧ (s.hif.down = false → exec .configRequest s = .next (s.answerHost (if s.pln.stage < 2 then .retry else .config 0x1F3C 0x0C61)))
    ∧ (∀ w v : BitVec 4, w.toNat ∈ [1, 2, 4, 8] → 1 ≤ v.toNat → v.toNat ≤ 7 →
      exec (.pcieLinkTraining w v) s = .next { s with hif := { s.hif with width := w.toNat, speed := v.toNat, down := false } })
    ∧ ((s.hif.down = false → 2 ≤ s.pln.stage →
        ∃ t, exec .functionLevelReset s = .next t ∧ t.msn.job = false ∧ t.hif.rings = [] ∧ t.hif.width = 0 ∧ t.hif.speed = 0
          ∧ t.hostMem = s.hostMem ∧ t.kst.epoch = s.kst.epoch + 1)
      ∧ (s.hif.down = false →
        ∃ t, exec .perstN s = .next t ∧ t.msn.job = false ∧ t.hif.rings = [] ∧ t.hif.down = true ∧ t.hif.width = 0 ∧ t.hostMem = s.hostMem))

/-! ## Preservation (R337 to R346, R350) -/

/-- The orders of a capture: quiescence, without which the barrier does nothing, the barrier, which a tainted step ends without a capture, the end barrier, at which a module that has stopped stays, and the bound on quiescence; the drain
ends with a complete image, and with one that is unusable where a page of it cannot be read; a replay check passes, or holds the job. -/
def Obligations.Captures : Prop :=
  ∀ (s : State) (b : Nat),
    (s.prs.capture = .quiesce b → s.quiescent = true → exec .captureQuiescent s = .next { s with prs := { s.prs with capture := .barrier b } })
    ∧ (s.prs.capture = .quiesce b →
      ∃ t, exec .prsQuiesceTimeout s = .next t ∧ t.prs.capture = .none ∧ t.prs.fault.getLsbD 3 = true ∧ t.kst.quiesce = false ∧ t.objMem = s.objMem)
    ∧ (∀ others : List CaptureInfo, s.prs.capture = .barrier b → s.quiescent = true → s.warned = false → s.nsb.taint = true → s.prs.pendingSnap = none →
      ∃ t, exec (.captureBarrier ⟨others, []⟩) s = .next t ∧ t.prs.capture = .none ∧ t.prs.captured = some b ∧ t.prs.slots = s.prs.slots
        ∧ t.prs.staged = s.prs.staged)
    ∧ (∀ others : Met (List CaptureInfo), s.prs.capture = .barrier b → s.quiescent = false ∨ s.warned = true → exec (.captureBarrier others) s = .next s)
    ∧ (∀ others : List CaptureInfo, s.prs.capture = .barrier b → s.quiescent = true → s.warned = false → s.nsb.taint = false → others.all (fun o => !o.taint) = true → s.prs.pendingSnap = none →
        s.mirrorDue b = true → s.snapDue b = false →
      ∃ t, exec (.captureBarrier ⟨others, []⟩) s = .next t ∧ t.prs.capture = .saving b true false ∧ t.objMem = s.objMem
        ∧ ∀ x, (t.ctx x).st ≠ .ready ∧ (t.ctx x).st ≠ .running ∧ (t.ctx x).st ≠ .waiting)
    ∧ (∀ mirror snap : Bool, s.prs.capture = .saving b mirror snap → s.Unarmed → s.bad = [] → s.pln.stopped = false → s.msn.dead = false → s.warned = false →
        s.captureRefs.all (s.reaches (.ring 0 0 0 0)) = true →
      ∃ t, exec .captureEndBarrier s = .next t ∧ t.prs.capture = .none ∧ t.prs.captured = some b ∧ t.kst.quiesce = false)
    ∧ (s.pln.stopped = true ∨ s.msn.dead = true → exec .captureEndBarrier s = .next s)
    ∧ (∀ m : Image, s.prs.staged = some m → s.prs.capture = .none → m.jobId = s.prs.jobId →
      ∃ t, exec (.cairnDrainComplete true) s = .next t ∧ t.prs.staged = none ∧ t.prs.drain = 0
        ∧ { m with complete := true, usable := true } ∈ t.prs.images)
    ∧ (∀ m : Image, s.prs.staged = some m → s.prs.capture = .none → m.jobId = s.prs.jobId →
      ∃ t, exec (.cairnDrainComplete false) s = .next t ∧ t.prs.staged = none ∧ { m with complete := true, usable := false, flashInj := false } ∈ t.prs.images
        ∧ t.prs.fault.getLsbD 2 = true)
    ∧ (∀ (r : Replay) (others : List Verdict), s.prs.replay = some r → r.held = false →
      (r.verdict = some .matches → others.all (fun o => o == .matches) = true →
        ∃ t, exec (.replayVerdict others) s = .next t ∧ t.prs.replay = none ∧ t.objMem = s.objMem)
      ∧ (r.verdict = some .differs →
        ∃ t, exec (.replayVerdict others) s = .next t ∧ t.prs.replay = some { r with held := true, noref := false } ∧ t.prs.fault.getLsbD 4 = true))

/-! ## The ledger (R432 to R437) -/

/-- A refill gives every budget one record, up to 1,024; a forced flush begins the write to the tail of every staged record that is not yet in flash; LEDGER_DROP stages
one record, with the counts of drops by class and the code and source of the first, and clears the counts; a flash program that succeeds stores its records, one that
fails is reported and repeated in the next unit of its area. -/
def Obligations.LedgerUpkeep : Prop :=
  ∀ s : State,
    (∃ t, exec .budgetRefill s = .next t ∧ t = { s with ldg := { s.ldg with budgets := t.ldg.budgets } }
      ∧ ∀ k n : Nat, (k, n) ∈ t.ldg.budgets ↔ (n < 1024 ∧ 0 < n ∧ (k, n - 1) ∈ s.ldg.budgets))
    ∧ (s.ldg.staged.any (fun q => !q.written) = true → ∃ t, exec .forcedFlush s = .next t ∧ (∀ q ∈ t.ldg.staged, q.written = true)
      ∧ (s.ldg.dropFirst = none →
        t = { s with ldg := { s.ldg with staged := t.ldg.staged, programs := t.ldg.programs, tailUnit := t.ldg.tailUnit } }
        ∧ ∀ q ∈ s.ldg.staged, q.written = false → ∃ u ∈ t.ldg.programs, u.area = .tail ∧ q.rcd ∈ u.recs))
    ∧ (s.ldg.staged.any (fun q => !q.written) = false → exec .forcedFlush s = .next s)
    ∧ (∀ code src : Nat, s.ldg.dropFirst = some (code, src) → s.ldg.room .general = true ∨ s.ldg.room .alarm = true →
      ∃ t, exec .ledgerDrop s = .next t ∧ t = { s with ldg := t.ldg, hif := t.hif } ∧ t.ldg.next = s.ldg.next + 1
        ∧ t.ldg.dropFirst = none ∧ t.ldg.dropC = 0 ∧ t.ldg.dropP = 0 ∧ t.ldg.dropN = 0
        ∧ (s.hif.note = true → 33 ∈ t.hif.pending ∨ 33 ∈ t.hif.sent)
        ∧ ∃ q ∈ t.ldg.staged, q.rcd.seq = BitVec.ofNat 64 s.ldg.next ∧ q.rcd.code = 0x0D01 ∧ q.rcd.src = 0x3400
          ∧ leAt q.rcd.pay 0 4 = s.ldg.dropC.toNat ∧ leAt q.rcd.pay 4 4 = s.ldg.dropP.toNat ∧ leAt q.rcd.pay 8 4 = s.ldg.dropN.toNat
          ∧ leAt q.rcd.pay 12 2 = code % 2 ^ 16 ∧ leAt q.rcd.pay 14 2 = src % 2 ^ 16
          ∧ q.pool = if s.ldg.room .general then .general else .alarm)
    ∧ (s.ldg.dropFirst = none ∨ s.ldg.room .general = false ∧ s.ldg.room .alarm = false → exec .ledgerDrop s = .next s)
    ∧ (∀ ok : Bool, s.ldg.programs = [] → exec (.ledgerFlashProgramDone ok) s = .next s)
    ∧ (∀ (u : FlashUnit) (rest : List FlashUnit), s.ldg.programs = u :: rest → u.area = .ring →
      (∃ t, exec (.ledgerFlashProgramDone true) s = .next t ∧ t.ldg.programs = rest ∧ u ∈ t.ldg.ring
        ∧ ∀ q ∈ t.ldg.staged, ∀ r ∈ u.recs, r.seq ≠ q.rcd.seq)
      ∧ ∃ t, exec (.ledgerFlashProgramDone false) s = .next t ∧ t.ldg.fault.getLsbD 1 = true ∧ t.ldg.staged = s.ldg.staged
        ∧ { u with unit := u.unit + 1 } ∈ t.ldg.programs)
    ∧ ∀ (u : FlashUnit) (rest : List FlashUnit), s.ldg.programs = u :: rest → u.area ≠ .ring →
      (∃ t, exec (.ledgerFlashProgramDone true) s = .next t ∧ t.ldg.programs = rest ∧ (u.area = .tail → u ∈ t.ldg.tail)
        ∧ (u.area = .cornerstone → t.ldg.cornerstone = s.ldg.cornerstone ++ [u]) ∧ t.ldg.staged = s.ldg.staged)
      ∧ ∃ t, exec (.ledgerFlashProgramDone false) s = .next t ∧ t.ldg.fault.getLsbD 1 = true ∧ { u with unit := u.unit + 1 } ∈ t.ldg.programs

/-! ## Start-up (R388 to R393, R403, R422 to R424) -/

/-- Steps 0 to 3: power, seal's boot from the active bank or the other one, mason, the compute rail and the core groups. -/
def Obligations.StartUp : Prop :=
  ∀ s : State,
    (∀ (c : CalCheck) (l : FlashCheck), s.pln.lock = false → s.pln.off = false →
      ∃ t, exec (.powerOn c l) s = .next t ∧ t.pln.lock = true ∧ t.pln.power = true ∧ t.pln.stage = 0)
    ∧ (s.stepDue 1 = true → s.sealBlk.loaded = false → s.Unarmed →
      let passes (b : Nat) : Prop := ∀ typ ∈ [1, 2, 3, 4], s.sealBlk.check (s.sealBlk.image b typ) typ = none
      ∃ t, exec .sealBoot s = .next t ∧ t.pln.stage = 1
        ∧ (passes s.sealBlk.active → t.sealBlk.booted = true ∧ t.sealBlk.bank = s.sealBlk.active ∧ t.msn.fw = true)
        ∧ (¬passes s.sealBlk.active → passes (1 - s.sealBlk.active) →
          t.sealBlk.booted = true ∧ t.sealBlk.bank = 1 - s.sealBlk.active ∧ t.msn.fw = true ∧ t.sealBlk.fault.getLsbD 1 = true)
        ∧ (¬passes s.sealBlk.active → ¬passes (1 - s.sealBlk.active) →
          t.sealBlk.bootFail = true ∧ t.sealBlk.fault.getLsbD 1 = true ∧ t.sealBlk.booted = s.sealBlk.booted ∧ t.msn.fw = s.msn.fw))
    ∧ (s.stepDue 2 = true → s.sealBlk.booted = true → ∃ t, exec .masonStart s = .next t ∧ t.pln.stage = 2 ∧ t.pln.fail = false
        ∧ t.pln.noJob = s.pln.noJob ∧ (s.pln.fail = true → t.gge.alert.getLsbD 2 = true))
    ∧ (∀ l : List (Fin 68), s.stepDue 3 = true →
      ∃ t, exec (.computeRailUp l) s = .next t ∧ t.pln.stage = 3 ∧ t.pln.groups = 0 ∧ ∀ p ∈ l, (t.slot p.val).failed = true)
    ∧ (3 ≤ s.pln.stage → s.pln.groups < 8 → s.warned = false → s.pln.stopped = false →
      ∃ t, exec .coreGroupEnable s = .next t ∧ t.pln.groups = s.pln.groups + 1)

/-- Steps 4 to 8: memory training, the pattern test, the replay of repairs, the links, the hod's table with the object of ring 0, and ready. -/
def Obligations.StartUpMemory : Prop :=
  ∀ s : State,
    (∀ (lanes : List LaneFail) (l : List (Fin 8)), s.stepDue 4 = true → s.pln.groups = 8 →
      ∃ t, exec (.footingTraining lanes l) s = .next t ∧ t.pln.stage = 4 ∧ (∀ i < 8, (t.stack i).train = 1 ∨ (t.stack i).train = 2)
        ∧ ∀ i ∈ l, (t.stack i.val).train = 2)
    ∧ (∀ r : Option (Fin 64), s.Unarmed → s.ucf.train = 0 → s.pln.lock = true → s.pln.warn = false → s.warned = false → 3 ≤ s.pln.stage → s.pln.groups = 8 →
      ∃ t, exec (.undercroftTraining r) s = .next t ∧ t.ucf.train = (if r.isNone then 1 else 2) ∧ t.ucf.test = (r.isNone || s.ucf.test))
    ∧ (∀ l : List (Fin 524288 × Fin 64), s.ucf.test = true →
      ∃ t, exec (.patternTestDone l) s = .next t ∧ t.ucf.test = false ∧ ∀ g ∈ l, g.1.val ∈ t.ucf.quarantined)
    ∧ (∀ l : List RowId, s.stepDue 5 = true → s.memoryTrained = true →
      ∃ t, exec (.repairReplay l) s = .next t ∧ t.pln.stage = 5 ∧ t.ftg.loaded = true)
    ∧ (∀ r : Vector Training 16, s.stepDue 6 = true → s.pln.noJob = false → s.Unarmed →
      ∃ t, exec (.linkTraining r) s = .next t ∧ t.pln.stage = 6
        ∧ ∀ p : Fin 16, (r[p].partner = false → (t.port p.val).state = 0)
          ∧ (r[p].partner = true → r[p].failed = 0 → r[p].pport.val = matching p.val → (t.port p.val).state = 2 ∧ (t.port p.val).width = 8))
    ∧ (s.stepDue 7 = true → s.ucf.train = 1 → s.ucf.test = false → s.memoryTrained = true →
      ∃ t, exec .hodInit s = .next t ∧ t.pln.stage = 7 ∧ t.objs = [(1, ring0Obj)] ∧ t.objMem = [] ∧ t.hod.freeFast = s.footingUnits - 4)
    ∧ (s.stepDue 8 = true → ∃ t, exec .moduleReady s = .next t ∧ t.pln.stage = 8 ∧ t.hod.ready = true)

/-! ## Supply, clocks and sensors (R401, R406 to R421, R454) -/

/-- A warning taints the step and holds issue, and the third ends the job; its end lets the groups resume; SUPPLY_FAIL, a lost always-on island, a failed rail and a
lost PLL reset the module, and fuses, firmware banks and images in flash stay, with what an injection
made unreadable of them readable again. -/
def Obligations.Supply : Prop :=
  ∀ (s : State) (v : BitVec 16),
    let resets (t : State) : Prop := t.ctxs = [] ∧ t.ops = [] ∧ t.objs = [] ∧ t.hif.rings = [] ∧ t.pln.lock = false ∧ t.pln.stage = 0
      ∧ t.sealBlk.booted = false ∧ t.msn.job = false ∧ t.prs.images = s.prs.images.map Image.sound ∧ t.sealBlk.boot = s.sealBlk.boot ∧ t.sealBlk.active = s.sealBlk.active
      ∧ t.sealBlk.svn = s.sealBlk.svn ∧ t.sealBlk.revoked = s.sealBlk.revoked
    (s.pln.lock = true → v < 4500 → s.Unarmed → s.pln.recent < 2 →
      ∃ t, exec (.supplyWarn v) s = .next t ∧ t.nsb.taint = true ∧ t.pln.warn = true ∧ t.pln.hold = true ∧ t.pln.groups = 0
        ∧ t.pln.recent = s.pln.recent + 1 ∧ t.ctxs = s.ctxs ∧ t.ops = s.ops ∧ t.objMem = s.objMem)
    ∧ (s.pln.lock = true → v < 4500 → s.Unarmed → 2 ≤ s.pln.recent → ∃ t, exec (.supplyWarn v) s = .next t ∧ t.msn.job = false ∧ t.pln.fault.getLsbD 1 = true)
    ∧ (s.pln.warn = true → exec .warningReleased s = .next { s with pln := { s.pln with released := true } })
    ∧ (s.pln.warn = true → s.pln.released = true →
      ∃ t, exec .supplyRecoveryDone s = .next t ∧ t.pln.warn = false ∧ t.pln.resuming = decide (3 ≤ s.pln.stage) ∧ t.nsb = s.nsb
        ∧ t.pln.hold = decide (3 ≤ s.pln.stage))
    ∧ exec .warningWindowExpiry s = .next { s with pln := { s.pln with recent := s.pln.recent - 1 } }
    ∧ (s.pln.lock = true → v < 4100 →
      ∃ t, exec (.supplyFail v) s = .next t ∧ resets t ∧ t.pln.fail = true ∧ t.pln.vmin ≤ v)
    ∧ (∃ t, exec .alwaysOnLost s = .next t ∧ resets t ∧ t.pln = {} ∧ t.ldg.staged = [] ∧ t.ldg.ring = s.ldg.ring)
    ∧ (∀ rail : Fin 15, s.pln.off = false →
      ∃ t, exec (.plnRailFail rail) s = .next t ∧ resets t ∧ t.pln.railf = true ∧ t.pln.off = true)
    ∧ (s.pln.off = false → ∃ t, exec .plnPllUnlock s = .next t ∧ resets t)

/-- A droop counts one stretch on its die; a ramp window gives its array one more eighth; a reading sets the input's voltage, power and
current, each die rail's voltage and current, and every temperature. -/
def Obligations.Sensors : Prop :=
  ∀ s : State,
    (∀ g : Fin 8, 3 ≤ s.pln.stage → ∃ t, exec (.droopDetect g) s = .next t
        ∧ Tab.get 0 t.pln.droop (g.val / 2) = satInc (Tab.get 0 s.pln.droop (g.val / 2)) ∧ t = { s with pln := { s.pln with droop := t.pln.droop } })
    ∧ (∀ (k : Fin 64) (a : Fin 3), ∃ t, exec (.arrayRampWindow k a) s = .next t
        ∧ Tab.get 8 t.pln.ramp (3 * k.val + a.val) = min 8 (Tab.get 8 s.pln.ramp (3 * k.val + a.val) + 1)
        ∧ t = { s with pln := { s.pln with ramp := t.pln.ramp } })
    ∧ (∀ (temps : Vector (Option Int) 96) (vin : BitVec 16) (r : Rails), s.pln.lock = true → s.Unarmed →
      ∃ t, exec (.sensorReading temps vin r) s = .next t ∧ t.gge.vin = vin ∧ t.gge.watts = r.watts ∧ t.gge.amps = r.amps
        ∧ t.gge.dieVolts = r.dieVolts.toList ∧ t.gge.dieAmps = r.dieAmps.toList ∧ t.pln.vmin.toNat = min s.pln.vmin.toNat vin.toNat
        ∧ (∀ (i : Fin 96) (d : Int), temps[i] = some d → Tab.get (0, false) t.gge.temps i.val = (BitVec.ofInt 16 d, true))
        ∧ ∀ i : Fin 96, temps[i] = none → (Tab.get (0, false) t.gge.temps i.val).2 = false)

/-! ## Seal and gauge (R392 to R404, R434) -/

/-- What gauge answers to management, and what seal signs, one response at a time; PLDM clears bits of GGE_ALERT. (The two bytes of a rail sensor are the model's choice,
assumption 128.) -/
def Obligations.Management : Prop :=
  ∀ (s : State) (b : Bus), s.GaugeServes →
    (∀ v : Byte, exec (.endpointIdAssign b v) s = .next { s with gge := { s.gge with eid := some v, rsp := .done b } })
    ∧ (let answers (c : Instr) (r : MgmtRsp) : Prop := exec c s = .next { s with gge := { s.gge with rsp := r } }
      answers (.getVersion b) (.bytes b (Config.spdmBody 0)) ∧ answers (.getCapabilities b) (.bytes b (Config.spdmBody 1))
      ∧ answers (.negotiateAlgorithms b) (.algorithms b spdmSha256 spdmPciSig 0x1F3C 0x0001 (Config.spdmBody 2)) ∧ answers (.getDigests b) (.bytes b (sha256 Config.certChain))
      ∧ (∀ off len : Nat, answers (.getCertificate b 0 off len) (.bytes b ((Config.certChain.drop off).take len)))
      ∧ answers (.keyExchange b) (.error b spdmUnsupported) ∧ answers (.pskExchange b) (.error b spdmUnsupported)
      ∧ (∀ i ∈ [1, 2, 3, 4, 5, 6, 7], answers (.getMeasurements b i none) (.bytes b (s.measurement i)))
      ∧ (∀ c, s.gge.read = some c → answers (.calibrationRead b) (.bytes b (Config.calBytes c)))
      ∧ ∀ seq : W64, answers (.ledgerReadMessage b seq) (.bytes b (s.recordBytes seq.toNat)))
    ∧ (∀ n : BitVec 256, s.sealBlk.signing = none →
      ∃ t, exec (.challenge b n) s = .next t ∧ t.sealBlk.signing = some (b, Config.spdmBody 3 ++ toBytes 32 n.toNat) ∧ t.gge = s.gge)
    ∧ (∀ body, s.sealBlk.signing = some (b, body) →
      ∃ t, exec .spdmSigningDone s = .next t ∧ t.sealBlk.signing = none ∧ t.gge.rsp = .bytes b (body ++ toBytes 7856 (Config.slhSign Config.idKey body).toNat))
    ∧ (∀ i : Fin 96, s.Unarmed → ∃ t, exec (.pldmSensorRead b (.temp i) true) s = .next t ∧ t.gge.temps = s.gge.temps
        ∧ t.gge.rsp = .bytes b (toBytes 4 ((Tab.get (0, false) s.gge.temps i.val).1.toNat
            + if (Tab.get (0, false) s.gge.temps i.val).2 then 2 ^ 16 else 0)))
    ∧ exec (.pldmSensorRead b .inputVolts true) s = .next { s with gge := { s.gge with rsp := .bytes b (toBytes 2 s.gge.vin.toNat) } }
    ∧ (∀ v ev : W32, ∃ t, exec (.w1cClear .pldm v ev) s = .next t ∧ t = { s with gge := { s.gge with alert := t.gge.alert } }
        ∧ ∀ n < 3, t.gge.alert.getLsbD n = (s.gge.alert.getLsbD n && !v.getLsbD n || ev.getLsbD n))
    ∧ (∀ c : Calibration, s.unlocked 3 = true →
      ∃ t, exec (.calibrationWrite b c) s = .next t ∧ t.gge.read = some c ∧ t.gge.rsp = .done b)

/-- Firmware update: what is written goes to the bank that does not run, verification precedes activation, activation names that bank, and what
fails or is out of turn is answered so (a refused order is the model's choice, assumption 90). Debug: a nonce
serves one token, a token that passes adds its scopes, and the port reaches physical memory with scope 0, but writes no byte of the object table; a
byte of an object that it writes leaves the block's entry as it was. -/
def Obligations.FirmwareAndDebug : Prop :=
  ∀ (s : State) (b : Bus), s.GaugeServes → s.Unarmed →
    (∀ (k : Fin 6) (d : List Byte), k.val ≠ 0 → leAt d 8 1 ≤ 64 →
      ∃ t, exec (.firmwareUpdateWrite k d) s = .next t ∧ t.sealBlk.image s.sealBlk.inactive k.val = d ∧ t.sealBlk.verified = false ∧ t.gge.rsp = .updateDone
        ∧ ∀ n, t.sealBlk.image (1 - s.sealBlk.inactive) n = s.sealBlk.image (1 - s.sealBlk.inactive) n ∨ 8 ≤ n)
    ∧ (∀ (k : Fin 6) (d : List Byte), k.val = 0 ∨ 64 < leAt d 8 1 →
      exec (.firmwareUpdateWrite k d) s = .next { s with gge := { s.gge with rsp := .updateRefused } })
    ∧ (let passes : Prop := ∀ typ ∈ [1, 2, 3, 4, 5], typ ∈ s.sealBlk.updated → s.sealBlk.check (s.sealBlk.image s.sealBlk.inactive typ) typ = none
      (s.sealBlk.updated ≠ [] → ∃ t, exec .verifyComplete s = .next t ∧ t.sealBlk.active = s.sealBlk.active ∧ (t.sealBlk.verified = true ↔ passes)
        ∧ (passes → t.gge.rsp = .updateDone) ∧ (¬passes → t.gge.rsp = .verifyFailed ∧ t.sealBlk.revoked = s.sealBlk.revoked))
      ∧ (s.sealBlk.updated = [] → exec .verifyComplete s = .next { s with gge := { s.gge with rsp := .updateRefused } }))
    ∧ (s.sealBlk.verified = true → ∃ t, exec .activateFirmware s = .next t ∧ t.sealBlk.active = s.sealBlk.inactive ∧ t.sealBlk.updated = [])
    ∧ (s.sealBlk.verified = false → exec .activateFirmware s = .next { s with gge := { s.gge with rsp := .updateRefused } })
    ∧ (∃ t, exec (.nonceRequest b) s = .next t ∧ t.sealBlk.nonce = some s.sealBlk.nonces ∧ t.sealBlk.nonces = s.sealBlk.nonces + 1)
    ∧ (∀ tok : List Byte, ∃ t, exec (.debugToken b tok) s = .next t ∧ t.sealBlk.nonce = none
        ∧ (s.sealBlk.tokenOk tok = true → t.sealBlk.debug = true ∧ t.sealBlk.scope = s.sealBlk.scope ||| BitVec.ofNat 16 (leAt tok 5 2))
        ∧ (s.sealBlk.tokenOk tok = false → t.sealBlk.debug = s.sealBlk.debug ∧ t.sealBlk.scope = s.sealBlk.scope))
    ∧ (∀ a : PortAccess, s.unlocked 0 = false → exec (.debugPortAccess a) s = .next s)
    ∧ (∀ a size v : Nat, s.unlocked 0 = true → 2 ≤ s.pln.stage → a / 0x10000 ≠ 0x60 → s.barRead a size = some v →
      exec (.debugPortAccess (.readReg a size)) s = .next { s with gge := { s.gge with port := toBytes size v } })
    ∧ (∀ (a : W64) (v : Byte), s.unlocked 0 = true → 2 ≤ s.pln.stage → fld a.toNat 63 50 = s.arc.node.toNat → localOk (fld a.toNat 49 0) = true →
      (exec (.debugPortAccess (.readPhys a)) s = .next { s with gge := { s.gge with port := s.physRead (fld a.toNat 49 0) } })
      ∧ (inTable (fld a.toNat 49 0) = true → exec (.debugPortAccess (.writePhys a v)) s = .next s)
      ∧ (inTable (fld a.toNat 49 0) = false → inSide (fld a.toNat 49 0) = false →
        (s.ownerAt (fld a.toNat 49 0) = none →
          exec (.debugPortAccess (.writePhys a v)) s = .next { s with phys := Mem.write s.phys (fld a.toNat 49 0) [v] })
        ∧ ∀ i off : Nat, s.ownerAt (fld a.toNat 49 0) = some (i, off) →
          ∃ t, exec (.debugPortAccess (.writePhys a v)) s = .next t ∧ t.objMem = Mem.write s.objMem (objKey i off) [v]
            ∧ off / 65536 ∈ (t.obj i).delta ∧ (∀ j, j ≠ i → t.obj j = s.obj j)
            ∧ (bitOf (s.badBlock i (off / 4096)) 17 = false → (bitOf (t.badBlock i (off / 4096)) 17 = true
              ↔ toBytes 4 (crc32c (s.objRead i (off / 4096 * 4096) 4096)) ≠ toBytes 4 (crc32c (t.objRead i (off / 4096 * 4096) 4096))))))

/-! ## The invariant -/

/-- Every step keeps the memories canonical and the numbers of operations given. -/
def Obligations.StepKeepsInvariant : Prop := ∀ s t : State, s.Inv → step s = .next t → t.Inv
end

