-- ==== Sys2Proof/Laws/Detect.lean ====
section
/-! SUPPORT. Detection with no point armed: a sound read without a detection finds nothing (R254, R441). -/

namespace Sys2Proof.Machine

/-- An unarmed point reports nothing of a read. -/
theorem State.armedAt_unarmed (s : State) (src : Nat) (rs : List ObjRef) (h : s.Unarmed) : s.armedAt src rs = ([], s) := by
  have : bitOf s.ldg.injCtl.toNat 40 = false := h
  simp [State.armedAt, this]

/-- With no point armed, no check of one reports. -/
theorem State.injArmed_unarmed (s : State) (code src : Nat) (ok : Nat → Bool) (h : s.Unarmed) : s.injArmed code src ok = false := by
  have : bitOf s.ldg.injCtl.toNat 40 = false := h
  simp [State.injArmed, this]

/-- A read of sound blocks verifies. -/
theorem State.verify_sound (s : State) (src : Nat) (rs : List ObjRef) (h : s.Unarmed) (hb : s.badIn rs = none) : s.verify src rs = (false, s, []) := by
  simp [State.verify, hb, State.injBlock, s.injArmed_unarmed _ _ _ h]

/-- A read of sound blocks in which the detectors find nothing changes nothing. -/
theorem State.detect_nothing (s : State) (src k : Nat) (rs : List ObjRef) (h : s.Unarmed) (hb : s.badIn rs = none) :
    s.detect src k rs [] = { s := s } := by
  simp [State.detect, s.armedAt_unarmed src rs h, s.verify_sound src rs h hb]

/-- A fetch of a sound block without a detection delivers its instruction. -/
theorem State.readIns_nothing (s : State) (x : Nat) (i : Ins) (hi : i.found = []) (h : s.Unarmed) (hb : s.badIn (s.fetchRef x) = none)
    (hf : s.fetchHeld x = false) : s.readIns x i = (false, s) := by
  simp [State.readIns, Ins.meets, hi, s.detect_nothing _ _ _ h hb, hf]

end Sys2Proof.Machine
end

