-- ==== Sys2Proof/Laws/Tab.lean ====
section
/-! SUPPORT. Sparse tables: what a write changes, that a range read agrees with single reads, and that every operation keeps the canonical form. -/

namespace Sys2Proof

variable {α : Type}

@[simp] theorem Tab.get_nil (d : α) (k : Nat) : Tab.get d [] k = d := rfl

theorem Tab.get_cons (d : α) (a : Nat) (v : α) (t : Tab α) (k : Nat) :
    Tab.get d ((a, v) :: t) k = if a = k then v else Tab.get d t k := rfl

/-- A key that a table does not list reads as the default. -/
theorem Tab.get_absent (d : α) (t : Tab α) (k : Nat) (h : ∀ p ∈ t, p.1 ≠ k) : Tab.get d t k = d := by
  induction t with
  | nil => rfl
  | cons p t ih =>
    obtain ⟨a, v⟩ := p
    rw [Tab.get_cons, if_neg (h (a, v) (by simp)), ih (fun p hp => h p (by simp [hp]))]

/-- A prefix that does not list the key is skipped. -/
theorem Tab.get_append_right (d : α) (a b : Tab α) (k : Nat) (h : ∀ p ∈ a, p.1 ≠ k) : Tab.get d (a ++ b) k = Tab.get d b k := by
  induction a with
  | nil => rfl
  | cons p t ih =>
    obtain ⟨c, v⟩ := p
    rw [List.cons_append, Tab.get_cons, if_neg (h (c, v) (by simp)), ih (fun p hp => h p (by simp [hp]))]

/-- A suffix that does not list the key changes nothing. -/
theorem Tab.get_append_left (d : α) (a b : Tab α) (k : Nat) (h : ∀ p ∈ b, p.1 ≠ k) : Tab.get d (a ++ b) k = Tab.get d a k := by
  induction a with
  | nil => simpa using Tab.get_absent d b k h
  | cons p t ih =>
    obtain ⟨c, v⟩ := p
    rw [List.cons_append, Tab.get_cons, Tab.get_cons, ih]

/-- A filter on keys that admits the key changes nothing for it. -/
theorem Tab.get_filter (d : α) (t : Tab α) (q : Nat → Bool) (k : Nat) (h : q k = true) :
    Tab.get d (t.filter (fun p => q p.1)) k = Tab.get d t k := by
  induction t with
  | nil => rfl
  | cons p t ih =>
    obtain ⟨a, v⟩ := p
    by_cases ha : a = k
    · subst ha; simp [h, Tab.get_cons]
    · by_cases hq : q a = true
      · simp [hq, Tab.get_cons, ha, ih]
      · simp [hq, Tab.get_cons, ha, ih]

theorem Tab.enc_keys [DecidableEq α] (d : α) (b : Nat) (vs : List α) : ∀ p ∈ Tab.enc d b vs, b ≤ p.1 ∧ p.1 < b + vs.length ∧ p.2 ≠ d := by
  induction vs generalizing b with
  | nil => simp [Tab.enc]
  | cons v vs ih =>
    intro p hp
    rw [Tab.enc] at hp
    split at hp
    · have := ih (b + 1) p hp
      simp only [List.length_cons]
      exact ⟨by omega, by omega, this.2.2⟩
    · rename_i hv
      rcases List.mem_cons.1 hp with rfl | hp
      · simp [hv]
      · have := ih (b + 1) p hp
        simp only [List.length_cons]
        refine ⟨by omega, by omega, this.2.2⟩

theorem Tab.get_enc [DecidableEq α] (d : α) (b : Nat) (vs : List α) (k : Nat) (h1 : b ≤ k) :
    Tab.get d (Tab.enc d b vs) k = vs.getD (k - b) d := by
  induction vs generalizing b with
  | nil => simp [Tab.enc]
  | cons v vs ih =>
    rw [Tab.enc]
    by_cases hk : k = b
    · subst hk
      split
      · rename_i hv
        rw [Tab.get_absent]
        · simp [hv]
        · intro p hp
          have := Tab.enc_keys d (k + 1) vs p hp
          omega
      · simp [Tab.get_cons]
    · obtain ⟨m, rfl⟩ : ∃ m, k = b + 1 + m := ⟨k - b - 1, by omega⟩
      have e : b + 1 + m - b = (b + 1 + m - (b + 1)) + 1 := by omega
      rw [e, List.getD_cons_succ, ← ih (b + 1) (by omega)]
      split
      · rfl
      · rw [Tab.get_cons, if_neg (by omega)]

/-- What a range write changes: the keys of the range, and no other. -/
theorem Tab.get_setRange [DecidableEq α] (d : α) (t : Tab α) (b : Nat) (vs : List α) (k : Nat) :
    Tab.get d (Tab.setRange d t b vs) k = if b ≤ k ∧ k < b + vs.length then vs.getD (k - b) d else Tab.get d t k := by
  unfold Tab.setRange
  have hl : ∀ p ∈ t.filter (fun p => decide (p.1 < b)), p.1 < b := by simp
  have hr : ∀ p ∈ t.filter (fun p => decide (b + vs.length ≤ p.1)), b + vs.length ≤ p.1 := by simp
  have he := Tab.enc_keys d b vs
  split
  · rename_i h
    rw [Tab.get_append_left _ _ _ _ (fun p hp => by have := hr p hp; omega),
      Tab.get_append_right _ _ _ _ (fun p hp => by have := hl p hp; omega), Tab.get_enc d b vs k h.1]
  · rename_i h
    by_cases hk : k < b
    · rw [Tab.get_append_left _ _ _ _ (fun p hp => by have := hr p hp; omega),
        Tab.get_append_left _ _ _ _ (fun p hp => by have := he p hp; omega),
        Tab.get_filter d t (fun a => decide (a < b)) k (by simpa using hk)]
    · rw [Tab.get_append_right _ _ _ _ (fun p hp => by
        rcases List.mem_append.1 hp with hp | hp
        · have := hl p hp; omega
        · have := he p hp; omega),
        Tab.get_filter d t (fun a => decide (b + vs.length ≤ a)) k (by simp; omega)]

/-- A read after a write of one key. -/
@[simp] theorem Tab.get_set [DecidableEq α] (d : α) (t : Tab α) (k : Nat) (v : α) : Tab.get d (Tab.set d t k v) k = v := by
  simp [Tab.set, Tab.get_setRange]

/-- The later of two writes of the same range stands. -/
theorem Tab.setRange_setRange [DecidableEq α] (d : α) (t : Tab α) (b : Nat) (vs ws : List α) (h : vs.length = ws.length) :
    Tab.setRange d (Tab.setRange d t b vs) b ws = Tab.setRange d t b ws := by
  have e1 : ∀ l : Tab α, (∀ p ∈ l, ¬ p.1 < b) → l.filter (fun p => decide (p.1 < b)) = [] := fun l hl => by
    rw [List.filter_eq_nil_iff]; intro p hp; simpa using hl p hp
  have e2 : ∀ l : Tab α, (∀ p ∈ l, ¬ b + ws.length ≤ p.1) → l.filter (fun p => decide (b + ws.length ≤ p.1)) = [] := fun l hl => by
    rw [List.filter_eq_nil_iff]; intro p hp; simpa using hl p hp
  have k := Tab.enc_keys d b vs
  unfold Tab.setRange
  rw [h]
  rw [List.filter_append, List.filter_append, List.filter_append, List.filter_append, e1 (Tab.enc d b vs) (fun p hp => by have := k p hp; omega),
    e1 (t.filter (fun p => decide (b + ws.length ≤ p.1))) (fun p hp => by simp at hp; omega),
    e2 (Tab.enc d b vs) (fun p hp => by have := k p hp; omega), e2 (t.filter (fun p => decide (p.1 < b))) (fun p hp => by simp at hp; omega),
    List.filter_filter, List.filter_filter]
  simp

@[simp] theorem Tab.set_set [DecidableEq α] (d : α) (t : Tab α) (k : Nat) (v w : α) : Tab.set d (Tab.set d t k v) k w = Tab.set d t k w :=
  Tab.setRange_setRange d t k [v] [w] rfl

/-- A write of one key leaves every other key alone. -/
theorem Tab.get_set_ne [DecidableEq α] (d : α) (t : Tab α) (k j : Nat) (v : α) (h : j ≠ k) : Tab.get d (Tab.set d t k v) j = Tab.get d t j := by
  rw [Tab.set, Tab.get_setRange, if_neg (by simp only [List.length_cons, List.length_nil]; omega)]

/-- A cleared range reads as the default, and every other key as before. -/
theorem Tab.get_clearRange (d : α) (t : Tab α) (b n k : Nat) :
    Tab.get d (Tab.clearRange t b n) k = if b ≤ k ∧ k < b + n then d else Tab.get d t k := by
  unfold Tab.clearRange
  split
  · rename_i h
    apply Tab.get_absent
    intro p hp
    simp only [List.mem_append, List.mem_filter, decide_eq_true_eq] at hp
    omega
  · rename_i h
    by_cases hk : k < b
    · rw [Tab.get_append_left _ _ _ _ (fun p hp => by simp at hp; omega), Tab.get_filter d t (fun a => decide (a < b)) k (by simpa using hk)]
    · rw [Tab.get_append_right _ _ _ _ (fun p hp => by simp at hp; omega),
        Tab.get_filter d t (fun a => decide (b + n ≤ a)) k (by simp; omega)]

/-! ## Ranges -/

theorem Tab.take_length (d : α) (t : Tab α) (b n : Nat) : (Tab.take d t b n).length = n := by
  induction n generalizing t b with
  | zero => cases t <;> simp [Tab.take]
  | succ n ih =>
    cases t with
    | nil => simp [Tab.take, ih]
    | cons p t => obtain ⟨a, v⟩ := p; rw [Tab.take]; split <;> simp [ih]

@[simp] theorem Tab.range_length (d : α) (t : Tab α) (b n : Nat) : (Tab.range d t b n).length = n := Tab.take_length ..

theorem Tab.take_getD (d : α) (t : Tab α) (b n j : Nat) (hs : t.Pairwise (fun p q => p.1 < q.1)) (hb : ∀ p ∈ t, b ≤ p.1) (hj : j < n) :
    (Tab.take d t b n).getD j d = Tab.get d t (b + j) := by
  induction n generalizing t b j with
  | zero => omega
  | succ n ih =>
    cases t with
    | nil =>
      rw [Tab.take]
      cases j with
      | zero => simp
      | succ j => rw [List.getD_cons_succ, ih [] (b + 1) j List.Pairwise.nil (by simp) (by omega)]; simp
    | cons p t =>
      obtain ⟨a, v⟩ := p
      have hp := List.pairwise_cons.1 hs
      have hba := hb (a, v) (by simp)
      rw [Tab.take]
      split
      · rename_i hab
        subst hab
        cases j with
        | zero => simp [Tab.get_cons]
        | succ j =>
          rw [List.getD_cons_succ, ih t (a + 1) j hp.2 (fun q hq => by have := hp.1 q hq; simp at this; omega) (by omega), Tab.get_cons,
            if_neg (by omega), show a + 1 + j = a + (j + 1) by omega]
      · rename_i hab
        simp only at hba
        cases j with
        | zero =>
          rw [List.getD_cons_zero, Tab.get_absent]
          intro q hq
          rcases List.mem_cons.1 hq with rfl | hq
          · simp; omega
          · have := hp.1 q hq; simp at this; omega
        | succ j =>
          rw [List.getD_cons_succ, ih ((a, v) :: t) (b + 1) j hs (fun q hq => by
            rcases List.mem_cons.1 hq with rfl | hq
            · simp; omega
            · have := hp.1 q hq; simp at this; omega) (by omega), show b + 1 + j = b + (j + 1) by omega]

/-- A range read agrees with single reads. -/
theorem Tab.range_getD (d : α) (t : Tab α) (b n j : Nat) (hs : t.Pairwise (fun p q => p.1 < q.1)) (hj : j < n) :
    (Tab.range d t b n).getD j d = Tab.get d t (b + j) := by
  rw [Tab.range, Tab.take_getD d _ b n j (hs.filter _) (by simp) hj, Tab.get_filter d t (fun a => decide (b ≤ a)) (b + j) (by simp)]

/-! ## The canonical form -/

theorem Tab.wf_iff [DecidableEq α] (d : α) (t : Tab α) : Tab.wf d t = true ↔ t.Pairwise (fun p q => p.1 < q.1) ∧ ∀ p ∈ t, p.2 ≠ d := by
  simp [Tab.wf]

@[simp] theorem Tab.wf_nil [DecidableEq α] (d : α) : Tab.wf d ([] : Tab α) = true := by simp [Tab.wf]

theorem Tab.enc_pairwise [DecidableEq α] (d : α) (b : Nat) (vs : List α) : (Tab.enc d b vs).Pairwise (fun p q => p.1 < q.1) := by
  induction vs generalizing b with
  | nil => simp [Tab.enc]
  | cons v vs ih =>
    rw [Tab.enc]
    split
    · exact ih _
    · refine List.pairwise_cons.2 ⟨fun p hp => ?_, ih _⟩
      have := Tab.enc_keys d (b + 1) vs p hp
      simp; omega

/-- A range write keeps the canonical form. -/
theorem Tab.setRange_wf [DecidableEq α] (d : α) (t : Tab α) (b : Nat) (vs : List α) (h : Tab.wf d t = true) :
    Tab.wf d (Tab.setRange d t b vs) = true := by
  rw [Tab.wf_iff] at h ⊢
  unfold Tab.setRange
  constructor
  · rw [List.pairwise_append, List.pairwise_append]
    refine ⟨⟨h.1.filter _, Tab.enc_pairwise d b vs, ?_⟩, h.1.filter _, ?_⟩
    · intro p hp q hq
      have := Tab.enc_keys d b vs q hq
      simp at hp; omega
    · intro p hp q hq
      simp at hq
      rcases List.mem_append.1 hp with hp | hp
      · simp at hp; omega
      · have := Tab.enc_keys d b vs p hp; omega
  · intro p hp
    simp only [List.mem_append, List.mem_filter] at hp
    rcases hp with (hp | hp) | hp
    · exact h.2 p hp.1
    · exact (Tab.enc_keys d b vs p hp).2.2
    · exact h.2 p hp.1

/-- A write of one key keeps the canonical form. -/
theorem Tab.set_wf [DecidableEq α] (d : α) (t : Tab α) (k : Nat) (v : α) (h : Tab.wf d t = true) : Tab.wf d (Tab.set d t k v) = true :=
  Tab.setRange_wf d t k [v] h

/-- Clearing a range keeps the canonical form. -/
theorem Tab.clearRange_wf [DecidableEq α] (d : α) (t : Tab α) (b n : Nat) (h : Tab.wf d t = true) : Tab.wf d (Tab.clearRange t b n) = true := by
  rw [Tab.wf_iff] at h ⊢
  unfold Tab.clearRange
  constructor
  · rw [List.pairwise_append]
    refine ⟨h.1.filter _, h.1.filter _, fun p hp q hq => ?_⟩
    simp at hp hq; omega
  · intro p hp
    simp only [List.mem_append, List.mem_filter] at hp
    rcases hp with hp | hp <;> exact h.2 p hp.1

end Sys2Proof
end

