-- ==== Sys2Proof/Laws/State.lean ====
section
/-! SUPPORT. One lemma per field per update of the state, true by definition, and what each table read gives after each table write. -/

namespace Sys2Proof.Machine

variable (s : State)

section
variable (k : Nat) (v : Ctx)
@[simp] theorem State.setCtx_pending : (s.setCtx k v).pending = s.pending := rfl
@[simp] theorem State.setCtx_free : (s.setCtx k v).free = s.free := rfl
@[simp] theorem State.setCtx_cores : (s.setCtx k v).cores = s.cores := rfl
@[simp] theorem State.setCtx_slots : (s.setCtx k v).slots = s.slots := rfl
@[simp] theorem State.setCtx_acc : (s.setCtx k v).acc = s.acc := rfl
@[simp] theorem State.setCtx_spad : (s.setCtx k v).spad = s.spad := rfl
@[simp] theorem State.setCtx_ops : (s.setCtx k v).ops = s.ops := rfl
@[simp] theorem State.setCtx_nextOp : (s.setCtx k v).nextOp = s.nextOp := rfl
@[simp] theorem State.setCtx_arrivals : (s.setCtx k v).arrivals = s.arrivals := rfl
@[simp] theorem State.setCtx_nsb : (s.setCtx k v).nsb = s.nsb := rfl
@[simp] theorem State.setCtx_overflow : (s.setCtx k v).overflow = s.overflow := rfl
@[simp] theorem State.setCtx_kst : (s.setCtx k v).kst = s.kst := rfl
@[simp] theorem State.setCtx_hod : (s.setCtx k v).hod = s.hod := rfl
@[simp] theorem State.setCtx_objs : (s.setCtx k v).objs = s.objs := rfl
@[simp] theorem State.setCtx_objMem : (s.setCtx k v).objMem = s.objMem := rfl
@[simp] theorem State.setCtx_bad : (s.setCtx k v).bad = s.bad := rfl
@[simp] theorem State.setCtx_phys : (s.setCtx k v).phys = s.phys := rfl
@[simp] theorem State.setCtx_hostMem : (s.setCtx k v).hostMem = s.hostMem := rfl
@[simp] theorem State.setCtx_mtr : (s.setCtx k v).mtr = s.mtr := rfl
@[simp] theorem State.setCtx_ftgStacks : (s.setCtx k v).ftgStacks = s.ftgStacks := rfl
@[simp] theorem State.setCtx_ftg : (s.setCtx k v).ftg = s.ftg := rfl
@[simp] theorem State.setCtx_ucf : (s.setCtx k v).ucf = s.ucf := rfl
@[simp] theorem State.setCtx_ports : (s.setCtx k v).ports = s.ports := rfl
@[simp] theorem State.setCtx_pairs : (s.setCtx k v).pairs = s.pairs := rfl
@[simp] theorem State.setCtx_arc : (s.setCtx k v).arc = s.arc := rfl
@[simp] theorem State.setCtx_prs : (s.setCtx k v).prs = s.prs := rfl
@[simp] theorem State.setCtx_qry : (s.setCtx k v).qry = s.qry := rfl
@[simp] theorem State.setCtx_hif : (s.setCtx k v).hif = s.hif := rfl
@[simp] theorem State.setCtx_msn : (s.setCtx k v).msn = s.msn := rfl
@[simp] theorem State.setCtx_sealBlk : (s.setCtx k v).sealBlk = s.sealBlk := rfl
@[simp] theorem State.setCtx_gge : (s.setCtx k v).gge = s.gge := rfl
@[simp] theorem State.setCtx_pln : (s.setCtx k v).pln = s.pln := rfl
@[simp] theorem State.setCtx_ldg : (s.setCtx k v).ldg = s.ldg := rfl
@[simp] theorem State.setCtx_ctx : (s.setCtx k v).ctx k = v := Tab.get_set ..
theorem State.setCtx_ctx_ne (j : Nat) (h : j ≠ k) : (s.setCtx k v).ctx j = s.ctx j := Tab.get_set_ne _ _ _ _ _ h
@[simp] theorem State.setCtx_setCtx (w : Ctx) : (s.setCtx k v).setCtx k w = s.setCtx k w := by simp [State.setCtx]
@[simp] theorem State.setCtx_core (j : Nat) : (s.setCtx k v).core j = s.core j := rfl
@[simp] theorem State.setCtx_slot (j : Nat) : (s.setCtx k v).slot j = s.slot j := rfl
@[simp] theorem State.setCtx_obj (j : Nat) : (s.setCtx k v).obj j = s.obj j := rfl
@[simp] theorem State.setCtx_stack (j : Nat) : (s.setCtx k v).stack j = s.stack j := rfl
@[simp] theorem State.setCtx_port (j : Nat) : (s.setCtx k v).port j = s.port j := rfl
@[simp] theorem State.setCtx_pair (j : Nat) : (s.setCtx k v).pair j = s.pair j := rfl
end

section
variable (k : Nat) (v : Core)
@[simp] theorem State.setCore_pending : (s.setCore k v).pending = s.pending := rfl
@[simp] theorem State.setCore_free : (s.setCore k v).free = s.free := rfl
@[simp] theorem State.setCore_ctxs : (s.setCore k v).ctxs = s.ctxs := rfl
@[simp] theorem State.setCore_slots : (s.setCore k v).slots = s.slots := rfl
@[simp] theorem State.setCore_acc : (s.setCore k v).acc = s.acc := rfl
@[simp] theorem State.setCore_spad : (s.setCore k v).spad = s.spad := rfl
@[simp] theorem State.setCore_ops : (s.setCore k v).ops = s.ops := rfl
@[simp] theorem State.setCore_nextOp : (s.setCore k v).nextOp = s.nextOp := rfl
@[simp] theorem State.setCore_arrivals : (s.setCore k v).arrivals = s.arrivals := rfl
@[simp] theorem State.setCore_nsb : (s.setCore k v).nsb = s.nsb := rfl
@[simp] theorem State.setCore_overflow : (s.setCore k v).overflow = s.overflow := rfl
@[simp] theorem State.setCore_kst : (s.setCore k v).kst = s.kst := rfl
@[simp] theorem State.setCore_hod : (s.setCore k v).hod = s.hod := rfl
@[simp] theorem State.setCore_objs : (s.setCore k v).objs = s.objs := rfl
@[simp] theorem State.setCore_objMem : (s.setCore k v).objMem = s.objMem := rfl
@[simp] theorem State.setCore_bad : (s.setCore k v).bad = s.bad := rfl
@[simp] theorem State.setCore_phys : (s.setCore k v).phys = s.phys := rfl
@[simp] theorem State.setCore_hostMem : (s.setCore k v).hostMem = s.hostMem := rfl
@[simp] theorem State.setCore_mtr : (s.setCore k v).mtr = s.mtr := rfl
@[simp] theorem State.setCore_ftgStacks : (s.setCore k v).ftgStacks = s.ftgStacks := rfl
@[simp] theorem State.setCore_ftg : (s.setCore k v).ftg = s.ftg := rfl
@[simp] theorem State.setCore_ucf : (s.setCore k v).ucf = s.ucf := rfl
@[simp] theorem State.setCore_ports : (s.setCore k v).ports = s.ports := rfl
@[simp] theorem State.setCore_pairs : (s.setCore k v).pairs = s.pairs := rfl
@[simp] theorem State.setCore_arc : (s.setCore k v).arc = s.arc := rfl
@[simp] theorem State.setCore_prs : (s.setCore k v).prs = s.prs := rfl
@[simp] theorem State.setCore_qry : (s.setCore k v).qry = s.qry := rfl
@[simp] theorem State.setCore_hif : (s.setCore k v).hif = s.hif := rfl
@[simp] theorem State.setCore_msn : (s.setCore k v).msn = s.msn := rfl
@[simp] theorem State.setCore_sealBlk : (s.setCore k v).sealBlk = s.sealBlk := rfl
@[simp] theorem State.setCore_gge : (s.setCore k v).gge = s.gge := rfl
@[simp] theorem State.setCore_pln : (s.setCore k v).pln = s.pln := rfl
@[simp] theorem State.setCore_ldg : (s.setCore k v).ldg = s.ldg := rfl
@[simp] theorem State.setCore_core : (s.setCore k v).core k = v := Tab.get_set ..
theorem State.setCore_core_ne (j : Nat) (h : j ≠ k) : (s.setCore k v).core j = s.core j := Tab.get_set_ne _ _ _ _ _ h
@[simp] theorem State.setCore_setCore (w : Core) : (s.setCore k v).setCore k w = s.setCore k w := by simp [State.setCore]
@[simp] theorem State.setCore_ctx (j : Nat) : (s.setCore k v).ctx j = s.ctx j := rfl
@[simp] theorem State.setCore_slot (j : Nat) : (s.setCore k v).slot j = s.slot j := rfl
@[simp] theorem State.setCore_obj (j : Nat) : (s.setCore k v).obj j = s.obj j := rfl
@[simp] theorem State.setCore_stack (j : Nat) : (s.setCore k v).stack j = s.stack j := rfl
@[simp] theorem State.setCore_port (j : Nat) : (s.setCore k v).port j = s.port j := rfl
@[simp] theorem State.setCore_pair (j : Nat) : (s.setCore k v).pair j = s.pair j := rfl
end

section
variable (k : Nat) (v : Slot)
@[simp] theorem State.setSlot_pending : (s.setSlot k v).pending = s.pending := rfl
@[simp] theorem State.setSlot_free : (s.setSlot k v).free = s.free := rfl
@[simp] theorem State.setSlot_ctxs : (s.setSlot k v).ctxs = s.ctxs := rfl
@[simp] theorem State.setSlot_cores : (s.setSlot k v).cores = s.cores := rfl
@[simp] theorem State.setSlot_acc : (s.setSlot k v).acc = s.acc := rfl
@[simp] theorem State.setSlot_spad : (s.setSlot k v).spad = s.spad := rfl
@[simp] theorem State.setSlot_ops : (s.setSlot k v).ops = s.ops := rfl
@[simp] theorem State.setSlot_nextOp : (s.setSlot k v).nextOp = s.nextOp := rfl
@[simp] theorem State.setSlot_arrivals : (s.setSlot k v).arrivals = s.arrivals := rfl
@[simp] theorem State.setSlot_nsb : (s.setSlot k v).nsb = s.nsb := rfl
@[simp] theorem State.setSlot_overflow : (s.setSlot k v).overflow = s.overflow := rfl
@[simp] theorem State.setSlot_kst : (s.setSlot k v).kst = s.kst := rfl
@[simp] theorem State.setSlot_hod : (s.setSlot k v).hod = s.hod := rfl
@[simp] theorem State.setSlot_objs : (s.setSlot k v).objs = s.objs := rfl
@[simp] theorem State.setSlot_objMem : (s.setSlot k v).objMem = s.objMem := rfl
@[simp] theorem State.setSlot_bad : (s.setSlot k v).bad = s.bad := rfl
@[simp] theorem State.setSlot_phys : (s.setSlot k v).phys = s.phys := rfl
@[simp] theorem State.setSlot_hostMem : (s.setSlot k v).hostMem = s.hostMem := rfl
@[simp] theorem State.setSlot_mtr : (s.setSlot k v).mtr = s.mtr := rfl
@[simp] theorem State.setSlot_ftgStacks : (s.setSlot k v).ftgStacks = s.ftgStacks := rfl
@[simp] theorem State.setSlot_ftg : (s.setSlot k v).ftg = s.ftg := rfl
@[simp] theorem State.setSlot_ucf : (s.setSlot k v).ucf = s.ucf := rfl
@[simp] theorem State.setSlot_ports : (s.setSlot k v).ports = s.ports := rfl
@[simp] theorem State.setSlot_pairs : (s.setSlot k v).pairs = s.pairs := rfl
@[simp] theorem State.setSlot_arc : (s.setSlot k v).arc = s.arc := rfl
@[simp] theorem State.setSlot_prs : (s.setSlot k v).prs = s.prs := rfl
@[simp] theorem State.setSlot_qry : (s.setSlot k v).qry = s.qry := rfl
@[simp] theorem State.setSlot_hif : (s.setSlot k v).hif = s.hif := rfl
@[simp] theorem State.setSlot_msn : (s.setSlot k v).msn = s.msn := rfl
@[simp] theorem State.setSlot_sealBlk : (s.setSlot k v).sealBlk = s.sealBlk := rfl
@[simp] theorem State.setSlot_gge : (s.setSlot k v).gge = s.gge := rfl
@[simp] theorem State.setSlot_pln : (s.setSlot k v).pln = s.pln := rfl
@[simp] theorem State.setSlot_ldg : (s.setSlot k v).ldg = s.ldg := rfl
@[simp] theorem State.setSlot_slot : (s.setSlot k v).slot k = v := Tab.get_set ..
theorem State.setSlot_slot_ne (j : Nat) (h : j ≠ k) : (s.setSlot k v).slot j = s.slot j := Tab.get_set_ne _ _ _ _ _ h
@[simp] theorem State.setSlot_setSlot (w : Slot) : (s.setSlot k v).setSlot k w = s.setSlot k w := by simp [State.setSlot]
@[simp] theorem State.setSlot_ctx (j : Nat) : (s.setSlot k v).ctx j = s.ctx j := rfl
@[simp] theorem State.setSlot_core (j : Nat) : (s.setSlot k v).core j = s.core j := rfl
@[simp] theorem State.setSlot_obj (j : Nat) : (s.setSlot k v).obj j = s.obj j := rfl
@[simp] theorem State.setSlot_stack (j : Nat) : (s.setSlot k v).stack j = s.stack j := rfl
@[simp] theorem State.setSlot_port (j : Nat) : (s.setSlot k v).port j = s.port j := rfl
@[simp] theorem State.setSlot_pair (j : Nat) : (s.setSlot k v).pair j = s.pair j := rfl
end

section
variable (k : Nat) (v : Obj)
@[simp] theorem State.setObj_pending : (s.setObj k v).pending = s.pending := rfl
@[simp] theorem State.setObj_free : (s.setObj k v).free = s.free := rfl
@[simp] theorem State.setObj_ctxs : (s.setObj k v).ctxs = s.ctxs := rfl
@[simp] theorem State.setObj_cores : (s.setObj k v).cores = s.cores := rfl
@[simp] theorem State.setObj_slots : (s.setObj k v).slots = s.slots := rfl
@[simp] theorem State.setObj_acc : (s.setObj k v).acc = s.acc := rfl
@[simp] theorem State.setObj_spad : (s.setObj k v).spad = s.spad := rfl
@[simp] theorem State.setObj_ops : (s.setObj k v).ops = s.ops := rfl
@[simp] theorem State.setObj_nextOp : (s.setObj k v).nextOp = s.nextOp := rfl
@[simp] theorem State.setObj_arrivals : (s.setObj k v).arrivals = s.arrivals := rfl
@[simp] theorem State.setObj_nsb : (s.setObj k v).nsb = s.nsb := rfl
@[simp] theorem State.setObj_overflow : (s.setObj k v).overflow = s.overflow := rfl
@[simp] theorem State.setObj_kst : (s.setObj k v).kst = s.kst := rfl
@[simp] theorem State.setObj_hod : (s.setObj k v).hod = s.hod := rfl
@[simp] theorem State.setObj_objMem : (s.setObj k v).objMem = s.objMem := rfl
@[simp] theorem State.setObj_bad : (s.setObj k v).bad = s.bad := rfl
@[simp] theorem State.setObj_phys : (s.setObj k v).phys = s.phys := rfl
@[simp] theorem State.setObj_hostMem : (s.setObj k v).hostMem = s.hostMem := rfl
@[simp] theorem State.setObj_mtr : (s.setObj k v).mtr = s.mtr := rfl
@[simp] theorem State.setObj_ftgStacks : (s.setObj k v).ftgStacks = s.ftgStacks := rfl
@[simp] theorem State.setObj_ftg : (s.setObj k v).ftg = s.ftg := rfl
@[simp] theorem State.setObj_ucf : (s.setObj k v).ucf = s.ucf := rfl
@[simp] theorem State.setObj_ports : (s.setObj k v).ports = s.ports := rfl
@[simp] theorem State.setObj_pairs : (s.setObj k v).pairs = s.pairs := rfl
@[simp] theorem State.setObj_arc : (s.setObj k v).arc = s.arc := rfl
@[simp] theorem State.setObj_prs : (s.setObj k v).prs = s.prs := rfl
@[simp] theorem State.setObj_qry : (s.setObj k v).qry = s.qry := rfl
@[simp] theorem State.setObj_hif : (s.setObj k v).hif = s.hif := rfl
@[simp] theorem State.setObj_msn : (s.setObj k v).msn = s.msn := rfl
@[simp] theorem State.setObj_sealBlk : (s.setObj k v).sealBlk = s.sealBlk := rfl
@[simp] theorem State.setObj_gge : (s.setObj k v).gge = s.gge := rfl
@[simp] theorem State.setObj_pln : (s.setObj k v).pln = s.pln := rfl
@[simp] theorem State.setObj_ldg : (s.setObj k v).ldg = s.ldg := rfl
@[simp] theorem State.setObj_obj : (s.setObj k v).obj k = v := Tab.get_set ..
theorem State.setObj_obj_ne (j : Nat) (h : j ≠ k) : (s.setObj k v).obj j = s.obj j := Tab.get_set_ne _ _ _ _ _ h
@[simp] theorem State.setObj_setObj (w : Obj) : (s.setObj k v).setObj k w = s.setObj k w := by simp [State.setObj]
@[simp] theorem State.setObj_ctx (j : Nat) : (s.setObj k v).ctx j = s.ctx j := rfl
@[simp] theorem State.setObj_core (j : Nat) : (s.setObj k v).core j = s.core j := rfl
@[simp] theorem State.setObj_slot (j : Nat) : (s.setObj k v).slot j = s.slot j := rfl
@[simp] theorem State.setObj_stack (j : Nat) : (s.setObj k v).stack j = s.stack j := rfl
@[simp] theorem State.setObj_port (j : Nat) : (s.setObj k v).port j = s.port j := rfl
@[simp] theorem State.setObj_pair (j : Nat) : (s.setObj k v).pair j = s.pair j := rfl
end

section
variable (k : Nat) (v : Stack)
@[simp] theorem State.setStack_pending : (s.setStack k v).pending = s.pending := rfl
@[simp] theorem State.setStack_free : (s.setStack k v).free = s.free := rfl
@[simp] theorem State.setStack_ctxs : (s.setStack k v).ctxs = s.ctxs := rfl
@[simp] theorem State.setStack_cores : (s.setStack k v).cores = s.cores := rfl
@[simp] theorem State.setStack_slots : (s.setStack k v).slots = s.slots := rfl
@[simp] theorem State.setStack_acc : (s.setStack k v).acc = s.acc := rfl
@[simp] theorem State.setStack_spad : (s.setStack k v).spad = s.spad := rfl
@[simp] theorem State.setStack_ops : (s.setStack k v).ops = s.ops := rfl
@[simp] theorem State.setStack_nextOp : (s.setStack k v).nextOp = s.nextOp := rfl
@[simp] theorem State.setStack_arrivals : (s.setStack k v).arrivals = s.arrivals := rfl
@[simp] theorem State.setStack_nsb : (s.setStack k v).nsb = s.nsb := rfl
@[simp] theorem State.setStack_overflow : (s.setStack k v).overflow = s.overflow := rfl
@[simp] theorem State.setStack_kst : (s.setStack k v).kst = s.kst := rfl
@[simp] theorem State.setStack_hod : (s.setStack k v).hod = s.hod := rfl
@[simp] theorem State.setStack_objs : (s.setStack k v).objs = s.objs := rfl
@[simp] theorem State.setStack_objMem : (s.setStack k v).objMem = s.objMem := rfl
@[simp] theorem State.setStack_bad : (s.setStack k v).bad = s.bad := rfl
@[simp] theorem State.setStack_phys : (s.setStack k v).phys = s.phys := rfl
@[simp] theorem State.setStack_hostMem : (s.setStack k v).hostMem = s.hostMem := rfl
@[simp] theorem State.setStack_mtr : (s.setStack k v).mtr = s.mtr := rfl
@[simp] theorem State.setStack_ftg : (s.setStack k v).ftg = s.ftg := rfl
@[simp] theorem State.setStack_ucf : (s.setStack k v).ucf = s.ucf := rfl
@[simp] theorem State.setStack_ports : (s.setStack k v).ports = s.ports := rfl
@[simp] theorem State.setStack_pairs : (s.setStack k v).pairs = s.pairs := rfl
@[simp] theorem State.setStack_arc : (s.setStack k v).arc = s.arc := rfl
@[simp] theorem State.setStack_prs : (s.setStack k v).prs = s.prs := rfl
@[simp] theorem State.setStack_qry : (s.setStack k v).qry = s.qry := rfl
@[simp] theorem State.setStack_hif : (s.setStack k v).hif = s.hif := rfl
@[simp] theorem State.setStack_msn : (s.setStack k v).msn = s.msn := rfl
@[simp] theorem State.setStack_sealBlk : (s.setStack k v).sealBlk = s.sealBlk := rfl
@[simp] theorem State.setStack_gge : (s.setStack k v).gge = s.gge := rfl
@[simp] theorem State.setStack_pln : (s.setStack k v).pln = s.pln := rfl
@[simp] theorem State.setStack_ldg : (s.setStack k v).ldg = s.ldg := rfl
@[simp] theorem State.setStack_stack : (s.setStack k v).stack k = v := Tab.get_set ..
theorem State.setStack_stack_ne (j : Nat) (h : j ≠ k) : (s.setStack k v).stack j = s.stack j := Tab.get_set_ne _ _ _ _ _ h
@[simp] theorem State.setStack_setStack (w : Stack) : (s.setStack k v).setStack k w = s.setStack k w := by simp [State.setStack]
@[simp] theorem State.setStack_ctx (j : Nat) : (s.setStack k v).ctx j = s.ctx j := rfl
@[simp] theorem State.setStack_core (j : Nat) : (s.setStack k v).core j = s.core j := rfl
@[simp] theorem State.setStack_slot (j : Nat) : (s.setStack k v).slot j = s.slot j := rfl
@[simp] theorem State.setStack_obj (j : Nat) : (s.setStack k v).obj j = s.obj j := rfl
@[simp] theorem State.setStack_port (j : Nat) : (s.setStack k v).port j = s.port j := rfl
@[simp] theorem State.setStack_pair (j : Nat) : (s.setStack k v).pair j = s.pair j := rfl
end

section
variable (k : Nat) (v : Port)
@[simp] theorem State.setPort_pending : (s.setPort k v).pending = s.pending := rfl
@[simp] theorem State.setPort_free : (s.setPort k v).free = s.free := rfl
@[simp] theorem State.setPort_ctxs : (s.setPort k v).ctxs = s.ctxs := rfl
@[simp] theorem State.setPort_cores : (s.setPort k v).cores = s.cores := rfl
@[simp] theorem State.setPort_slots : (s.setPort k v).slots = s.slots := rfl
@[simp] theorem State.setPort_acc : (s.setPort k v).acc = s.acc := rfl
@[simp] theorem State.setPort_spad : (s.setPort k v).spad = s.spad := rfl
@[simp] theorem State.setPort_ops : (s.setPort k v).ops = s.ops := rfl
@[simp] theorem State.setPort_nextOp : (s.setPort k v).nextOp = s.nextOp := rfl
@[simp] theorem State.setPort_arrivals : (s.setPort k v).arrivals = s.arrivals := rfl
@[simp] theorem State.setPort_nsb : (s.setPort k v).nsb = s.nsb := rfl
@[simp] theorem State.setPort_overflow : (s.setPort k v).overflow = s.overflow := rfl
@[simp] theorem State.setPort_kst : (s.setPort k v).kst = s.kst := rfl
@[simp] theorem State.setPort_hod : (s.setPort k v).hod = s.hod := rfl
@[simp] theorem State.setPort_objs : (s.setPort k v).objs = s.objs := rfl
@[simp] theorem State.setPort_objMem : (s.setPort k v).objMem = s.objMem := rfl
@[simp] theorem State.setPort_bad : (s.setPort k v).bad = s.bad := rfl
@[simp] theorem State.setPort_phys : (s.setPort k v).phys = s.phys := rfl
@[simp] theorem State.setPort_hostMem : (s.setPort k v).hostMem = s.hostMem := rfl
@[simp] theorem State.setPort_mtr : (s.setPort k v).mtr = s.mtr := rfl
@[simp] theorem State.setPort_ftgStacks : (s.setPort k v).ftgStacks = s.ftgStacks := rfl
@[simp] theorem State.setPort_ftg : (s.setPort k v).ftg = s.ftg := rfl
@[simp] theorem State.setPort_ucf : (s.setPort k v).ucf = s.ucf := rfl
@[simp] theorem State.setPort_pairs : (s.setPort k v).pairs = s.pairs := rfl
@[simp] theorem State.setPort_arc : (s.setPort k v).arc = s.arc := rfl
@[simp] theorem State.setPort_prs : (s.setPort k v).prs = s.prs := rfl
@[simp] theorem State.setPort_qry : (s.setPort k v).qry = s.qry := rfl
@[simp] theorem State.setPort_hif : (s.setPort k v).hif = s.hif := rfl
@[simp] theorem State.setPort_msn : (s.setPort k v).msn = s.msn := rfl
@[simp] theorem State.setPort_sealBlk : (s.setPort k v).sealBlk = s.sealBlk := rfl
@[simp] theorem State.setPort_gge : (s.setPort k v).gge = s.gge := rfl
@[simp] theorem State.setPort_pln : (s.setPort k v).pln = s.pln := rfl
@[simp] theorem State.setPort_ldg : (s.setPort k v).ldg = s.ldg := rfl
@[simp] theorem State.setPort_port : (s.setPort k v).port k = v := Tab.get_set ..
theorem State.setPort_port_ne (j : Nat) (h : j ≠ k) : (s.setPort k v).port j = s.port j := Tab.get_set_ne _ _ _ _ _ h
@[simp] theorem State.setPort_setPort (w : Port) : (s.setPort k v).setPort k w = s.setPort k w := by simp [State.setPort]
@[simp] theorem State.setPort_ctx (j : Nat) : (s.setPort k v).ctx j = s.ctx j := rfl
@[simp] theorem State.setPort_core (j : Nat) : (s.setPort k v).core j = s.core j := rfl
@[simp] theorem State.setPort_slot (j : Nat) : (s.setPort k v).slot j = s.slot j := rfl
@[simp] theorem State.setPort_obj (j : Nat) : (s.setPort k v).obj j = s.obj j := rfl
@[simp] theorem State.setPort_stack (j : Nat) : (s.setPort k v).stack j = s.stack j := rfl
@[simp] theorem State.setPort_pair (j : Nat) : (s.setPort k v).pair j = s.pair j := rfl
end

section
variable (k : Nat) (v : Pair)
@[simp] theorem State.setPair_pending : (s.setPair k v).pending = s.pending := rfl
@[simp] theorem State.setPair_free : (s.setPair k v).free = s.free := rfl
@[simp] theorem State.setPair_ctxs : (s.setPair k v).ctxs = s.ctxs := rfl
@[simp] theorem State.setPair_cores : (s.setPair k v).cores = s.cores := rfl
@[simp] theorem State.setPair_slots : (s.setPair k v).slots = s.slots := rfl
@[simp] theorem State.setPair_acc : (s.setPair k v).acc = s.acc := rfl
@[simp] theorem State.setPair_spad : (s.setPair k v).spad = s.spad := rfl
@[simp] theorem State.setPair_ops : (s.setPair k v).ops = s.ops := rfl
@[simp] theorem State.setPair_nextOp : (s.setPair k v).nextOp = s.nextOp := rfl
@[simp] theorem State.setPair_arrivals : (s.setPair k v).arrivals = s.arrivals := rfl
@[simp] theorem State.setPair_nsb : (s.setPair k v).nsb = s.nsb := rfl
@[simp] theorem State.setPair_overflow : (s.setPair k v).overflow = s.overflow := rfl
@[simp] theorem State.setPair_kst : (s.setPair k v).kst = s.kst := rfl
@[simp] theorem State.setPair_hod : (s.setPair k v).hod = s.hod := rfl
@[simp] theorem State.setPair_objs : (s.setPair k v).objs = s.objs := rfl
@[simp] theorem State.setPair_objMem : (s.setPair k v).objMem = s.objMem := rfl
@[simp] theorem State.setPair_bad : (s.setPair k v).bad = s.bad := rfl
@[simp] theorem State.setPair_phys : (s.setPair k v).phys = s.phys := rfl
@[simp] theorem State.setPair_hostMem : (s.setPair k v).hostMem = s.hostMem := rfl
@[simp] theorem State.setPair_mtr : (s.setPair k v).mtr = s.mtr := rfl
@[simp] theorem State.setPair_ftgStacks : (s.setPair k v).ftgStacks = s.ftgStacks := rfl
@[simp] theorem State.setPair_ftg : (s.setPair k v).ftg = s.ftg := rfl
@[simp] theorem State.setPair_ucf : (s.setPair k v).ucf = s.ucf := rfl
@[simp] theorem State.setPair_ports : (s.setPair k v).ports = s.ports := rfl
@[simp] theorem State.setPair_arc : (s.setPair k v).arc = s.arc := rfl
@[simp] theorem State.setPair_prs : (s.setPair k v).prs = s.prs := rfl
@[simp] theorem State.setPair_qry : (s.setPair k v).qry = s.qry := rfl
@[simp] theorem State.setPair_hif : (s.setPair k v).hif = s.hif := rfl
@[simp] theorem State.setPair_msn : (s.setPair k v).msn = s.msn := rfl
@[simp] theorem State.setPair_sealBlk : (s.setPair k v).sealBlk = s.sealBlk := rfl
@[simp] theorem State.setPair_gge : (s.setPair k v).gge = s.gge := rfl
@[simp] theorem State.setPair_pln : (s.setPair k v).pln = s.pln := rfl
@[simp] theorem State.setPair_ldg : (s.setPair k v).ldg = s.ldg := rfl
@[simp] theorem State.setPair_pair : (s.setPair k v).pair k = v := Tab.get_set ..
theorem State.setPair_pair_ne (j : Nat) (h : j ≠ k) : (s.setPair k v).pair j = s.pair j := Tab.get_set_ne _ _ _ _ _ h
@[simp] theorem State.setPair_setPair (w : Pair) : (s.setPair k v).setPair k w = s.setPair k w := by simp [State.setPair]
@[simp] theorem State.setPair_ctx (j : Nat) : (s.setPair k v).ctx j = s.ctx j := rfl
@[simp] theorem State.setPair_core (j : Nat) : (s.setPair k v).core j = s.core j := rfl
@[simp] theorem State.setPair_slot (j : Nat) : (s.setPair k v).slot j = s.slot j := rfl
@[simp] theorem State.setPair_obj (j : Nat) : (s.setPair k v).obj j = s.obj j := rfl
@[simp] theorem State.setPair_stack (j : Nat) : (s.setPair k v).stack j = s.stack j := rfl
@[simp] theorem State.setPair_port (j : Nat) : (s.setPair k v).port j = s.port j := rfl
end

section
variable (o : Op)
@[simp] theorem State.setOp_pending : (s.setOp o).pending = s.pending := rfl
@[simp] theorem State.dropOp_pending (n : Nat) : (s.dropOp n).pending = s.pending := rfl
@[simp] theorem State.setOp_free : (s.setOp o).free = s.free := rfl
@[simp] theorem State.dropOp_free (n : Nat) : (s.dropOp n).free = s.free := rfl
@[simp] theorem State.setOp_ctxs : (s.setOp o).ctxs = s.ctxs := rfl
@[simp] theorem State.dropOp_ctxs (n : Nat) : (s.dropOp n).ctxs = s.ctxs := rfl
@[simp] theorem State.setOp_cores : (s.setOp o).cores = s.cores := rfl
@[simp] theorem State.dropOp_cores (n : Nat) : (s.dropOp n).cores = s.cores := rfl
@[simp] theorem State.setOp_slots : (s.setOp o).slots = s.slots := rfl
@[simp] theorem State.dropOp_slots (n : Nat) : (s.dropOp n).slots = s.slots := rfl
@[simp] theorem State.setOp_acc : (s.setOp o).acc = s.acc := rfl
@[simp] theorem State.dropOp_acc (n : Nat) : (s.dropOp n).acc = s.acc := rfl
@[simp] theorem State.setOp_spad : (s.setOp o).spad = s.spad := rfl
@[simp] theorem State.dropOp_spad (n : Nat) : (s.dropOp n).spad = s.spad := rfl
@[simp] theorem State.setOp_nextOp : (s.setOp o).nextOp = s.nextOp := rfl
@[simp] theorem State.dropOp_nextOp (n : Nat) : (s.dropOp n).nextOp = s.nextOp := rfl
@[simp] theorem State.setOp_arrivals : (s.setOp o).arrivals = s.arrivals := rfl
@[simp] theorem State.dropOp_arrivals (n : Nat) : (s.dropOp n).arrivals = s.arrivals := rfl
@[simp] theorem State.setOp_nsb : (s.setOp o).nsb = s.nsb := rfl
@[simp] theorem State.dropOp_nsb (n : Nat) : (s.dropOp n).nsb = s.nsb := rfl
@[simp] theorem State.setOp_overflow : (s.setOp o).overflow = s.overflow := rfl
@[simp] theorem State.dropOp_overflow (n : Nat) : (s.dropOp n).overflow = s.overflow := rfl
@[simp] theorem State.setOp_kst : (s.setOp o).kst = s.kst := rfl
@[simp] theorem State.dropOp_kst (n : Nat) : (s.dropOp n).kst = s.kst := rfl
@[simp] theorem State.setOp_hod : (s.setOp o).hod = s.hod := rfl
@[simp] theorem State.dropOp_hod (n : Nat) : (s.dropOp n).hod = s.hod := rfl
@[simp] theorem State.setOp_objs : (s.setOp o).objs = s.objs := rfl
@[simp] theorem State.dropOp_objs (n : Nat) : (s.dropOp n).objs = s.objs := rfl
@[simp] theorem State.setOp_objMem : (s.setOp o).objMem = s.objMem := rfl
@[simp] theorem State.dropOp_objMem (n : Nat) : (s.dropOp n).objMem = s.objMem := rfl
@[simp] theorem State.setOp_bad : (s.setOp o).bad = s.bad := rfl
@[simp] theorem State.dropOp_bad (n : Nat) : (s.dropOp n).bad = s.bad := rfl
@[simp] theorem State.setOp_phys : (s.setOp o).phys = s.phys := rfl
@[simp] theorem State.dropOp_phys (n : Nat) : (s.dropOp n).phys = s.phys := rfl
@[simp] theorem State.setOp_hostMem : (s.setOp o).hostMem = s.hostMem := rfl
@[simp] theorem State.dropOp_hostMem (n : Nat) : (s.dropOp n).hostMem = s.hostMem := rfl
@[simp] theorem State.setOp_mtr : (s.setOp o).mtr = s.mtr := rfl
@[simp] theorem State.dropOp_mtr (n : Nat) : (s.dropOp n).mtr = s.mtr := rfl
@[simp] theorem State.setOp_ftgStacks : (s.setOp o).ftgStacks = s.ftgStacks := rfl
@[simp] theorem State.dropOp_ftgStacks (n : Nat) : (s.dropOp n).ftgStacks = s.ftgStacks := rfl
@[simp] theorem State.setOp_ftg : (s.setOp o).ftg = s.ftg := rfl
@[simp] theorem State.dropOp_ftg (n : Nat) : (s.dropOp n).ftg = s.ftg := rfl
@[simp] theorem State.setOp_ucf : (s.setOp o).ucf = s.ucf := rfl
@[simp] theorem State.dropOp_ucf (n : Nat) : (s.dropOp n).ucf = s.ucf := rfl
@[simp] theorem State.setOp_ports : (s.setOp o).ports = s.ports := rfl
@[simp] theorem State.dropOp_ports (n : Nat) : (s.dropOp n).ports = s.ports := rfl
@[simp] theorem State.setOp_pairs : (s.setOp o).pairs = s.pairs := rfl
@[simp] theorem State.dropOp_pairs (n : Nat) : (s.dropOp n).pairs = s.pairs := rfl
@[simp] theorem State.setOp_arc : (s.setOp o).arc = s.arc := rfl
@[simp] theorem State.dropOp_arc (n : Nat) : (s.dropOp n).arc = s.arc := rfl
@[simp] theorem State.setOp_prs : (s.setOp o).prs = s.prs := rfl
@[simp] theorem State.dropOp_prs (n : Nat) : (s.dropOp n).prs = s.prs := rfl
@[simp] theorem State.setOp_qry : (s.setOp o).qry = s.qry := rfl
@[simp] theorem State.dropOp_qry (n : Nat) : (s.dropOp n).qry = s.qry := rfl
@[simp] theorem State.setOp_hif : (s.setOp o).hif = s.hif := rfl
@[simp] theorem State.dropOp_hif (n : Nat) : (s.dropOp n).hif = s.hif := rfl
@[simp] theorem State.setOp_msn : (s.setOp o).msn = s.msn := rfl
@[simp] theorem State.dropOp_msn (n : Nat) : (s.dropOp n).msn = s.msn := rfl
@[simp] theorem State.setOp_sealBlk : (s.setOp o).sealBlk = s.sealBlk := rfl
@[simp] theorem State.dropOp_sealBlk (n : Nat) : (s.dropOp n).sealBlk = s.sealBlk := rfl
@[simp] theorem State.setOp_gge : (s.setOp o).gge = s.gge := rfl
@[simp] theorem State.dropOp_gge (n : Nat) : (s.dropOp n).gge = s.gge := rfl
@[simp] theorem State.setOp_pln : (s.setOp o).pln = s.pln := rfl
@[simp] theorem State.dropOp_pln (n : Nat) : (s.dropOp n).pln = s.pln := rfl
@[simp] theorem State.setOp_ldg : (s.setOp o).ldg = s.ldg := rfl
@[simp] theorem State.dropOp_ldg (n : Nat) : (s.dropOp n).ldg = s.ldg := rfl
end

section
variable (k a : Nat) (bs : List Byte)
@[simp] theorem State.spadWrite_pending : (s.spadWrite k a bs).pending = s.pending := rfl
@[simp] theorem State.objWrite_pending : (s.objWrite k a bs).pending = s.pending := rfl
@[simp] theorem State.objZero_pending : (s.objZero k).pending = s.pending := rfl
@[simp] theorem State.spadWrite_free : (s.spadWrite k a bs).free = s.free := rfl
@[simp] theorem State.objWrite_free : (s.objWrite k a bs).free = s.free := rfl
@[simp] theorem State.objZero_free : (s.objZero k).free = s.free := rfl
@[simp] theorem State.spadWrite_ctxs : (s.spadWrite k a bs).ctxs = s.ctxs := rfl
@[simp] theorem State.objWrite_ctxs : (s.objWrite k a bs).ctxs = s.ctxs := rfl
@[simp] theorem State.objZero_ctxs : (s.objZero k).ctxs = s.ctxs := rfl
@[simp] theorem State.spadWrite_cores : (s.spadWrite k a bs).cores = s.cores := rfl
@[simp] theorem State.objWrite_cores : (s.objWrite k a bs).cores = s.cores := rfl
@[simp] theorem State.objZero_cores : (s.objZero k).cores = s.cores := rfl
@[simp] theorem State.spadWrite_slots : (s.spadWrite k a bs).slots = s.slots := rfl
@[simp] theorem State.objWrite_slots : (s.objWrite k a bs).slots = s.slots := rfl
@[simp] theorem State.objZero_slots : (s.objZero k).slots = s.slots := rfl
@[simp] theorem State.spadWrite_acc : (s.spadWrite k a bs).acc = s.acc := rfl
@[simp] theorem State.objWrite_acc : (s.objWrite k a bs).acc = s.acc := rfl
@[simp] theorem State.objZero_acc : (s.objZero k).acc = s.acc := rfl
@[simp] theorem State.objWrite_spad : (s.objWrite k a bs).spad = s.spad := rfl
@[simp] theorem State.objZero_spad : (s.objZero k).spad = s.spad := rfl
@[simp] theorem State.spadWrite_ops : (s.spadWrite k a bs).ops = s.ops := rfl
@[simp] theorem State.objWrite_ops : (s.objWrite k a bs).ops = s.ops := rfl
@[simp] theorem State.objZero_ops : (s.objZero k).ops = s.ops := rfl
@[simp] theorem State.spadWrite_nextOp : (s.spadWrite k a bs).nextOp = s.nextOp := rfl
@[simp] theorem State.objWrite_nextOp : (s.objWrite k a bs).nextOp = s.nextOp := rfl
@[simp] theorem State.objZero_nextOp : (s.objZero k).nextOp = s.nextOp := rfl
@[simp] theorem State.spadWrite_arrivals : (s.spadWrite k a bs).arrivals = s.arrivals := rfl
@[simp] theorem State.objWrite_arrivals : (s.objWrite k a bs).arrivals = s.arrivals := rfl
@[simp] theorem State.objZero_arrivals : (s.objZero k).arrivals = s.arrivals := rfl
@[simp] theorem State.spadWrite_nsb : (s.spadWrite k a bs).nsb = s.nsb := rfl
@[simp] theorem State.objWrite_nsb : (s.objWrite k a bs).nsb = s.nsb := rfl
@[simp] theorem State.objZero_nsb : (s.objZero k).nsb = s.nsb := rfl
@[simp] theorem State.spadWrite_overflow : (s.spadWrite k a bs).overflow = s.overflow := rfl
@[simp] theorem State.objWrite_overflow : (s.objWrite k a bs).overflow = s.overflow := rfl
@[simp] theorem State.objZero_overflow : (s.objZero k).overflow = s.overflow := rfl
@[simp] theorem State.spadWrite_kst : (s.spadWrite k a bs).kst = s.kst := rfl
@[simp] theorem State.objWrite_kst : (s.objWrite k a bs).kst = s.kst := rfl
@[simp] theorem State.objZero_kst : (s.objZero k).kst = s.kst := rfl
@[simp] theorem State.spadWrite_hod : (s.spadWrite k a bs).hod = s.hod := rfl
@[simp] theorem State.objWrite_hod : (s.objWrite k a bs).hod = s.hod := rfl
@[simp] theorem State.objZero_hod : (s.objZero k).hod = s.hod := rfl
@[simp] theorem State.spadWrite_objs : (s.spadWrite k a bs).objs = s.objs := rfl
@[simp] theorem State.objZero_objs : (s.objZero k).objs = s.objs := rfl
@[simp] theorem State.spadWrite_objMem : (s.spadWrite k a bs).objMem = s.objMem := rfl
@[simp] theorem State.spadWrite_bad : (s.spadWrite k a bs).bad = s.bad := rfl
@[simp] theorem State.spadWrite_phys : (s.spadWrite k a bs).phys = s.phys := rfl
@[simp] theorem State.objWrite_phys : (s.objWrite k a bs).phys = s.phys := rfl
@[simp] theorem State.objZero_phys : (s.objZero k).phys = s.phys := rfl
@[simp] theorem State.spadWrite_hostMem : (s.spadWrite k a bs).hostMem = s.hostMem := rfl
@[simp] theorem State.objWrite_hostMem : (s.objWrite k a bs).hostMem = s.hostMem := rfl
@[simp] theorem State.objZero_hostMem : (s.objZero k).hostMem = s.hostMem := rfl
@[simp] theorem State.spadWrite_mtr : (s.spadWrite k a bs).mtr = s.mtr := rfl
@[simp] theorem State.objWrite_mtr : (s.objWrite k a bs).mtr = s.mtr := rfl
@[simp] theorem State.objZero_mtr : (s.objZero k).mtr = s.mtr := rfl
@[simp] theorem State.spadWrite_ftgStacks : (s.spadWrite k a bs).ftgStacks = s.ftgStacks := rfl
@[simp] theorem State.objWrite_ftgStacks : (s.objWrite k a bs).ftgStacks = s.ftgStacks := rfl
@[simp] theorem State.objZero_ftgStacks : (s.objZero k).ftgStacks = s.ftgStacks := rfl
@[simp] theorem State.spadWrite_ftg : (s.spadWrite k a bs).ftg = s.ftg := rfl
@[simp] theorem State.objWrite_ftg : (s.objWrite k a bs).ftg = s.ftg := rfl
@[simp] theorem State.objZero_ftg : (s.objZero k).ftg = s.ftg := rfl
@[simp] theorem State.spadWrite_ucf : (s.spadWrite k a bs).ucf = s.ucf := rfl
@[simp] theorem State.objWrite_ucf : (s.objWrite k a bs).ucf = s.ucf := rfl
@[simp] theorem State.objZero_ucf : (s.objZero k).ucf = s.ucf := rfl
@[simp] theorem State.spadWrite_ports : (s.spadWrite k a bs).ports = s.ports := rfl
@[simp] theorem State.objWrite_ports : (s.objWrite k a bs).ports = s.ports := rfl
@[simp] theorem State.objZero_ports : (s.objZero k).ports = s.ports := rfl
@[simp] theorem State.spadWrite_pairs : (s.spadWrite k a bs).pairs = s.pairs := rfl
@[simp] theorem State.objWrite_pairs : (s.objWrite k a bs).pairs = s.pairs := rfl
@[simp] theorem State.objZero_pairs : (s.objZero k).pairs = s.pairs := rfl
@[simp] theorem State.spadWrite_arc : (s.spadWrite k a bs).arc = s.arc := rfl
@[simp] theorem State.objWrite_arc : (s.objWrite k a bs).arc = s.arc := rfl
@[simp] theorem State.objZero_arc : (s.objZero k).arc = s.arc := rfl
@[simp] theorem State.spadWrite_prs : (s.spadWrite k a bs).prs = s.prs := rfl
@[simp] theorem State.objWrite_prs : (s.objWrite k a bs).prs = s.prs := rfl
@[simp] theorem State.objZero_prs : (s.objZero k).prs = s.prs := rfl
@[simp] theorem State.spadWrite_qry : (s.spadWrite k a bs).qry = s.qry := rfl
@[simp] theorem State.objWrite_qry : (s.objWrite k a bs).qry = s.qry := rfl
@[simp] theorem State.objZero_qry : (s.objZero k).qry = s.qry := rfl
@[simp] theorem State.spadWrite_hif : (s.spadWrite k a bs).hif = s.hif := rfl
@[simp] theorem State.objWrite_hif : (s.objWrite k a bs).hif = s.hif := rfl
@[simp] theorem State.objZero_hif : (s.objZero k).hif = s.hif := rfl
@[simp] theorem State.spadWrite_msn : (s.spadWrite k a bs).msn = s.msn := rfl
@[simp] theorem State.objWrite_msn : (s.objWrite k a bs).msn = s.msn := rfl
@[simp] theorem State.objZero_msn : (s.objZero k).msn = s.msn := rfl
@[simp] theorem State.spadWrite_sealBlk : (s.spadWrite k a bs).sealBlk = s.sealBlk := rfl
@[simp] theorem State.objWrite_sealBlk : (s.objWrite k a bs).sealBlk = s.sealBlk := rfl
@[simp] theorem State.objZero_sealBlk : (s.objZero k).sealBlk = s.sealBlk := rfl
@[simp] theorem State.spadWrite_gge : (s.spadWrite k a bs).gge = s.gge := rfl
@[simp] theorem State.objWrite_gge : (s.objWrite k a bs).gge = s.gge := rfl
@[simp] theorem State.objZero_gge : (s.objZero k).gge = s.gge := rfl
@[simp] theorem State.spadWrite_pln : (s.spadWrite k a bs).pln = s.pln := rfl
@[simp] theorem State.objWrite_pln : (s.objWrite k a bs).pln = s.pln := rfl
@[simp] theorem State.objZero_pln : (s.objZero k).pln = s.pln := rfl
@[simp] theorem State.spadWrite_ldg : (s.spadWrite k a bs).ldg = s.ldg := rfl
@[simp] theorem State.objWrite_ldg : (s.objWrite k a bs).ldg = s.ldg := rfl
@[simp] theorem State.objZero_ldg : (s.objZero k).ldg = s.ldg := rfl
end

end Sys2Proof.Machine
end

