-- ==== Sys2Proof/Laws/Ops.lean ====
section
/-! SUPPORT. What the shared operations over registers and memory do, said once. -/

namespace Sys2Proof.Machine

/-! ## Context registers -/

@[simp] theorem Ctx.sreg_zero (c : Ctx) : c.sreg 0 = 0 := rfl

@[simp] theorem Ctx.setSreg_zero (c : Ctx) (v : W64) : c.setSreg 0 v = c := rfl

/-- A register written holds the value; s0 reads 0 whatever is written. -/
theorem Ctx.sreg_setSreg (c : Ctx) (n : Nat) (v : W64) : (c.setSreg n v).sreg n = if n = 0 then 0 else v := by
  unfold Ctx.sreg Ctx.setSreg
  split <;> simp

theorem Ctx.sreg_setSreg_ne (c : Ctx) (n m : Nat) (v : W64) (h : m ≠ n) : (c.setSreg n v).sreg m = c.sreg m := by
  unfold Ctx.sreg Ctx.setSreg
  split
  · rfl
  · by_cases hn : n = 0
    · simp [hn]
    · simp [hn, Tab.get_set_ne _ _ _ _ _ h]

/-- Writing a scalar register changes only the scalar registers. -/
theorem Ctx.setSreg_frame (c : Ctx) (n : Nat) (v : W64) : c.setSreg n v = { c with sr := (c.setSreg n v).sr } := by
  unfold Ctx.setSreg; split <;> rfl

@[simp] theorem Ctx.pred_zero (c : Ctx) : c.pred 0 = true := rfl

/-! ## Memories -/

@[simp] theorem Mem.read_length (m : Mem) (a n : Nat) : (m.read a n).length = n := Tab.range_length ..

/-- A read agrees with reads of single bytes. -/
theorem Mem.read_getD (m : Mem) (a n j : Nat) (hm : m.wf = true) (hj : j < n) : (m.read a n).getD j 0 = Tab.get 0 m (a + j) :=
  Tab.range_getD 0 m a n j ((Tab.wf_iff 0 m).1 hm).1 hj

/-- A write changes the bytes of its range, and no other. -/
theorem Mem.get_write (m : Mem) (a : Nat) (bs : List Byte) (k : Nat) :
    Tab.get 0 (m.write a bs) k = if a ≤ k ∧ k < a + bs.length then bs.getD (k - a) 0 else Tab.get 0 m k := Tab.get_setRange ..

theorem Mem.write_wf (m : Mem) (a : Nat) (bs : List Byte) (h : m.wf = true) : (m.write a bs).wf = true := Tab.setRange_wf 0 m a bs h

theorem Mem.clear_wf (m : Mem) (a n : Nat) (h : m.wf = true) : (m.clear a n).wf = true := Tab.clearRange_wf 0 m a n h

/-- A range of bytes just written reads as written. -/
theorem Mem.read_write (m : Mem) (a : Nat) (bs : List Byte) (h : m.wf = true) : (m.write a bs).read a bs.length = bs := by
  apply List.ext_getElem (by simp)
  intro j h1 h2
  have e := Mem.read_getD (m.write a bs) a bs.length j (m.write_wf a bs h) h2
  rw [Mem.get_write, if_pos ⟨by omega, by omega⟩] at e
  have l : ∀ (xs : List Byte) (hx : j < xs.length), xs.getD j 0 = xs[j] := fun xs hx => by simp [List.getD, hx]
  rw [l _ h1] at e
  rw [e, show a + j - a = j by omega, l _ h2]

/-! ## The canonical form of the memories (the four of `State`) -/

theorem State.spadWrite_wf (s : State) (k a : Nat) (bs : List Byte) (h : Mem.wf s.spad = true) : Mem.wf (s.spadWrite k a bs).spad = true :=
  Mem.write_wf _ _ _ h

theorem State.objWrite_wf (s : State) (i off : Nat) (bs : List Byte) (h : Mem.wf s.objMem = true) : Mem.wf (s.objWrite i off bs).objMem = true :=
  Mem.write_wf _ _ _ h

theorem State.objZero_wf (s : State) (i : Nat) (h : Mem.wf s.objMem = true) : Mem.wf (s.objZero i).objMem = true := Mem.clear_wf _ _ _ h

end Sys2Proof.Machine
end

