-- ==== Sys2Proof/Laws/Ledger.lean ====
section
/-! SUPPORT. What recording an event changes (R429 to R436): the ledger, the vectors, and with an alarm ARC.OVOR's hold, ALERT_N and the stops. -/

namespace Sys2Proof.Machine

/-- `t` is `s` but for what recording events changes. -/
def State.Logged (s t : State) : Prop :=
  t = { s with
    ldg := t.ldg
    hif := { s.hif with pending := t.hif.pending, sent := t.hif.sent }
    arc := { s.arc with hold := t.arc.hold }
    gge := { s.gge with alert := t.gge.alert }
    pln := { s.pln with stopped := t.pln.stopped, noJob := t.pln.noJob } }

theorem State.Logged.refl (s : State) : s.Logged s := rfl

theorem State.Logged.trans {s t u : State} (h : s.Logged t) (k : t.Logged u) : s.Logged u := by
  unfold State.Logged at h k ⊢
  rw [k, h]

theorem State.Logged.ldg (s : State) (l : Ldg) : s.Logged { s with ldg := l } := rfl

theorem State.signalVector_logged (s : State) (v : Nat) : s.Logged (s.signalVector v) := by
  unfold State.signalVector; dsimp only; repeat' split
  all_goals rfl

theorem State.stageIn_logged (s : State) (e : Ev) (p : Pool) : s.Logged (s.stageIn e p) := rfl

theorem State.stageLimited_logged (s : State) (e : Ev) (b : Bool) : s.Logged (s.stageLimited e b) := by
  unfold State.stageLimited; dsimp only; repeat' split
  all_goals rfl

theorem State.consequence_logged (s : State) (e : Ev) : s.Logged (s.consequence e) := by
  unfold State.consequence; dsimp only; repeat' split
  · rfl
  · exact s.signalVector_logged _
  · rfl
  all_goals exact (s.signalVector_logged 0).trans rfl

theorem State.stageDrop_logged (s : State) : s.Logged s.stageDrop := by
  unfold State.stageDrop; dsimp only; repeat' split
  · rfl
  all_goals first
    | exact ((s.stageIn_logged ..).trans (State.Logged.ldg ..)).trans (State.consequence_logged ..)
    | rfl

theorem State.flush_logged (s : State) : s.Logged s.flush := s.stageDrop_logged.trans (.ldg ..)

theorem State.stageKept_logged (s : State) (e : Ev) : s.Logged (s.stageKept e) := by
  unfold State.stageKept; dsimp only; split
  · exact .ldg ..
  · generalize (if isStepCode e.code = true then Pool.stepRec else Pool.alarm) = p
    split
    · exact (s.stageIn_logged ..).trans (State.flush_logged _)
    · split
      · exact (s.stageIn_logged ..).trans (State.flush_logged _)
      · split
        · exact ((State.Logged.ldg s _).trans (State.stageIn_logged ..)).trans (State.flush_logged _)
        · exact .ldg ..

/-- An event that does not go to the trace buffer. -/
theorem State.post_logged (s : State) (e : Ev) (h : isTraceCode e.code = false) : s.Logged (s.post e) := by
  unfold State.post; rw [h, if_neg (by simp)]; repeat' split
  · exact (s.stageKept_logged e).trans (State.consequence_logged ..)
  · exact ((State.Logged.ldg s _).trans (State.stageLimited_logged ..)).trans (State.consequence_logged ..)
  · exact (s.stageLimited_logged ..).trans (State.consequence_logged ..)

theorem State.ev_logged (s : State) (src code key w44 : Nat) (rest : List Byte) (inj : Bool) (h : isTraceCode code = false) :
    s.Logged (s.ev src code key w44 rest inj) := State.post_logged _ _ h

theorem State.injCheck_logged (s : State) (code src : Nat) (ok : Nat → Bool) : s.Logged (s.injCheck code src ok).2 := by
  unfold State.injCheck; split <;> rfl

section
variable {s t : State} (h : s.Logged t)
include h

theorem State.Logged.ctxs : t.ctxs = s.ctxs := by rw [h]
theorem State.Logged.cores : t.cores = s.cores := by rw [h]
theorem State.Logged.slots : t.slots = s.slots := by rw [h]
theorem State.Logged.objs : t.objs = s.objs := by rw [h]
theorem State.Logged.objMem : t.objMem = s.objMem := by rw [h]
theorem State.Logged.spad : t.spad = s.spad := by rw [h]
theorem State.Logged.acc : t.acc = s.acc := by rw [h]
theorem State.Logged.ops : t.ops = s.ops := by rw [h]
theorem State.Logged.nsb : t.nsb = s.nsb := by rw [h]
theorem State.Logged.kst : t.kst = s.kst := by rw [h]
theorem State.Logged.hod : t.hod = s.hod := by rw [h]
theorem State.Logged.prs : t.prs = s.prs := by rw [h]
theorem State.Logged.msn : t.msn = s.msn := by rw [h]
theorem State.Logged.sealBlk : t.sealBlk = s.sealBlk := by rw [h]
theorem State.Logged.ftgStacks : t.ftgStacks = s.ftgStacks := by rw [h]
theorem State.Logged.pending : t.pending = s.pending := by rw [h]
theorem State.Logged.ctx (x : Nat) : t.ctx x = s.ctx x := by rw [h]; rfl
theorem State.Logged.slot (p : Nat) : t.slot p = s.slot p := by rw [h]; rfl

end

end Sys2Proof.Machine
end

