-- ==== Sys2Proof/Laws/Sched.lean ====
section
/-! SUPPORT. What selection and replacement of contexts change (R91, R92), and what an instruction's issue does when no check stops it (R117). -/

namespace Sys2Proof.Machine

theorem State.Reselected.refl (s : State) : s.Reselected s := ⟨rfl, fun _ => rfl⟩

theorem State.Reselected.trans {s t u : State} (h : s.Reselected t) (k : t.Reselected u) : s.Reselected u := by
  refine ⟨?_, fun y => ?_⟩
  · rw [k.1, h.1]
  · rw [k.2 y, h.2 y]

/-- A change of one context's scheduling fields. -/
theorem State.Reselected.setCtx (s : State) (x : Nat) (c : Ctx)
    (h : c = { s.ctx x with st := c.st, wait := c.wait, issued := c.issued }) : s.Reselected (s.setCtx x c) := by
  refine ⟨rfl, fun y => ?_⟩
  by_cases hy : y = x
  · subst hy; rw [State.setCtx_ctx]; exact h
  · rw [State.setCtx_ctx_ne s x c y hy]

theorem State.Reselected.setCore (s : State) (k : Nat) (c : Core) : s.Reselected (s.setCore k c) := ⟨rfl, fun _ => rfl⟩

/-- Selection changes only which context runs. -/
theorem State.select_reselected (s : State) (k : Nat) : s.Reselected (s.select k) := by
  unfold State.select
  split
  · exact .refl s
  · split
    · exact .refl s
    · split
      · exact .setCore ..
      · rename_i x _
        dsimp only
        split
        · refine (State.Reselected.setCore s k _).trans (State.Reselected.setCtx _ x _ ?_)
          rfl
        · exact .setCore ..

/-- A context put out of RUNNING: the rest is selection. -/
theorem State.leave_reselected (s : State) (x : Nat) (c : Ctx) : (s.setCtx x c).Reselected (s.leave x c) := State.select_reselected ..

theorem State.wait_reselected (s : State) (x : Nat) (w : Wait) : s.Reselected (s.wait x w) :=
  (State.Reselected.setCtx s x _ rfl).trans (State.leave_reselected ..)

/-- What follows an instruction (R91) changes only which context runs. -/
theorem State.afterIssue_reselected (s : State) (x : Nat) : s.Reselected (s.afterIssue x) := by
  have h : s.Reselected ((s.setCtx x { s.ctx x with issued := (s.ctx x).issued + 1 }).setCore (coreOf x)
      { s.core (coreOf x) with last := some x, fetched := (s.core (coreOf x)).fetched + 1 }) :=
    (State.Reselected.setCtx s x _ rfl).trans (State.Reselected.setCore ..)
  unfold State.afterIssue
  dsimp only
  split
  · split
    · exact h.trans ((State.Reselected.setCtx _ x _ rfl).trans (State.select_reselected ..))
    · exact h
  · exact h

/-- An instruction that is done: its context's program counter moves on, and contexts are selected. -/
theorem State.advance_reselected (s : State) (x : Nat) : (s.past x (s.ctx x)).Reselected (s.advance x) := State.afterIssue_reselected ..

/-- An instruction that leaves its context as `c`, done. -/
theorem State.setCtx_advance_reselected (s : State) (x : Nat) (c : Ctx) : (s.past x c).Reselected ((s.setCtx x c).advance x) := by
  have h := State.advance_reselected (s.setCtx x c) x
  rw [State.setCtx_ctx] at h
  unfold State.past at h ⊢
  rwa [State.setCtx_setCtx] at h

/-! ## Issue -/

/-- An instruction that no check stops has its effect. -/
theorem State.issue_runs {s : State} {x : Fin 512} {i : Ins} (h : s.Issues x i) (skip run : State → State) :
    s.issue x i true skip run = run s := by
  have e : s.issues x = true := by simp [State.issues, h.running, h.core]
  have p : (i.psel = 8#4) = False := by simpa using h.psel
  simp [State.issue, State.judge, e, h.noFault, h.held, h.waits, h.fetch, h.text, h.verifies, h.point, h.defined, h.reserved, p, h.predicate]

/-- An instruction whose predicate is false has the effect R121 leaves it. -/
theorem State.issue_skips {s : State} {x : Fin 512} {i : Ins} (h : s.Skips x i) (skip run : State → State) :
    s.issue x i true skip run = skip s := by
  have e : s.issues x = true := by simp [State.issues, h.running, h.core]
  have p : (i.psel = 8#4) = False := by simpa using h.psel
  simp [State.issue, State.judge, e, h.noFault, h.held, h.waits, h.fetch, h.text, h.verifies, h.point, h.defined, h.reserved, p, h.predicate]

/-- A word that checks 4 or 5 reject raises ILLEGAL_ENCODING whatever its predicate. -/
theorem State.issue_illegal {s : State} {x : Fin 512} {i : Ins} (h : s.Admits x i) (skip run : State → State) :
    s.issue x i false skip run = s.faultIssue x evIllegalEncoding := by
  have e : s.issues x = true := by simp [State.issues, h.running, h.core]
  simp [State.issue, State.judge, e, h.noFault, h.held, h.waits, h.fetch, h.text, h.verifies, h.point]

/-- A short instruction: its effect, then the next one. -/
theorem State.issueShort_runs {s : State} {x : Fin 512} {i : Ins} (h : s.Issues x i) (f : State → State) :
    s.issueShort x i true f = (f s).advance x := State.issue_runs h ..

/-- A short instruction whose effect is on its own context. -/
theorem State.gives_short {x : Fin 512} {i : Ins} {s : State} (h : s.Issues x i) {w : Bool} (hw : w = true) {c : Instr} {f : State → State}
    (hc : exec c s = .next (s.issueShort x i w f)) {d : Ctx} (hf : f s = s.setCtx x d) : s.Gives c (s.past x d) := by
  subst hw
  refine ⟨_, hc, ?_⟩
  rw [State.issueShort_runs h, hf]
  exact State.setCtx_advance_reselected ..

/-- Check 7 with no fault. -/
theorem State.checked_none {s : State} {x : Fin 512} (h : s.injArmed evBoundsFault (srcOf 0x01 x) = false) (go : State → State) :
    s.checked x [] go = go s := by simp [State.checked, h]

/-- A long operation with room enters its queue. -/
theorem State.enqueue_room {s : State} {x : Fin 512} {o : Op} (h : s.Room x o.unit) :
    s.enqueue x o = (s.entered x o).advance x := by
  unfold State.enqueue
  rw [if_neg (by have := h.1; omega), if_neg (by have := h.2; omega)]
  rfl

/-- A long operation that no check stops and that has room enters its queue. -/
theorem State.issueLong_runs {s : State} {x : Fin 512} {i : Ins} (h : s.Issues x i) (hw : i.sigOk (coreOf x) = true) (op : State → List Nat × Op)
    (hf : (op s).1 = []) (hr : s.Room x (op s).2.unit) :
    s.issueLong x i true op = (s.entered x { (op s).2 with sig := i.sig, ins := i }).advance x := by
  unfold State.issueLong
  rw [Bool.true_and, hw, State.issue_runs h, hf, State.checked_none h.bounds, State.enqueue_room]
  exact hr

end Sys2Proof.Machine
end

