-- ==== Sys2Proof/Laws/Messages.lean ====
section
/-! SUPPORT. What sending a message changes (R288, R296, R298), and what a wait's end changes. -/

namespace Sys2Proof.Machine

/-- `t` is `s` but for what sending changes: the outbox, which grows, the pairs, the ports, a free value, and the running collectives. -/
structure State.Sent (s t : State) : Prop where
  frame : t = { s with free := t.free, ports := t.ports, pairs := t.pairs, arc := { s.arc with outbox := t.arc.outbox, colls := t.arc.colls } }
  grows : ∀ m ∈ s.arc.outbox, m ∈ t.arc.outbox

namespace State.Sent

theorem refl (s : State) : s.Sent s := ⟨rfl, fun _ h => h⟩

theorem trans {s t u : State} (h : s.Sent t) (k : t.Sent u) : s.Sent u := by
  refine ⟨?_, fun m hm => k.grows m (h.grows m hm)⟩
  have a := h.frame
  have b := k.frame
  rw [b, a]

variable {s u : State} (h : s.Sent u)
include h

theorem setPair (p : Nat) (q : Pair) : s.Sent (u.setPair p q) := h.trans ⟨rfl, fun _ h => h⟩
theorem setPort (p : Nat) (q : Port) : s.Sent (u.setPort p q) := h.trans ⟨rfl, fun _ h => h⟩
theorem fresh : s.Sent u.fresh.2 := h.trans ⟨rfl, fun _ h => h⟩
theorem setColl (c : Nat) (q : Coll) : s.Sent (u.setColl c q) := h.trans ⟨rfl, fun _ h => h⟩

theorem putFlits (k n : Nat) : s.Sent (u.putFlits k n) := by
  unfold State.putFlits; dsimp only; split
  · exact (h.fresh.setPort ..).setPort ..
  · split
    · exact h.setPort ..
    · exact h.setPort ..

theorem pump (k : Nat) : s.Sent (u.pump k) := by
  unfold State.pump; dsimp only
  generalize (if ((u.port (2 * k)).inUse || (u.port (2 * k + 1)).inUse) = true then min (u.pair k).backlog (2048 - ((u.pair k).next - (u.pair k).acked).toNat)
    else 0) = n
  split
  · exact h
  · exact (h.setPair ..).putFlits ..

theorem countTx (c : Nat) (f : Bool) (n : Nat) : s.Sent (u.countTx c f n) := (h.setPair ..).pump _

theorem link (m : Msg) (c : Nat) (f : Bool) : s.Sent (u.link m c f) :=
  (h.countTx c f _).trans ⟨rfl, fun _ hm => List.mem_append_left _ hm⟩

theorem sendMsg (m : Msg) : s.Sent (u.sendMsg m) := by
  unfold State.sendMsg; split
  · exact h.link ..
  · exact h

theorem complete (m : Msg) (b : Bool) : s.Sent (u.complete m b) := h.sendMsg _

theorem sendHalf (o : Op) (kind chunk hop : Nat) (f : Bool) (data : List Byte) : s.Sent (u.sendHalf o kind chunk hop f data) := by
  unfold State.sendHalf; dsimp only
  refine State.Sent.link ?_ ..
  split
  · exact h.setColl ..
  · exact h

theorem gather (c j : Nat) (f : Bool) : s.Sent (u.gather c j f) := by
  unfold State.gather; split
  · exact h.setColl ..
  · exact h

theorem sendOr (i : Nat) : s.Sent (u.sendOr i) := by
  unfold State.sendOr; split
  · exact h
  · exact (h.link ..).link ..

theorem orAdvance (a b : Nat) : s.Sent (u.orAdvance a b) := by
  unfold State.orAdvance
  generalize List.range (b - a) = l
  induction l generalizing u with
  | nil => exact h
  | cons j l ih => exact ih (h.sendOr _)

theorem objMem : u.objMem = s.objMem := by rw [h.frame]
theorem objs : u.objs = s.objs := by rw [h.frame]
theorem ops : u.ops = s.ops := by rw [h.frame]
theorem nsb : u.nsb = s.nsb := by rw [h.frame]
theorem kst : u.kst = s.kst := by rw [h.frame]
theorem ctxs : u.ctxs = s.ctxs := by rw [h.frame]
theorem orGot : u.arc.orGot = s.arc.orGot := by rw [h.frame]
theorem posted : u.arc.posted = s.arc.posted := by rw [h.frame]

end State.Sent

/-- What a link takes goes out with its course and direction. -/
theorem State.link_mem (s : State) (m : Msg) (c : Nat) (f : Bool) :
    { m with course := Fin.ofNat 4 c, following := f, bufClass := m.bufClass || s.arc.crosses c f } ∈ (s.link m c f).arc.outbox := by
  unfold State.link
  exact List.mem_append_right _ (List.mem_singleton.2 rfl)

/-- A context released without moving on keeps its registers, its program counter among them. -/
theorem State.wake_reselected (s : State) (x : Nat) : s.Reselected (s.wake x 0) := by
  unfold State.wake; dsimp only; split
  · exact (State.Reselected.setCtx s x _ (by simp)).trans (State.leave_reselected s x _)
  · exact State.Reselected.setCtx s x _ (by simp)

/-- The contexts that wait on a limit are released so. -/
theorem State.wakeOn_reselected (s : State) (w : Wait) : s.Reselected (s.wakeOn w) := by
  unfold State.wakeOn
  generalize s.ctxKeys = l
  suffices h : ∀ u, s.Reselected u → s.Reselected (l.foldl (fun s x => if (s.ctx x).st = .waiting && (s.ctx x).wait = w then s.wake x 0 else s) u) from
    h s (.refl s)
  induction l with
  | nil => exact fun u h => h
  | cons x l ih =>
    intro u h
    rw [List.foldl_cons]
    apply ih
    split
    · exact h.trans (u.wake_reselected x)
    · exact h

end Sys2Proof.Machine
end

