-- ==== Sys2Proof/Laws/Settle.lean ====
section
/-! SUPPORT. What the evaluation of requests can change (R270, R271, R273): every operation of the hod that settlement is made of, said once. -/

namespace Sys2Proof.Machine

/-- `t` is `s` but for what the evaluation of requests changes; it keeps the memories canonical, the numbers of operations below the next one, which
does not fall, and an unarmed injection point unarmed. -/
structure State.Settles (s t : State) : Prop where
  frame : t = { s with
    free := t.free, ctxs := t.ctxs, cores := t.cores, slots := t.slots, spad := t.spad, ops := t.ops, nextOp := t.nextOp, arrivals := t.arrivals, hod := t.hod, objs := t.objs
    objMem := t.objMem, bad := t.bad, phys := t.phys, hostMem := t.hostMem, mtr := t.mtr, ftgStacks := t.ftgStacks, ftg := t.ftg, ucf := t.ucf
    ports := t.ports, pairs := t.pairs, qry := t.qry, hif := t.hif, ldg := t.ldg
    arc := { s.arc with outbox := t.arc.outbox, colls := t.arc.colls, posted := t.arc.posted, hold := t.arc.hold }
    msn := { s.msn with busy := t.msn.busy }
    gge := { s.gge with alert := t.gge.alert }
    pln := { s.pln with stopped := t.pln.stopped, noJob := t.pln.noJob } }
  memory : s.MemoryWf → t.MemoryWf
  numbered : s.Numbered → t.Numbered
  grows : s.nextOp ≤ t.nextOp
  unarmed : s.Unarmed → t.Unarmed

namespace State.Settles

theorem refl (s : State) : s.Settles s := ⟨rfl, id, id, Nat.le_refl _, id⟩

theorem trans {s t u : State} (h : s.Settles t) (k : t.Settles u) : s.Settles u := by
  refine ⟨?_, k.memory ∘ h.memory, k.numbered ∘ h.numbered, Nat.le_trans h.grows k.grows, k.unarmed ∘ h.unarmed⟩
  have a := h.frame
  have b := k.frame
  rw [b, a]

variable {s u : State} (h : s.Settles u)
include h

/-- An update of fields that hold no memory, no operation and no ledger. -/
theorem upd {t : State} (e : t = { u with
    free := t.free, ctxs := t.ctxs, cores := t.cores, slots := t.slots, arrivals := t.arrivals, hod := t.hod, objs := t.objs, bad := t.bad
    mtr := t.mtr, ftgStacks := t.ftgStacks, ftg := t.ftg, ucf := t.ucf, ports := t.ports, pairs := t.pairs, qry := t.qry, hif := t.hif
    arc := { u.arc with outbox := t.arc.outbox, colls := t.arc.colls, posted := t.arc.posted, hold := t.arc.hold }
    msn := { u.msn with busy := t.msn.busy }
    gge := { u.gge with alert := t.gge.alert }
    pln := { u.pln with stopped := t.pln.stopped, noJob := t.pln.noJob } }) : s.Settles t := by
  refine h.trans ⟨?_, ?_, ?_, ?_, ?_⟩
  · rw [e]
  · rw [e]; exact id
  · rw [e]; exact id
  · rw [e]
  · rw [e]; exact id

theorem ldg {l : Ldg} (e : u.Unarmed → l.injCtl.getLsbD 40 = false) : s.Settles { u with ldg := l } := h.trans ⟨rfl, id, id, Nat.le_refl _, e⟩

theorem spad {m : Mem} (e : Mem.wf u.spad = true → Mem.wf m = true) : s.Settles { u with spad := m } :=
  h.trans ⟨rfl, fun w => ⟨e w.1, w.2⟩, id, Nat.le_refl _, id⟩

theorem objMem {m : Mem} (e : Mem.wf u.objMem = true → Mem.wf m = true) : s.Settles { u with objMem := m } :=
  h.trans ⟨rfl, fun w => ⟨w.1, e w.2.1, w.2.2⟩, id, Nat.le_refl _, id⟩

theorem phys {m : Mem} (e : Mem.wf u.phys = true → Mem.wf m = true) : s.Settles { u with phys := m } :=
  h.trans ⟨rfl, fun w => ⟨w.1, w.2.1, e w.2.2.1, w.2.2.2⟩, id, Nat.le_refl _, id⟩

theorem hostMem {m : Mem} (e : Mem.wf u.hostMem = true → Mem.wf m = true) : s.Settles { u with hostMem := m } :=
  h.trans ⟨rfl, fun w => ⟨w.1, w.2.1, w.2.2.1, e w.2.2.2⟩, id, Nat.le_refl _, id⟩

/-- Operations that are among those there were, by number. -/
theorem ops {l : List Op} (e : ∀ q ∈ l, ∃ o ∈ u.ops, o.id = q.id) : s.Settles { u with ops := l } := by
  refine h.trans ⟨rfl, id, fun n q hq => ?_, Nat.le_refl _, id⟩
  obtain ⟨o, ho, hi⟩ := e q hq
  have := n o ho
  simp only at this ⊢
  omega

theorem setOp (o : Op) : s.Settles (u.setOp o) := by
  refine h.ops (fun q hq => ?_)
  obtain ⟨p, hp, rfl⟩ := List.mem_map.1 hq
  refine ⟨p, hp, ?_⟩
  split <;> simp_all

theorem dropOp (i : Nat) : s.Settles (u.dropOp i) := h.ops (fun q hq => ⟨q, (List.mem_filter.1 hq).1, rfl⟩)

theorem setCtx (x : Nat) (c : Ctx) : s.Settles (u.setCtx x c) := h.upd rfl
theorem setCore (x : Nat) (c : Core) : s.Settles (u.setCore x c) := h.upd rfl
theorem setSlot (x : Nat) (c : Slot) : s.Settles (u.setSlot x c) := h.upd rfl
theorem setObj (x : Nat) (c : Obj) : s.Settles (u.setObj x c) := h.upd rfl
theorem setRing (x : Nat) (c : Ring) : s.Settles (u.setRing x c) := h.upd rfl
theorem setPort (x : Nat) (c : Port) : s.Settles (u.setPort x c) := h.upd rfl
theorem setPair (x : Nat) (c : Pair) : s.Settles (u.setPair x c) := h.upd rfl
theorem hod (c : Hod) : s.Settles { u with hod := c } := h.upd rfl
theorem hif (c : Hif) : s.Settles { u with hif := c } := h.upd rfl

theorem bad (c : Tab Nat) : s.Settles { u with bad := c } := h.upd rfl

theorem fresh : s.Settles u.fresh.2 := h.upd rfl

theorem spadWrite (k a : Nat) (b : List Byte) : s.Settles (u.spadWrite k a b) := h.spad (Mem.write_wf _ _ _)

theorem objWrite (i off : Nat) (b : List Byte) : s.Settles (u.objWrite i off b) := (h.objMem (Mem.write_wf _ (objKey i off) b)).upd rfl

theorem objZero (i : Nat) : s.Settles (u.objZero i) := (h.objMem (Mem.clear_wf _ (objKey i 0) (2 ^ 40))).upd rfl

/-- A fold of operations each of which settles. -/
theorem foldl {α : Type} (f : State → α → State) (l : List α) (e : ∀ (v : State) (a : α), s.Settles v → s.Settles (f v a)) : s.Settles (l.foldl f u) := by
  induction l generalizing u with
  | nil => exact h
  | cons a l ih => exact ih (e u a h)

end State.Settles

/-! ## Events -/

theorem Ldg.fullUnit_injCtl (l : Ldg) : l.fullUnit.injCtl = l.injCtl := by unfold Ldg.fullUnit; dsimp only; split <;> rfl

theorem Ldg.repeatLast_injCtl (l : Ldg) (p : Staged → Bool) : (l.repeatLast p).injCtl = l.injCtl := by unfold Ldg.repeatLast; split <;> rfl

theorem Ldg.mergeAlarm_injCtl (l : Ldg) (e : Ev) : (l.mergeAlarm e).injCtl = l.injCtl := by
  unfold Ldg.mergeAlarm; dsimp only; repeat' split
  all_goals exact l.repeatLast_injCtl _

namespace State.Settles

variable {s u : State} (h : s.Settles u)
include h

theorem stageIn (e : Ev) (p : Pool) : s.Settles (u.stageIn e p) := h.ldg (fun k => by rw [Ldg.fullUnit_injCtl]; exact k)

theorem stageLimited (e : Ev) (b : Bool) : s.Settles (u.stageLimited e b) := by
  unfold State.stageLimited; dsimp only; repeat' split
  · exact h.ldg id
  · exact h.ldg id
  · exact (h.stageIn _ _).ldg (fun k => k)
  · exact h.ldg id

theorem signalVector (v : Nat) : s.Settles (u.signalVector v) := by
  unfold State.signalVector; repeat' split
  all_goals first | exact h | exact h.hif _

theorem consequence (e : Ev) : s.Settles (u.consequence e) := by
  unfold State.consequence; dsimp only; repeat' split
  · exact h
  · exact h.signalVector _
  · exact h
  all_goals exact (h.signalVector 0).upd rfl

theorem stageDrop : s.Settles u.stageDrop := by
  unfold State.stageDrop; dsimp only; repeat' split
  · exact h
  all_goals first
    | exact h
    | refine State.Settles.consequence ?_ _
      exact (h.stageIn _ _).ldg (fun k => k)

theorem flush : s.Settles u.flush := h.stageDrop.ldg id

theorem stageKept (e : Ev) : s.Settles (u.stageKept e) := by
  unfold State.stageKept; dsimp only; split
  · exact h.ldg id
  · generalize (if isStepCode e.code = true then Pool.stepRec else Pool.alarm) = p
    split
    · exact (h.stageIn _ _).flush
    · split
      · exact (h.stageIn _ _).flush
      · split
        · refine State.Settles.flush (State.Settles.stageIn ?_ _ _)
          exact h.ldg id
        · exact h.ldg (fun k => by rw [Ldg.mergeAlarm_injCtl]; exact k)


theorem traceDrain (n : Nat) : s.Settles (State.traceDrain n u) := by
  induction n generalizing u with
  | zero => exact h
  | succ n ih =>
    unfold State.traceDrain; repeat' split
    · exact h
    · exact ih (State.Settles.ldg (State.Settles.objWrite (h.ldg id) _ _ _) id)
    · exact h

theorem trace (e : Ev) : s.Settles (u.trace e) := by
  unfold State.trace; dsimp only; split
  · refine State.Settles.traceDrain ?_ 64
    exact h.ldg id
  · exact h.ldg id

theorem injReport : s.Settles u.injReport := by
  refine h.ldg (fun k => ?_)
  split
  · simp [setBit]
  · exact k

theorem injCheck (code src : Nat) (ok : Nat → Bool) : s.Settles (u.injCheck code src ok).2 := by
  unfold State.injCheck; split
  · exact h.injReport
  · exact h

theorem post (e : Ev) : s.Settles (u.post e) := by
  unfold State.post; repeat' split
  · exact h.trace e
  · exact (h.stageKept e).consequence e
  · exact (h.injReport.stageLimited ..).consequence e
  · exact (h.stageLimited ..).consequence e

theorem ev (src code key w44 : Nat) (rest : List Byte) (inj : Bool) : s.Settles (u.ev src code key w44 rest inj) := h.post _

/-! ## Rings and contexts -/

theorem postFront (r n : Nat) : s.Settles (u.postFront r n) := by
  induction n generalizing u with
  | zero => exact h
  | succ n ih =>
    unfold State.postFront; split
    · split
      · dsimp only
        generalize (if (u.ring r).posted / u.ringSize r % 2 = 0 then 1 else 0) = ph
        split
        · exact ih (((h.hostMem (Mem.write_wf _ _ _)).setRing _ _).signalVector _)
        · exact ih ((h.hostMem (Mem.write_wf _ _ _)).setRing _ _)
      · exact h
    · exact h

theorem answer (r c status result : Nat) : s.Settles (u.answer r c status result) := by
  unfold State.answer; split
  · exact h
  · exact (h.setRing _ _).postFront _ _

theorem select (k : Nat) : s.Settles (u.select k) := by
  unfold State.select; dsimp only; repeat' split
  all_goals first | exact h | exact h.setCore .. | exact (h.setCore ..).setCtx ..

theorem leave (x : Nat) (c : Ctx) : s.Settles (u.leave x c) := (h.setCtx ..).select _

theorem wait (x : Nat) (w : Wait) : s.Settles (u.wait x w) := h.leave ..

theorem wake (x adv : Nat) : s.Settles (u.wake x adv) := by
  unfold State.wake; dsimp only; split
  · exact h.leave ..
  · exact h.setCtx ..

theorem endStart (x status result : Nat) : s.Settles (u.endStart x status result) := by
  unfold State.endStart; split
  · exact (h.hif _).answer ..
  · exact h

theorem modSlot (k : Nat) (f : Slot → Slot) : s.Settles (u.modSlot k f) := by
  unfold State.modSlot; split
  · exact h.setSlot ..
  · exact h

theorem showFault (x code off : Nat) : s.Settles (u.showFault x code off) := h.modSlot ..

theorem faultCtx (x code off : Nat) (rec inj : Bool) : s.Settles (u.faultCtx x code off rec inj) := by
  unfold State.faultCtx; dsimp only; split
  · exact ((((h.setCtx ..).showFault ..).ev ..).endStart ..).select _
  · exact (((h.setCtx ..).showFault ..).endStart ..).select _

theorem endCtx (x : Nat) : s.Settles (u.endCtx x) := ((h.setCtx ..).endStart ..).select _

theorem preemptDone : s.Settles u.preemptDone := by
  unfold State.preemptDone; repeat' split
  · exact State.Settles.answer (h.upd rfl) ..
  · exact h
  · exact h

theorem endHeld (x : Nat) : s.Settles (u.endHeld x) := by
  unfold State.endHeld; split
  · exact h.faultCtx ..
  · exact h.endCtx _

theorem ctxGone (x : Nat) : s.Settles (u.ctxGone x) := by
  unfold State.ctxGone; dsimp only; repeat' split
  all_goals first | exact h | exact h.endHeld _ | exact h.setCtx .. | exact h.wake ..

theorem opGone (x : Nat) : s.Settles (u.opGone x) := (h.ctxGone x).preemptDone

theorem discardCtx (x : Nat) : s.Settles (u.discardCtx x) := (h.setCtx ..).select _

/-! ## Capacity (R273) and the ends of requests -/

theorem takeUnits (home n : Nat) : s.Settles (u.takeUnits home n) := by
  unfold State.takeUnits; repeat' split
  all_goals first | exact h | exact h.hod _

theorem giveUnits (home n pages : Nat) : s.Settles (u.giveUnits home n pages).1 := by
  unfold State.giveUnits; split
  · exact h
  · dsimp only; split <;> exact State.Settles.hod (h.hod _) _

theorem giveDest (o : Obj) : s.Settles (u.giveDest o).1 := by
  unfold State.giveDest; repeat' split
  all_goals first | exact h | exact h.giveUnits ..

theorem newPlace (i : Nat) : s.Settles (u.newPlace i) := h.fresh.setObj ..

theorem freeBytes (n : Nat) : s.Settles (u.freeBytes n).2 := h.upd rfl

theorem vacate (i : Nat) : s.Settles (u.vacate i).1 :=
  State.Settles.giveUnits (h.ops (fun q hq => ⟨q, (List.mem_filter.1 hq).1, rfl⟩)) ..

/-- A new request takes the next number. -/
theorem request (kind : LKind) (src : OpSrc) (i : Nat) (words : List Nat) : s.Settles (u.request kind src i words).1 := by
  refine h.trans ⟨rfl, id, fun n q hq => ?_, Nat.le_succ _, id⟩
  rcases List.mem_append.1 hq with hq | hq
  · exact Nat.lt_succ_of_lt (n q hq)
  · rw [List.mem_singleton.1 hq]; exact Nat.lt_succ_self _

theorem holdObj (o : Op) (i : Nat) : s.Settles (u.holdObj o i) := by
  unfold State.holdObj; repeat' split
  all_goals first | exact h | exact (h.setOp _).upd rfl

theorem holdCap (o : Op) (p : Nat) : s.Settles (u.holdCap o p) := by
  unfold State.holdCap; split
  · exact h.setOp _
  · exact (h.setOp _).upd rfl

theorem refusal (i : Nat) : s.Settles (u.refusal i) := State.Settles.ev (h.hod _) ..

theorem dropPage (i : Nat) : s.Settles (u.dropPage i).1 := (h.setObj ..).vacate _

theorem pick (c : List (Nat × Nat)) : s.Settles (u.pick c).2 := by
  unfold State.pick; split
  · exact h
  · exact h.fresh

theorem reclaim (home n lim k : Nat) : s.Settles (u.reclaim home n lim k).1 := by
  induction k generalizing u with
  | zero => exact h
  | succ k ih =>
    unfold State.reclaim; split
    · exact h
    · split
      · rename_i e; have := h.pick (u.dropCands home lim); rwa [e] at this
      · rename_i e; have := h.pick (u.dropCands home lim); rw [e] at this
        exact ih (this.dropPage _)

theorem evictFor (n k : Nat) : s.Settles (u.evictFor n k) := by
  induction k generalizing u with
  | zero => exact h
  | succ k ih =>
    unfold State.evictFor; split
    · exact h
    · split
      · rename_i e; have := h.pick u.evictCands; rwa [e] at this
      · rename_i e; have := h.pick u.evictCands; rw [e] at this
        exact ih ((this.takeUnits ..).setObj ..)

theorem obtain (home n lim : Nat) (append : Bool) : s.Settles (u.obtain home n lim append).2.1 := by
  have k := h.reclaim home n lim u.objs.length
  unfold State.obtain; split
  · exact h
  · split
    · exact h.takeUnits ..
    · split
      · exact h
      · dsimp only
        split
        · exact State.Settles.takeUnits k home n
        · split
          · exact k
          · exact State.Settles.evictFor k ..

end State.Settles

end Sys2Proof.Machine
end

