-- ==== Sys2Proof/Laws/Eval.lean ====
section
/-! SUPPORT. Requests of the hod and of the arch, their evaluation, and settlement as a whole (R225, R228, R254, R267 to R284, R302 to R304, R375). -/

namespace Sys2Proof.Machine

namespace State.Settles

variable {s u : State} (h : s.Settles u)
include h

/-- What sending changes is among it. -/
theorem sent {t : State} (k : u.Sent t) : s.Settles t := h.upd (by rw [k.frame])

theorem sendMsg (m : Msg) : s.Settles (u.sendMsg m) := h.sent ((State.Sent.refl u).sendMsg m)

theorem askPeer (node i n op : Nat) : s.Settles (u.askPeer node i n op) := h.sendMsg _

theorem givePeer (i node hh : Nat) : s.Settles (u.givePeer i node hh) := h.sendMsg _

theorem unpin (o : Op) : s.Settles (u.unpin o) := h.foldl _ _ (fun _ _ k => k.setObj ..)

theorem endRing (o : Op) (status result : Nat) : s.Settles (u.endRing o status result) := by
  unfold State.endRing; split
  · dsimp only; split
    · exact State.Settles.answer (State.Settles.upd ((h.unpin o).dropOp _) rfl) ..
    · exact State.Settles.answer ((h.unpin o).dropOp _) ..
  · exact h

theorem satisfied (o : Op) (result : Nat) : s.Settles (u.satisfied o result) := by
  unfold State.satisfied; split
  · exact h.setOp _
  · exact h.endRing ..

theorem refuse (o : Op) (i : Nat) : s.Settles (u.refuse o i) := by
  unfold State.refuse; dsimp only; split
  · exact (h.refusal _).setOp _
  · exact (h.refusal _).endRing ..

theorem clearUnits (i : Nat) : s.Settles (u.clearUnits i) := h.upd rfl

theorem asyncFault (o : Op) (code : Nat) (inj : Bool) (key w44 : Option Nat) : s.Settles (u.asyncFault o code inj key w44) := by
  unfold State.asyncFault; dsimp only; split
  · exact (((h.unpin o).dropOp _).clearUnits _).endRing ..
  · exact ((h.unpin o).dropOp _).clearUnits _
  · exact ((h.unpin o).dropOp _).clearUnits _
  · refine State.Settles.opGone (State.Settles.ev ?_ ..) _
    split
    · exact (((h.unpin o).dropOp _).clearUnits _).showFault ..
    · exact (((h.unpin o).dropOp _).clearUnits _).setCtx ..

theorem uncode (o : Op) : s.Settles (u.uncode o) := by
  unfold State.uncode; split
  · exact h.setObj ..
  · exact h

theorem exhausted (o : Op) (inj : Bool) : s.Settles (u.exhausted o inj) := by
  unfold State.exhausted; dsimp only; repeat' split
  · exact State.Settles.asyncFault (h.hod _) ..
  · exact State.Settles.asyncFault (h.hod _) ..
  · exact ((h.uncode o).refusal _).endRing ..
  all_goals exact h

theorem awaitCap (o : Op) (p : Nat) : s.Settles (u.awaitCap o p) := by
  unfold State.awaitCap; repeat' split
  all_goals first | exact h.exhausted .. | exact h.holdCap .. | exact h.injReport.exhausted ..

theorem startRecipe (i x : Nat) : s.Settles (u.startRecipe i x) := by
  unfold State.startRecipe; dsimp only; split
  · exact h
  · exact (h.setObj ..).leave ..

theorem startRecipes : s.Settles u.startRecipes := by
  refine h.foldl _ _ (fun v p k => ?_)
  split
  · exact (k.startRecipe ..).hod _
  · exact k

theorem beginRecompute (src : OpSrc) (i home : Nat) : s.Settles (u.beginRecompute src i home).2.1 := by
  have k := h.obtain home (u.obj i).size (u.obj i).prio true
  unfold State.beginRecompute; dsimp only
  split
  · exact State.Settles.startRecipes ((((k.objZero i).setObj ..).newPlace i).hod _)
  · exact k

theorem askRecompute (o : Op) (i home : Nat) : s.Settles (u.askRecompute o i home).1 := by
  have k := h.beginRecompute o.src i home
  unfold State.askRecompute; split
  · exact h.holdObj ..
  · dsimp only; split
    · exact k.holdObj ..
    · exact k.awaitCap ..

theorem noCopy (i : Nat) (inj : Bool) : s.Settles (u.noCopy i inj) := State.Settles.ev ((h.setObj ..).hod _) ..

theorem recoverIn (i src home : Nat) : s.Settles (u.recoverIn i src home) := by
  have k := (h.takeUnits home (u.obj i).size).setObj i { u.obj i with recover := some src, move := some { toHome := home } }
  unfold State.recoverIn; dsimp only; split
  · exact State.Settles.startRecipes ((k.objZero i).hod _)
  · split
    · exact k.askPeer ..
    · exact k

theorem usable (i skip : Nat) : s.Settles (u.usable i skip).2 := by
  unfold State.usable; split
  · exact h.fresh
  · exact h

/-- A request on the page-free counter that is no context's. -/
theorem awaitRecover (i : Nat) (words : List Nat) : s.Settles (match (u.request .recover .hod i words).1.findOp (u.request .recover .hod i words).2 with
    | some q => (u.request .recover .hod i words).1.holdCap q 3
    | none => (u.request .recover .hod i words).1) := by
  have k := h.request .recover .hod i words
  split
  · exact k.holdCap ..
  · exact k

theorem reclaimIf (b : Bool) (home n : Nat) : s.Settles (if b then u.reclaim home n 4 u.objs.length else (u, [])).1 := by
  split
  · exact h.reclaim ..
  · exact h

theorem recoverFrom (i skip : Nat) (wait : Bool) : s.Settles (u.recoverFrom i skip wait).1 := by
  unfold State.recoverFrom; dsimp only
  by_cases e : u.warned = true
  · rw [if_pos e]; exact h.request ..
  · rw [if_neg e]; split
    · exact h.injReport.noCopy ..
    · have k := h.usable i skip
      generalize u.usable i skip = r at k ⊢
      obtain ⟨r, v⟩ := r
      cases r with
      | none => exact k.noCopy ..
      | some src =>
        dsimp only at k ⊢
        split
        · exact k.recoverIn ..
        · have k' := k.reclaimIf (decide ((u.obj i).home = 0)) 0 (u.obj i).size
          simp only [decide_eq_true_eq] at k'
          generalize (if (u.obj i).home = 0 then v.reclaim 0 (u.obj i).size 4 v.objs.length else (v, [])) = a at k' ⊢
          split
          · exact k'.recoverIn ..
          · split
            · exact k'.recoverIn ..
            · have k'' := k'.reclaimIf (decide ((u.obj i).home = 1)) 0 (u.obj i).size
              simp only [decide_eq_true_eq] at k''
              generalize (if (u.obj i).home = 1 then a.1.reclaim 0 (u.obj i).size 4 a.1.objs.length else (a.1, [])) = b at k'' ⊢
              split
              · exact k''.recoverIn ..
              · have e := k''.evictFor (u.obj i).size b.1.objs.length
                split
                · exact e.awaitRecover i _
                · exact e.noCopy ..

theorem poison (i addr : Nat) (inj : Bool) : s.Settles (u.poison i addr inj).1 := by
  unfold State.poison; dsimp only; split
  · exact h
  · have k : s.Settles (match ((u.obj i).move.bind Move.op).bind u.findOp with | some q => u.holdObj q i | none => u) := by
      split
      · exact h.holdObj ..
      · exact h
    generalize u.recomputing i = b
    cases b <;> simp only [if_true, if_false, Bool.false_eq_true]
    · refine State.Settles.recoverFrom (State.Settles.ev (State.Settles.hod (State.Settles.setObj ?_ ..) _) ..) ..
      exact State.Settles.giveDest k ..
    · refine State.Settles.ev (State.Settles.hod (State.Settles.setObj ?_ ..) _) ..
      exact k

theorem csumMismatch (src i b : Nat) (inj : Bool) : s.Settles (u.csumMismatch src i b inj) := by
  unfold State.csumMismatch; split
  · exact h
  · exact h.ev ..

theorem verify (src : Nat) (rs : List ObjRef) : s.Settles (u.verify src rs).2.1 := by
  unfold State.verify; split
  · exact ((h.csumMismatch ..).csumMismatch ..).poison ..
  · split
    · dsimp only; split
      · exact State.Settles.poison (State.Settles.csumMismatch (State.Settles.injReport (h.injReport.csumMismatch ..)) ..) ..
      · exact h.injReport.csumMismatch ..
    · exact h

theorem recovered (i src : Nat) : s.Settles (u.recovered i src).1 := by
  have k : s.Settles (if (u.obj i).move.isSome then u.vacate i else (u, [])).1 := by
    split
    · exact h.vacate i
    · exact h
  unfold State.recovered; dsimp only
  generalize (if (u.obj i).move.isSome = true then u.vacate i else (u, [])) = r at k ⊢
  refine State.Settles.ev ?_ ..
  split
  · exact ((k.bad _).setObj ..).newPlace _
  · exact (k.bad _).setObj ..

theorem recomputeDone (i : Nat) : s.Settles (u.recomputeDone i).1 := by
  unfold State.recomputeDone; dsimp only; split
  · exact h
  · split
    · split
      · exact (h.recovered ..).startRecipes
      · exact (h.setObj ..).startRecipes
    · split
      · split
        · refine State.Settles.discardCtx (State.Settles.recoverFrom (State.Settles.setObj ?_ ..) ..) _
          exact h.giveDest ..
        · refine State.Settles.discardCtx (State.Settles.noCopy (State.Settles.ev ?_ ..) ..) _
          exact (h.setObj ..).hod _
      · exact h

/-! ## State against request (R270) -/

theorem beginMove (o : Op) (i home node : Nat) : s.Settles (u.beginMove o i home node).1 := by
  have k := h.obtain home (u.obj i).size 4 false
  unfold State.beginMove; dsimp only; split
  · exact h.holdObj ..
  · split
    · refine State.Settles.setObj (State.Settles.setOp ?_ _) ..
      split
      · exact k.askPeer ..
      · exact k
    · exact k.awaitCap ..

theorem pinFor (o : Op) (i : Nat) : s.Settles (u.pinFor o i).1 := by
  unfold State.pinFor; split
  · exact h
  · exact (h.setObj ..).setOp _

theorem evalPromote (o : Op) (i : Nat) : s.Settles (u.evalPromote o i).1 := by
  have k := h.pinFor o i
  unfold State.evalPromote; dsimp only; repeat' split
  all_goals first | exact k.satisfied .. | exact k.holdObj .. | exact k.beginMove .. | exact k.askRecompute ..

theorem evalDemote (o : Op) (i : Nat) : s.Settles (u.evalDemote o i).1 := by
  unfold State.evalDemote; dsimp only; repeat' split
  all_goals first | exact h.refuse .. | exact h.satisfied .. | exact h.holdObj .. | exact h.beginMove .. | exact (h.setObj ..).satisfied ..

theorem evalDrop (o : Op) (i : Nat) : s.Settles (u.evalDrop o i).1 := by
  unfold State.evalDrop; dsimp only; repeat' split
  all_goals first | exact (h.dropPage i).satisfied .. | exact h.satisfied .. | exact h.holdObj .. | exact h.refuse ..

theorem install (i : Nat) (o : Obj) : s.Settles (u.install i o) := ((h.objZero i).setObj ..).newPlace i

theorem appendLine (o : Op) (a b c : Nat) : s.Settles (u.appendLine o a b c) := h.spadWrite ..

theorem evalAppend (o : Op) (i : Nat) : s.Settles (u.evalAppend o i).1 := by
  have k := h.obtain (u.obj i).home (u.obj i).size (u.obj i).prio true
  unfold State.evalAppend; dsimp only; split
  all_goals first | exact h.holdObj .. | skip
  all_goals
    split
    · exact h.asyncFault ..
    · split
      · exact ((h.setObj ..).appendLine ..).satisfied ..
      · split
        · exact h.awaitCap ..
        · by_cases e : (u.obtain (u.obj i).home (u.obj i).size (u.obj i).prio true).1 = true
          · rw [if_pos e]
            exact State.Settles.satisfied (State.Settles.appendLine (State.Settles.setObj (State.Settles.install k.fresh ..) ..) ..) ..
          · rw [if_neg e]
            exact k.awaitCap ..

theorem evalTrim (o : Op) (i : Nat) : s.Settles (u.evalTrim o i).1 := by
  unfold State.evalTrim; dsimp only; repeat' split
  all_goals first | exact h.asyncFault .. | exact (h.setObj ..).satisfied .. | exact h.holdObj ..

theorem evalPin (o : Op) (i : Nat) : s.Settles (u.evalPin o i).1 := by
  have k := h.pinFor o i
  unfold State.evalPin; dsimp only; split
  all_goals first | exact k.satisfied .. | exact k.askRecompute .. | exact k.holdObj ..

theorem evalUnpin (o : Op) (i : Nat) : s.Settles (u.evalUnpin o i).1 := (h.setObj ..).satisfied ..

/-- What is held on an object that goes faults, but for the accesses of the host. -/
theorem faultHeld (l : List Nat) : s.Settles (l.foldl (fun s id => match s.findOp id with
    | some q => if q.src = .host then s else s.asyncFault q evBoundsFault
    | none => s) u) :=
  h.foldl _ _ (fun _ _ k => by
    split
    · split
      · exact k
      · exact k.asyncFault ..
    · exact k)

theorem freeObj (i : Nat) : s.Settles (u.freeObj i).1 := by
  have k : s.Settles (if (u.obj i).st = .dropped then (u, []) else u.vacate i).1 := by
    split
    · exact h
    · exact h.vacate _
  unfold State.freeObj; dsimp only
  generalize (if (u.obj i).st = .dropped then (u, []) else u.vacate i) = r at k ⊢
  have k0 := ((k.giveDest (u.obj i)).objZero i).setObj i { handle := (u.obj i).handle }
  have k' := k0.ops (l := ((((r.1.giveDest (u.obj i)).1.objZero i).setObj i { handle := (u.obj i).handle }).ops.map
      (fun (q : Op) => { q with pinned := q.pinned.filter (fun j => j != i) }))) (fun q hq => by
    obtain ⟨o, ho, rfl⟩ := List.mem_map.1 hq
    exact ⟨o, ho, rfl⟩)
  have f := k'.faultHeld (u.heldAt i)
  refine State.Settles.trans f ⟨rfl, id, ?_, Nat.le_refl _, id⟩
  exact fun n q hq => n q (List.mem_filter.1 hq).1

theorem evalDestroy (o : Op) (i : Nat) : s.Settles (u.evalDestroy o i).1 := by
  have k := (h.endRing o stOk 0).freeObj i
  unfold State.evalDestroy; split
  · exact h.refuse ..
  · split
    · exact h.holdObj ..
    · exact h.holdObj ..
    · split
      · exact h.holdObj ..
      · exact k

theorem evalCreate (o : Op) : s.Settles (u.evalCreate o).1 := by
  have k := h.obtain (fld (o.words.getD 2 0) 1 0) (o.words.getD 3 0) 4 false
  unfold State.evalCreate; split
  · exact h.refuse ..
  · dsimp only; split
    · exact (k.install ..).endRing ..
    · exact k.awaitCap ..

/-! ## Arch operations -/

theorem setColl (c : Nat) (q : Coll) : s.Settles (u.setColl c q) := h.upd rfl

theorem link (m : Msg) (c : Nat) (f : Bool) : s.Settles (u.link m c f) := h.sent ((State.Sent.refl u).link m c f)

theorem sendHalf (o : Op) (kind chunk hop : Nat) (f : Bool) (data : List Byte) : s.Settles (u.sendHalf o kind chunk hop f data) :=
  h.sent ((State.Sent.refl u).sendHalf o kind chunk hop f data)

theorem gather (c j : Nat) (f : Bool) : s.Settles (u.gather c j f) := h.sent ((State.Sent.refl u).gather c j f)

theorem writeCodes (t : Td) (i : Nat) (cs : List Nat) : s.Settles (u.writeCodes t i cs) := h.foldl _ _ (fun _ _ k => k.objWrite ..)

theorem writeHalf (o : Op) (j : Nat) (b : Bool) (data : List Byte) : s.Settles (u.writeHalf o j b data) := by
  unfold State.writeHalf; split
  · exact h.writeCodes ..
  · exact h.objWrite ..

theorem startColl (o : Op) : s.Settles (u.startColl o) := by
  unfold State.startColl; dsimp only; split
  · exact State.Settles.sendHalf (State.Settles.gather (State.Settles.writeHalf (State.Settles.sendHalf (State.Settles.gather (State.Settles.writeHalf
      (State.Settles.upd (h.setOp _) rfl) ..) ..) ..) ..) ..) ..
  · exact State.Settles.sendHalf (State.Settles.sendHalf (State.Settles.upd (h.setOp _) rfl) ..) ..

theorem launch (o : Op) : s.Settles (u.launch o) := by
  unfold State.launch; split
  · exact (h.setOp _).sendMsg _
  · exact (h.setOp _).link ..
  all_goals first | exact h.startColl _ | exact h.setOp _

theorem pinAll (o : Op) (f : ObjRef → Bool) (l : List ObjRef) :
    s.Settles (l.foldl (fun (p : State × Op) r => if f r then p.1.pinFor p.2 (hIdx r.h) else p) (u, o)).1 := by
  induction l generalizing u o with
  | nil => exact h
  | cons r l ih =>
    rw [List.foldl_cons]
    split
    · exact ih (h.pinFor o (hIdx r.h)) _
    · exact ih h o

theorem evalAccess (o : Op) : s.Settles (u.evalAccess o).1 := by
  unfold State.evalAccess; split
  · split
    · exact h.askRecompute ..
    · exact h.holdObj ..
  · dsimp only
    have k : s.Settles (if o.kind.arch then u.verify (srcOf 0x07 o.arcCourse) ((u.refs o).filter (fun r => !r.wr)) else (false, u, [])).2.1 := by
      split
      · exact h.verify ..
      · exact h
    generalize (if o.kind.arch = true then u.verify (srcOf 0x07 o.arcCourse) ((u.refs o).filter (fun r => !r.wr)) else (false, u, [])) = r at k ⊢
    obtain ⟨hit, v, w⟩ := r
    cases hit
    · exact State.Settles.launch (State.Settles.pinAll k o (fun r => o.kind.pins && !(o.kind.arch && r.wr)) _) _
    · exact State.Settles.holdObj k ..

theorem evalLeave (o : Op) : s.Settles (u.evalLeave o).1 := by
  unfold State.evalLeave; dsimp only; split
  · exact h.holdObj ..
  · generalize (if o.words.getD 2 0 < 2 ^ 20 then 0 else 1) = home
    have k := h.obtain home (2 ^ (u.obj (o.words.getD 0 0)).pg) 4 false
    generalize u.obtain home (2 ^ (u.obj (o.words.getD 0 0)).pg) 4 false = r at k ⊢
    split
    · split
      · exact k.giveUnits ..
      · exact k
    · split
      · exact k.holdObj ..
      · split
        · exact (k.setOp _).setObj ..
        · split
          · exact ((k.setOp _).takeUnits ..).setObj ..
          · exact k.holdCap ..

theorem evalRecover (o : Op) : s.Settles (u.evalRecover o).1 := by
  unfold State.evalRecover; dsimp only; split
  · exact (h.dropOp _).recoverFrom ..
  · exact h.dropOp _

/-! ## Detections (R100, R189, R249 to R256, R280) -/

theorem record (r : Repair) : s.Settles (u.record r) := h.upd rfl

theorem markFailed (p seq : Nat) (inj : Bool) : s.Settles (u.markFailed p seq inj) := by
  unfold State.markFailed; dsimp only; split
  · exact h.setSlot ..
  · exact (h.setSlot ..).record _

theorem spadDetect (k addr : Nat) (c inj : Bool) : s.Settles (u.spadDetect k addr c inj) := by
  unfold State.spadDetect; dsimp only; repeat' split
  all_goals first | exact h | exact (h.setSlot ..).ev .. | exact ((h.setSlot ..).ev ..).markFailed ..

theorem setStack (n : Nat) (k : Stack) : s.Settles (u.setStack n k) := h.upd rfl

theorem markLine (i blk line : Nat) : s.Settles (u.markLine i blk line) := h.bad _

theorem rowFails (r : RowId) (inj : Bool) : s.Settles (u.rowFails r inj) := by
  unfold State.rowFails; dsimp only; repeat' split
  all_goals first | exact h | exact h.setStack .. | exact h.ev .. | exact h.injReport.ev ..

theorem ftgCorr (r : RowId) (lane addr : Nat) (inj : Bool) : s.Settles (u.ftgCorr r lane addr inj) := by
  unfold State.ftgCorr; dsimp only
  generalize hv : ((u.setStack _ _).ev _ _ _ _ _ _) = v
  have k : s.Settles v := by rw [← hv]; exact (h.setStack ..).ev ..
  split
  · exact k.rowFails ..
  · exact k

theorem ftgUncorr (r : RowId) (addr i blk : Nat) (reads inj : Bool) : s.Settles (u.ftgUncorr r addr i blk reads inj) := by
  unfold State.ftgUncorr; dsimp only
  refine State.Settles.rowFails (State.Settles.post ?_ _) ..
  split
  · exact h.setStack ..
  · exact (h.setStack ..).markLine ..

theorem loseEntry (i b : Nat) : s.Settles (u.loseEntry i b) :=
  State.Settles.markLine ((h.freeBytes 4).phys (Mem.write_wf _ _ _)) ..

theorem sideUncorr (r : RowId) (addr : Nat) (l : List (Nat × Nat)) (stays inj : Bool) : s.Settles (u.sideUncorr r addr l stays inj) := by
  unfold State.sideUncorr; dsimp only
  refine State.Settles.rowFails (State.Settles.post ?_ _) ..
  split
  · exact (h.setStack ..).foldl _ _ (fun _ _ k => k.loseEntry ..)
  · exact h.setStack ..

theorem empty (g : Nat) : s.Settles (u.empty g) := by
  unfold State.empty; dsimp only
  refine State.Settles.foldl ?_ _ _ (fun _ _ k => k.request ..)
  split <;> exact h.hod _

theorem quarantine (src g : Nat) (inj : Bool) : s.Settles (u.quarantine src g inj) := by
  unfold State.quarantine; dsimp only; split
  · exact h
  · refine State.Settles.empty (State.Settles.ev ?_ ..) _
    exact h.upd rfl

theorem ucfCorr (ch addr : Nat) (inj : Bool) : s.Settles (u.ucfCorr ch addr inj) := by
  refine State.Settles.ev ?_ ..
  exact h.upd rfl

theorem ucfUncorr (ch addr i blk : Nat) (inj : Bool) : s.Settles (u.ucfUncorr ch addr i blk inj) := by
  unfold State.ucfUncorr; dsimp only
  split
  · refine State.Settles.quarantine (State.Settles.ev ?_ ..) ..
    split
    · exact h.upd rfl
    · refine State.Settles.markLine ?_ ..
      exact h.upd rfl
  · refine State.Settles.ev ?_ ..
    split
    · exact h.upd rfl
    · refine State.Settles.markLine ?_ ..
      exact h.upd rfl

theorem mtrCorr (slice addr : Nat) (inj : Bool) : s.Settles (u.mtrCorr slice addr inj) := by
  refine State.Settles.ev ?_ ..
  exact h.upd rfl

theorem mtrUncorr (slice addr case cls handle : Nat) (inj : Bool) : s.Settles (u.mtrUncorr slice addr case cls handle inj) := by
  refine State.Settles.post ?_ _
  exact h.upd rfl

/-- A report settles where the detector's own effect does. -/
theorem reported (code src addr unit : Nat) (f : State → Bool → State) (e : ∀ (v : State) (b : Bool), s.Settles v → s.Settles (f v b)) :
    s.Settles (u.reported code src addr unit f) := by
  unfold State.reported; split
  · exact e _ _ h.injReport
  · exact e _ _ h

theorem detectOne (src k : Nat) (rs : List ObjRef) (f : Found) (hf : s.Settles f.s) (d : Detect) : s.Settles (Found.detect src k rs f d).s := by
  clear h
  have poison (g : Found) (hg : s.Settles g.s) (i addr : Nat) (inj : Bool) : s.Settles (g.poison i addr inj).s := hg.poison ..
  have again (g : Found) (hg : s.Settles g.s) (code a addr i b : Nat) (r : State → State) (hr : ∀ v : State, s.Settles v → s.Settles (r v)) :
      s.Settles (g.injMismatch src code a addr i b r).s := by
    unfold Found.injMismatch; dsimp only; split
    · exact poison _ ((hr _ (hg.csumMismatch ..).injReport).csumMismatch ..) ..
    · exact hg.csumMismatch ..
  cases d with
  | spad ok addr =>
    unfold Found.detect; dsimp only
    refine hf.reported _ _ _ _ _ ?_
    intro _ _ k
    exact k.spadDetect ..
  | mtrCorr addr =>
    unfold Found.detect; dsimp only
    refine hf.reported _ _ _ _ _ ?_
    intro _ _ k
    exact k.mtrCorr ..
  | mtrClean addr =>
    unfold Found.detect; dsimp only
    refine hf.reported _ _ _ _ _ ?_
    intro _ _ k
    exact k.mtrUncorr ..
  | mtrDirty addr i b =>
    have e : s.Settles (f.s.reported evMtrUncorr (srcOf 0x02 (mortarSlice addr)) addr 256
        (fun s inj => s.mtrUncorr (mortarSlice addr) addr 2 2 (s.obj i).handle.toNat inj)) :=
      hf.reported _ _ _ _ _ (fun _ _ k => k.mtrUncorr ..)
    unfold Found.detect; dsimp only; split
    · exact e
    · refine poison _ ?_ ..
      dsimp only; split
      · exact e
      · exact e.markLine ..
  | mtrCombine addr =>
    unfold Found.detect; dsimp only
    refine hf.reported _ _ _ _ _ ?_
    intro _ _ k
    exact k.mtrUncorr ..
  | ftgCorr lane addr =>
    unfold Found.detect; dsimp only
    refine hf.reported _ _ _ _ _ ?_
    intro _ _ k
    exact k.ftgCorr ..
  | ftgUncorr addr i b =>
    have e (reads : Bool) : s.Settles (f.s.reported evFtgUncorr (rowAt addr).src addr 256 (fun s inj => s.ftgUncorr (rowAt addr) addr i b reads inj)) :=
      hf.reported _ _ _ _ _ (fun _ _ k => k.ftgUncorr ..)
    unfold Found.detect; dsimp only; split
    · exact again _ (e _) _ _ _ _ _ _ (fun _ k => k.ftgUncorr ..)
    · exact e _
  | ucfCorr addr =>
    unfold Found.detect; dsimp only
    refine hf.reported _ _ _ _ _ ?_
    intro _ _ k
    exact k.ucfCorr ..
  | ucfUncorr addr i b =>
    have e : s.Settles (f.s.reported evUcfUncorr (srcOf 0x04 (ucfChannel addr)) addr 256 (fun s inj => s.ucfUncorr (ucfChannel addr) addr i b inj)) :=
      hf.reported _ _ _ _ _ (fun _ _ k => k.ucfUncorr ..)
    unfold Found.detect; dsimp only; split
    · exact again _ e _ _ _ _ _ _ (fun _ k => k.ucfUncorr ..)
    · exact e
  | side addr stays =>
    have m (v : State) (hv : s.Settles v) (l : List (Nat × Nat)) (inj : Bool) : s.Settles (l.foldl (fun s p => s.csumMismatch src p.1 p.2 inj) v) :=
      hv.foldl _ _ (fun _ _ k => k.csumMismatch ..)
    unfold Found.detect; dsimp only
    generalize hi : f.s.injAt evFtgUncorr (rowAt addr).src addr 256 = inj
    have e : s.Settles (if inj then f.s.injReport else f.s) := by
      split
      · exact hf.injReport
      · exact hf
    generalize (if inj = true then f.s.injReport else f.s) = v at e ⊢
    generalize ((f.s.sideBlocks addr).filter (fun p => f.s.poisonable p.1)) = l
    generalize (l.filter (fun p => rs.any (fun q => hIdx q.h == p.1 && q.verifies p.2))) = mine
    have e2 := m _ (e.sideUncorr (rowAt addr) addr l (stays && !inj) inj) mine inj
    have p2 (g : Found) (hg : s.Settles g.s) : s.Settles (l.foldl (fun f p => f.poison p.1 (f.s.blockAddr p.1 p.2) inj) g).s := by
      induction l generalizing g with
      | nil => exact hg
      | cons p l ih => exact ih (e.sideUncorr _ _ _ _ _ |> fun k => m _ k _ _) _ (poison _ hg ..)
    cases inj <;> simp only [if_true, if_false, Bool.false_eq_true]
    all_goals
      split
      · refine p2 _ ?_
        refine m _ ?_ _ _
        first | exact e2.injReport.sideUncorr .. | exact e2
      · exact e2
  | csum i b =>
    unfold Found.detect; dsimp only; split
    · exact hf
    · exact hf.csumMismatch ..
  | csumTwice i b =>
    unfold Found.detect; dsimp only; split
    · exact hf
    · exact poison _ ((hf.csumMismatch ..).csumMismatch ..) ..
  | flash _ => exact hf

theorem detectAll (src k : Nat) (rs : List ObjRef) (l : List Detect) (f : Found) (hf : s.Settles f.s) : s.Settles (l.foldl (Found.detect src k rs) f).s := by
  induction l generalizing f with
  | nil => exact hf
  | cons d l ih => exact ih _ (h.detectOne src k rs f hf d)

theorem armedAt (src : Nat) (rs : List ObjRef) : s.Settles (u.armedAt src rs).2 := by
  unfold State.armedAt; dsimp only; repeat' split
  all_goals first | exact h | exact h.fresh

theorem detect (src k : Nat) (rs : List ObjRef) (ds : List Detect) : s.Settles (u.detect src k rs ds).s := by
  have a := h.detectAll src k rs ds { s := u } h
  have b := a.armedAt src rs
  have c := h.detectAll src k rs ((ds.foldl (Found.detect src k rs) { s := u }).s.armedAt src rs).1
    { (ds.foldl (Found.detect src k rs) { s := u }) with s := ((ds.foldl (Found.detect src k rs) { s := u }).s.armedAt src rs).2 } b
  exact c.verify ..

theorem peerTraffic (rs : List ObjRef) : s.Settles (u.peerTraffic rs) := by
  refine h.foldl _ _ (fun _ _ k => ?_)
  dsimp only; repeat' split
  all_goals first | exact k | exact k.sendMsg _

/-! ## Accesses of the host -/

theorem hifFault (b : Nat) : s.Settles (u.hifFault b) := h.hif _
theorem late (id : Nat) (r : HostRsp) : s.Settles (u.late id r) := h.hif _

theorem bar2Refuse (r : ObjRef) : s.Settles (u.bar2Refuse r) := by
  unfold State.bar2Refuse; dsimp only; split
  · exact (h.hifFault _).ev ..
  · exact h.hifFault _

theorem evalHost (o : Op) : s.Settles (u.evalHost o).1 := by
  unfold State.evalHost; dsimp only
  split
  · exact h.holdObj ..
  · split
    · dsimp only; split
      · exact (h.dropOp _).bar2Refuse _
      · exact ((h.dropOp _).bar2Refuse _).late ..
    · split
      · exact h.dropOp _
      · split
        · exact h.holdObj ..
        · split
          · split
            · exact h.askRecompute ..
            · exact h.holdObj ..
          · have k := h.detect bar2Src 0 [{ h := o.words.getD 1 0, lo := o.words.getD 2 0, n := o.words.getD 3 0, wr := o.kind == .hostWrite }] o.found
            split
            · split
              · exact k.holdObj ..
              · exact ((k.dropOp _).objWrite ..).peerTraffic _
            · split
              · exact ((k.dropOp _).hifFault _).late ..
              · exact ((k.dropOp _).late ..).peerTraffic _

theorem evalRecv (o : Op) : s.Settles (u.evalRecv o).1 := by
  unfold State.evalRecv; repeat' split
  all_goals first | exact h.askRecompute .. | exact h.holdObj .. | exact h.setOp _

theorem eval (o : Op) : s.Settles (u.eval o).1 := by
  unfold State.eval; dsimp only; split
  · exact h.evalPin ..
  · exact h.evalUnpin ..
  · exact h.evalPromote ..
  · exact h.evalPromote ..
  · exact h.evalDemote ..
  · exact h.evalDemote ..
  · exact h.evalDrop ..
  · exact h.evalAppend ..
  · exact h.evalTrim ..
  · exact h.evalDestroy ..
  · exact h.evalCreate ..
  · exact h.evalLeave ..
  · exact h.evalRecover ..
  · exact h.evalHost ..
  · exact h.evalHost ..
  · exact h.evalRecv ..
  · exact h.evalAccess ..

/-! ## Settlement -/

theorem settleN (n : Nat) (l : List Nat) : s.Settles (u.settleN n l) := by
  induction n generalizing u l with
  | zero => exact h
  | succ n ih =>
    cases l with
    | nil => exact h
    | cons id rest =>
      unfold State.settleN; split
      · exact ih (h.eval _) _
      · exact ih h _

theorem wakeFetch : s.Settles u.wakeFetch := by
  refine h.foldl _ _ (fun v x k => ?_)
  split
  · exact k.wake ..
  · exact k

theorem waitHeld (x : Nat) : s.Settles (u.waitHeld x) := by
  unfold State.waitHeld; split
  · exact h.leave ..
  · exact h

theorem parkCtx (x : Nat) : s.Settles (u.parkCtx x) := by
  unfold State.parkCtx; repeat' split
  · exact h.waitHeld ..
  · exact h.wake ..
  · exact h

theorem park : s.Settles u.park := h.foldl _ _ (fun _ x k => k.parkCtx x)

theorem settle (l : List Nat) : s.Settles (u.settle l) := ((h.settleN _ l).wakeFetch).park

theorem settleObj (i : Nat) : s.Settles (u.settleObj i) := h.settle _

theorem settleRecomputes : s.Settles u.settleRecomputes := h.foldl _ _ (fun _ i k => (k.recomputeDone i).settle _)

end State.Settles

/-! ## What settlement leaves -/

namespace State.Settles

variable {s t : State} (h : s.Settles t)
include h

theorem pending : t.pending = s.pending := by rw [h.frame]
theorem acc : t.acc = s.acc := by rw [h.frame]
theorem nsb : t.nsb = s.nsb := by rw [h.frame]
theorem overflow : t.overflow = s.overflow := by rw [h.frame]
theorem kst : t.kst = s.kst := by rw [h.frame]
theorem prs : t.prs = s.prs := by rw [h.frame]
theorem sealBlk : t.sealBlk = s.sealBlk := by rw [h.frame]
theorem job : t.msn.job = s.msn.job := by rw [h.frame]
theorem fw : t.msn.fw = s.msn.fw := by rw [h.frame]
theorem node : t.arc.node = s.arc.node := by rw [h.frame]
theorem ring : t.arc.ring = s.arc.ring := by rw [h.frame]
theorem pos : t.arc.pos = s.arc.pos := by rw [h.frame]
theorem stage : t.pln.stage = s.pln.stage := by rw [h.frame]
theorem groups : t.pln.groups = s.pln.groups := by rw [h.frame]

end State.Settles

/-! ## Nothing to settle -/

/-- With no context held on an operation, every context goes on as it is. -/
theorem State.park_quiet {s : State} (h : ∀ x, s.opHeld x = false ∧ (s.ctx x).wait ≠ .held) : s.park = s := by
  unfold State.park
  generalize s.ctxKeys = l
  induction l with
  | nil => rfl
  | cons x l ih =>
    have e : s.parkCtx x = s := by simp [State.parkCtx, h x]
    rw [List.foldl_cons, e, ih]

/-- With nothing to evaluate and no context held on a fetch or an operation, settlement changes nothing. -/
theorem State.settle_nil {s : State} (h : ∀ x, (s.ctx x).wait ≠ .fetch) (k : ∀ x, s.opHeld x = false ∧ (s.ctx x).wait ≠ .held) :
    s.settle [] = s := by
  have e : ∀ n, s.settleN n [] = s := fun n => by cases n <;> rfl
  have w : s.wakeFetch = s := by
    unfold State.wakeFetch
    generalize s.ctxKeys = l
    induction l with
    | nil => rfl
    | cons x l ih => rw [List.foldl_cons, if_neg (by simp [h x]), ih]
  unfold State.settle
  rw [e, w, State.park_quiet k]

/-- With no page being recomputed, none has ended. -/
theorem State.settleRecomputes_none {s : State} (h : s.NoRecompute) : s.settleRecomputes = s := by
  unfold State.settleRecomputes
  rw [List.filter_eq_nil_iff.2 (fun p hp => by simp [h p hp])]
  rfl

end Sys2Proof.Machine
end

