-- ==== Sys2Proof/Tests/Slice0.lean ====
section
/-! SUPPORT. Tests: words of the spec, ill-formed commands, and for each obligation states that meet its hypotheses. -/

namespace Sys2Proof.Tests
open Sys2Proof.Machine
set_option Elab.async false

/-! ## A module in service -/

/-- A code object whose text begins at 256. -/
def codeObj : Obj := { handle := 0x100005, st := .fast, kind := .code, pins := 1, size := 1, loadPin := true, codeText := some (256, 4096) }

/-- A data object of 64 KiB in footing. -/
def dataObj : Obj := { handle := 0x100006, st := .fast, size := 1 }

/-- A module in service whose context 0 runs. -/
def base : State :=
  { ctxs := [(0, { pc := 256, code := 0x100005, st := .running })], slots := [(0, { logical := some 0 })]
    objs := [(1, ring0Obj), (5, codeObj), (6, dataObj)], pln := { stage := 8, groups := 8, lock := true, power := true }, msn := { fw := true } }

/-- The same module with registers of context 0 and the scratchpad of core 0 written: (address, bytes, value). -/
def loaded (sr : List (Nat × W64)) (mem : List (Nat × Nat × Nat)) : State :=
  { base with
    ctxs := [(0, { pc := 256, code := 0x100005, st := .running, sr := sr })]
    spad := mem.foldl (fun m p => Mem.write m p.1 (toBytes p.2.1 p.2.2)) [] }

/-- An instruction word by its fields: (lowest bit, value). -/
def word (l : List (Nat × Nat)) (flags : Nat := 0) (psel : Nat := 0) : Ins :=
  { psel := BitVec.ofNat 4 psel, flags := BitVec.ofNat 8 flags, opd := BitVec.ofNat 100 ((l.map (fun p => p.2 * 2 ^ p.1)).foldl (· + ·) 0) }

/-- The descriptor of a BF16 tensor of `n0` by `n1` elements of object 6 at scratchpad address `a`, of KIND `kind`. -/
def bf16Td (a n0 n1 kind : Nat) : List (Nat × Nat × Nat) :=
  let nd := if n1 = 0 then 1 else 2
  [(a, 8, 0x100006), (a + 8, 8, 4 * 2 ^ 34 + kind * 2 ^ 38 + nd * 2 ^ 41 + 7 * 2 ^ 44), (a + 16, 8, if n1 = 0 then 0 else ceilDiv (2 * n0) 64 * 2 ^ 32),
    (a + 24, 8, (n0 - 1) * (2 ^ 20 + 1)), (a + 32, 8, (n1 - 1) * (2 ^ 20 + 1))]

/-- Whether the checks of `State.Admits` hold, with no point armed and no detection in the fetch. -/
def admitsB (s : State) (x : Fin 512) (i : Ins) : Bool :=
  decide ((s.ctx x).st = .running) && s.canIssue (coreOf x) && decide ((s.ctx x).asyncFlt = none) && !s.opHeld x && !s.opWaits x && !s.fetchHeld x
    && s.inText x (s.ctx x).pc.toNat && decide s.Unarmed && decide (i.found = []) && decide (s.badIn (s.fetchRef x) = none) && !s.undefinedWord x
    && decide (i.rsv = 0) && decide (i.psel ≠ 8)

theorem admits_of {s : State} {x : Fin 512} {i : Ins} (h : admitsB s x i = true) : s.Admits x i := by
  simp only [admitsB, Bool.and_eq_true, decide_eq_true_eq, Bool.not_eq_true'] at h
  obtain ⟨⟨⟨⟨⟨⟨⟨⟨⟨⟨⟨⟨a, b⟩, c⟩, d⟩, w⟩, e⟩, f⟩, u⟩, g⟩, v⟩, l⟩, m⟩, n⟩ := h
  exact ⟨a, b, c, d, w, e, f, s.readIns_nothing x i g u v e, s.injArmed_unarmed _ _ _ u, l, m, n⟩

/-- Whether those of `State.Issues` hold. -/
def issuesB (s : State) (x : Fin 512) (i : Ins) : Bool :=
  admitsB s x i && (s.ctx x).executes i && !s.injArmed evBoundsFault (srcOf 0x01 x)

theorem issues_of {s : State} {x : Fin 512} {i : Ins} (h : issuesB s x i = true) : s.Issues x i := by
  simp only [issuesB, Bool.and_eq_true, Bool.not_eq_true'] at h
  exact ⟨admits_of h.1.1, h.1.2, h.2⟩

/-- Whether no page is being recomputed. -/
def calm (s : State) : Bool := s.objs.all (fun p => decide (p.2.recompute = none))

theorem noRecompute_of {s : State} (h : calm s = true) : s.NoRecompute := by
  intro p hp
  simpa using List.all_eq_true.mp h p hp

/-- A property of every listed context and of an idle one holds of every context. -/
theorem ctx_all (s : State) (p : Ctx → Bool) (h : (p {} && s.ctxs.all (fun q => p q.2)) = true) (x : Nat) : p (s.ctx x) = true := by
  simp only [Bool.and_eq_true] at h
  obtain ⟨h0, h1⟩ := h
  show p (Tab.get {} s.ctxs x) = true
  generalize s.ctxs = l at h1
  induction l with
  | nil => exact h0
  | cons q r ih =>
    simp only [List.all_cons, Bool.and_eq_true] at h1
    rw [Tab.get_cons]
    split
    · exact h1.1
    · exact ih h1.2

/-- Whether no context waits for a fetch or a held operation. -/
def resting (s : State) : Bool := s.ctxs.all (fun p => decide (p.2.wait ≠ .fetch ∧ p.2.wait ≠ .held))

theorem resting_of {s : State} (h : resting s = true) (x : Nat) : (s.ctx x).wait ≠ .fetch ∧ (s.ctx x).wait ≠ .held := by
  have := ctx_all s (fun c => decide (c.wait ≠ .fetch ∧ c.wait ≠ .held)) (by simp only [Bool.and_eq_true]; exact ⟨by decide, h⟩) x
  exact of_decide_eq_true this

/-- Whether a state is quiet. -/
def quietB (s : State) : Bool := calm s && resting s && s.ops.all (fun o => !s.holds o)

theorem quiet_of {s : State} (h : quietB s = true) : s.Quiet := by
  simp only [quietB, Bool.and_eq_true] at h
  obtain ⟨⟨a, b⟩, c⟩ := h
  refine ⟨noRecompute_of a, fun x => (resting_of b x).1, fun x => ⟨?_, (resting_of b x).2⟩⟩
  simp only [State.opHeld, List.any_eq_false, Bool.and_eq_true, not_and, Bool.not_eq_true]
  intro o ho _
  simpa using List.all_eq_true.1 c o ho

/-! ## Words of the spec (the examples after R142) -/

theorem test_word_add_r142 : Photer.decode 0 .ok 0x10000103180000000000000000004200
    = some (.scaAdd 0 { flags := 1, opd := 6 * 2 ^ 95 + 6 * 2 ^ 90 + 0x4200 }) := by decide +kernel
theorem test_word_addr_r142 : Photer.decode 0 .ok 0x100001039C0000000000000008000000
    = some (.scaAdd 0 { flags := 1, opd := 7 * 2 ^ 95 + 7 * 2 ^ 90 + 0x8000000 }) := by decide +kernel
theorem test_word_loop_r142 : Photer.decode 0 .ok 0x004000001000000000000000FFFFFFFD
    = some (.ctlLoop 0 { opd := 4 * 2 ^ 90 + 0xFFFFFFFD }) := by decide +kernel
theorem test_word_undefined_class : Photer.decode 0 .ok 0xB0000000000000000000000000000000 = none := by decide
theorem test_word_undefined_op : Photer.decode 0 .ok 0x00800000000000000000000000000000 = none := by decide

/-! ## Issue -/

theorem witness_StepRunsFront : step { base with pending := [.ctlNop 0 {}] } = exec (.ctlNop 0 {}) { base with pending := [] } := rfl
theorem witness_IdleCounts : (State.reset.pending = [] ∧ State.reset.pln.lock = false) ∧ base.pending = [] ∧ base.pln.lock = true ∧ base.hif.waiting = []
    ∧ base.arc.heldIn = [] ∧ base.ldg.traceStaged = [] ∧ ∀ img own left, base.prs.restore ≠ .table img own left :=
  ⟨⟨rfl, rfl⟩, rfl, rfl, rfl, rfl, rfl, fun _ _ _ => Restore.noConfusion⟩
theorem witness_PhoterWords : Photer.decode 0 .ok 0 = some (.ctlNop 0 {}) ∧ 0xB ≤ ((0xB0000000000000000000000000000000 : BitVec 128).extractLsb' 124 4).toNat := by decide
theorem witness_PhoterRoundTrip : Photer.encode (.ctlNop 0 {}) = some (0, 0) := by decide

theorem witness_FalsePredicate : base.Skips 0 (word [] 0 1) ∧ ctlNopWord (word [] 0 1) = true ∧ synWord 0 (word [] 0 1) false = true
    ∧ scaWord (word [] 0 1) true true true false .b = true ∧ (word [] 0 1).sigOk 0 = true ∧ movBlockWord (word [] 0 1) true true = true
    ∧ numWord (word [] 0 1) = true :=
  ⟨⟨admits_of (by decide +kernel), by decide⟩, by decide⟩

theorem witness_IllegalEncoding : base.Admits 0 (word [] 1) ∧ ctlNopWord (word [] 1) = false ∧ base.NoRecompute :=
  ⟨admits_of (by decide +kernel), by decide, noRecompute_of (by decide)⟩

theorem witness_CtlBranches : (loaded [(1, 256), (2, 1), (3, 2)] []).Issues 0 {} ∧ ctlNopWord {} = true
    ∧ ctlBrWord (word [(0, 255)]) = true ∧ ctlBrxWord (word [(90, 1)]) = true ∧ ctlCallWord (word [(95, 4)]) = true
    ∧ ctlLoopWord (word [(90, 2)]) = true ∧ ctlLoopWord (word [(90, 3)]) = true
    ∧ (loaded [(1, 256), (2, 1), (3, 2)] []).inText 0 256 = true ∧ (loaded [(1, 256), (2, 1), (3, 2)] []).inText 0 4336 = true
    ∧ (loaded [(1, 256), (2, 1), (3, 2)] []).reg 0 1 = 256 ∧ (loaded [(1, 256), (2, 1), (3, 2)] []).reg 0 2 - 1 = 0
    ∧ (loaded [(1, 256), (2, 1), (3, 2)] []).reg 0 3 - 1 ≠ 0 := ⟨issues_of (by decide +kernel), by decide⟩

/-- One operation of context 0 outstanding. -/
def busy : State := { base with ops := [{ id := 0, src := .ctx 0, kind := .movFill, unit := .move, ins := {}, core := 0, off := 16 }], nextOp := 1 }

/-- Context 0 runs, and context 1 of its core is READY. -/
def shared : State := { base with ctxs := base.ctxs ++ [(1, { st := .ready })] }

theorem witness_CtlHolds : base.Issues 0 {} ∧ base.outstanding 0 = 0 ∧ base.NoRecompute ∧ busy.Issues 0 {} ∧ busy.outstanding 0 ≠ 0
    ∧ shared.Issues 0 {} ∧ 1 ∈ ctxsOf (coreOf 0) ∧ (shared.ctx 1).st = .ready ∧ (shared.ctx 0).prio ≤ (shared.ctx 1).prio :=
  ⟨issues_of (by decide +kernel), by decide, noRecompute_of (by decide), issues_of (by decide +kernel), by decide, issues_of (by decide +kernel), by decide⟩

theorem witness_ScaInteger : base.Issues 0 (word [(95, 1), (90, 2), (85, 3)]) ∧ base.Issues 0 (word [(95, 1), (90, 2), (0, 2 ^ 64 - 1)] 1)
    ∧ scaWord (word [(95, 1), (90, 2), (85, 3)]) true true true false .b = true
    ∧ scaWord (word [(95, 1), (90, 2), (0, 2 ^ 64 - 1)] 1) true true true false .b = true :=
  ⟨issues_of (by decide +kernel), issues_of (by decide +kernel), by decide⟩

theorem witness_ScaPredicates : base.Issues 0 (word [(90, 2), (85, 3), (82, 7)]) ∧ scaWord (word [(90, 2), (85, 3), (82, 7)]) false true true true .b = true
    ∧ base.Issues 0 (word [(90, 1), (82, 7)]) ∧ predWord (word [(90, 1), (82, 7)]) true = true ∧ predWord (word [(90, 1), (82, 7)]) false = true :=
  ⟨issues_of (by decide +kernel), by decide, issues_of (by decide +kernel), by decide⟩

theorem witness_ScaOthers : base.Issues 0 (word [(95, 1), (90, 2), (85, 3), (0, 5)] 1) ∧ base.Issues 0 (word [(95, 1), (0, 5)] 1)
    ∧ base.Issues 0 (word [(95, 1)]) ∧ base.Issues 0 (word [(90, 1)])
    ∧ scaWord (word [(95, 1), (90, 2), (85, 3), (0, 5)] 1) true true true false .required = true
    ∧ scaWord (word [(95, 1), (0, 5)] 1) true false false false .required = true ∧ scaWord (word [(95, 1)]) true false false false .unused = true
    ∧ scaWord (word [(95, 1)]) true true true false .b = true ∧ scaWord (word [(95, 1)]) true true false false .unused = true
    ∧ scaWord (word [(90, 1)]) false true false false .unused = true :=
  ⟨issues_of (by decide +kernel), issues_of (by decide +kernel), issues_of (by decide +kernel), issues_of (by decide +kernel), by decide⟩

/-- An SCA.LD and an SCA.ST of s1 at s2 + imm. -/
def ldIns (imm : Nat) : Ins := word [(95, 1), (90, 2), (0, imm)] 1
def stIns (imm : Nat) : Ins := word [(90, 2), (85, 1), (0, imm)] 1

theorem witness_ScaLoadStore : base.Issues 0 (ldIns 0x5FFFF8) ∧ base.Issues 0 (stIns 0x5FFFF8)
    ∧ (base.reg 0 2 + BitVec.ofNat 64 ((ldIns 0x5FFFF8).at 63 0)).toNat = 0x5FFFF8 ∧ scaWord (ldIns 0x5FFFF8) true true false false .required = true
    ∧ scaWord (stIns 0x5FFFF8) false true true false .required = true
    ∧ base.injArmed evSpadUncorr (srcOf 0x01 0x200) (fun g => g / 8 == 0x5FFFF8 / 8) = false
    ∧ base.injArmed evSpadCorr (srcOf 0x01 0x200) (fun g => g / 8 == 0x5FFFF8 / 8) = false :=
  ⟨issues_of (by decide +kernel), issues_of (by decide +kernel), by decide⟩

theorem witness_ScaBounds : base.Issues 0 (ldIns 4) ∧ base.Issues 0 (stIns 0x600000) ∧ base.NoRecompute
    ∧ (base.reg 0 2 + BitVec.ofNat 64 ((ldIns 4).at 63 0)).toNat % 8 ≠ 0
    ∧ 0x600000 < (base.reg 0 2 + BitVec.ofNat 64 ((stIns 0x600000).at 63 0)).toNat + 8
    ∧ scaWord (ldIns 4) true true false false .required = true ∧ scaWord (stIns 0x600000) false true true false .required = true :=
  ⟨issues_of (by decide +kernel), issues_of (by decide +kernel), noRecompute_of (by decide), by decide⟩

/-- A module of a ring of two, as node 0. -/
def paired : State := { base with arc := { valid := true, ring := [2, 1, 1, 1], pos := [0, 0, 0, 0] } }

/-- SYN on job counter 5 with an immediate. -/
def synIns (imm : Nat) (flags : Nat := 1) (name : Nat := 0x4005) : Ins := word [(74, name), (0, imm)] flags

theorem witness_SynSignalSet : base.Issues 0 (synIns 7) ∧ synRegOk base 0 (synIns 7) = true ∧ synWord 0 (synIns 7) true = true
    ∧ synRemote (synIns 7) = false ∧ fullName 0 ((synIns 7).at 89 74) = some (.job 5) ∧ base.counter (.job 5) = 0
    ∧ synWord 0 (synIns 7 1 3) false = true ∧ ownName 0 (synIns 7 1 3) = true ∧ fullName 0 ((synIns 7 1 3).at 89 74) = some (.ctx 0 3) :=
  ⟨issues_of (by decide +kernel), by decide⟩

/-- A signal of 7 to job counter 5 of the node in s1, with `out` unacknowledged. -/
def remoteIns : Ins := word [(74, 0x4005), (90, 1), (0, 7)] 3
def remoteState (out : Nat) : State := { loaded [(1, 1)] [] with arc := paired.arc, kst := { out := out } }

theorem witness_SynSignalRemote : (remoteState 1023).Issues 0 remoteIns ∧ (remoteState 1024).Issues 0 remoteIns
    ∧ ∀ n ∈ [1023, 1024], synRegOk (remoteState n) 0 remoteIns = true ∧ synWord 0 remoteIns true = true ∧ synRemote remoteIns = true
      ∧ remoteName 0 remoteIns = true ∧ (remoteState n).arc.other ((remoteState n).reg 0 (remoteIns.at 94 90)).toNat = true
      ∧ ((remoteState n).arc.route 1).isSome = true ∧ (remoteState n).kst.out = n :=
  ⟨issues_of (by decide +kernel), issues_of (by decide +kernel), by decide +kernel⟩

theorem witness_SynWaits : base.Issues 0 (synIns 0) ∧ synWord 0 (synIns 0) false = true ∧ fullName 0 ((synIns 0).at 89 74) = some (.job 5)
    ∧ base.Issues 0 (synIns 0 1 3) ∧ base.Issues 0 (synIns 7) ∧ synWord 0 (synIns 0 1 3) false = true ∧ synWord 0 (synIns 7) false = true
    ∧ synRegOk base 0 (synIns 7) = true ∧ fullName 0 ((synIns 0 1 3).at 89 74) = some (.ctx 0 3) ∧ fullName 0 ((synIns 7).at 89 74) = some (.job 5)
    ∧ (base.counter (.job 5)).toNat < 7 ∧ 0 ≤ (base.counter (.ctx 0 3)).toNat :=
  ⟨issues_of (by decide +kernel), by decide, by decide, issues_of (by decide +kernel), issues_of (by decide +kernel), by decide⟩

theorem witness_NumRead (f : Fin 11) : base.Issues 0 (word [(95, 1), (89, f)]) ∧ numRdWord (word [(95, 1), (89, f)]) = true
    ∧ (word [(95, 1), (89, f)]).at 94 89 = f :=
  ⟨issues_of (by revert f; decide +kernel), by revert f; decide⟩

/-! ## Long operations -/

/-- Little-endian fields at an address: (offset, bytes, value). -/
def fields (a : Nat) (l : List (Nat × Nat × Nat)) : List (Nat × Nat × Nat) := l.map (fun p => (a + p.1, p.2))

/-- The premises of the statements on entering a queue: issue, signal field, instruction word, faults of check 7, room. -/
def meets (s : State) (i : Ins) (w : Bool) (f : List Nat) (u : CoreUnit) : Bool :=
  issuesB s 0 i && i.sigOk 0 && w && f.isEmpty && decide (s.outstanding 0 < 16) && decide (s.queued 0 u < 32)

theorem meets_of {s : State} {i : Ins} {w : Bool} {f : List Nat} {u : CoreUnit} (h : meets s i w f u = true) :
    s.Issues 0 i ∧ i.sigOk (coreOf 0) = true ∧ w = true ∧ f = [] ∧ s.Room 0 u := by
  simp only [meets, Bool.and_eq_true, List.isEmpty_iff, decide_eq_true_eq] at h
  obtain ⟨⟨⟨⟨⟨a, b⟩, c⟩, d⟩, e⟩, f⟩ := h
  exact ⟨issues_of a, b, c, d, e, f⟩

def movState : State := loaded [(1, 0x10000), (2, 0), (3, 0), (4, 0x100006), (5, 4096), (6, 0x20000)] (bf16Td 0 32 128 0)
def movIns : Ins := word [(95, 1), (42, 31), (30, 1)]
def blkIns : Ins := word [(95, 1), (90, 4), (66, 5)]
def spIns : Ins := word [(95, 1), (90, 6), (66, 5)]
def prefIns : Ins := word [(90, 4), (66, 5)]

theorem witness_MovEnters :
    meets movState movIns (movTileWord movIns) ((tileOf movIns (movState.tdAt 0 0) 0x10000 0 0).faults 0 0) .move
    ∧ meets movState blkIns (movBlockWord blkIns true true) (movFaults .movLdb 0x10000 0x100006 0 4096) .move
    ∧ meets movState blkIns (movBlockWord blkIns true true) (movFaults .movStb 0x10000 0x100006 0 4096) .move
    ∧ meets movState spIns (movBlockWord spIns true false) (movFaults .movSpcpy 0x10000 0x20000 0 4096) .move
    ∧ meets movState spIns (movBlockWord spIns true false) (movFaults .movFill 0x10000 0x20000 0 4096) .move
    ∧ meets movState prefIns (movBlockWord prefIns false true) (movFaults .movPref 0 0x100006 0 4096) .move
    ∧ (movIns.at 70 54, movState.reg 0 (movIns.at 99 95), movState.reg 0 (movIns.at 94 90)) = (0, 0x10000, 0) := by decide +kernel

def matState : State := loaded [(1, 0x10000), (2, 0x20000), (3, 0x1000 * 2 ^ 32), (4, 0x30000), (5, 2 * 2 ^ 16)] (bf16Td 0 32 128 0)
def matIns (k : LKind) : Ins := word ([(95, 1), (90, 2), (2, 1)] ++ if k = .matWgradm then [(71, 3)] else [])
def drainIns : Ins := word [(95, 4), (24, 1)]
def clearIns : Ins := word [(24, 1)]
def splitIns : Ins := word [(95, 0), (90, 5), (24, 1)]
def splitState : State := { loaded [(5, 2 + 2 * 2 ^ 16)] [] with mtr := { caWays := 1 } }

theorem witness_MatEnters :
    ([LKind.matFwd, .matDgrad, .matWgrad, .matWgradm].all fun k =>
      let o := matState.productOp k 0 (matIns k)
      meets matState (matIns k) (matProductWord k (matIns k)) (matState.productFaults o) o.unit && !matState.injOvercommit 0
        && decide (passes (shapeM (o.r 2)) (shapeN (o.r 2)) (slotsOf (matSmask (matIns k))).length ≤ 1))
    ∧ meets matState drainIns (matDrainWord drainIns) (drainFaults (matState.drainOp 0 drainIns)) (matState.drainOp 0 drainIns).unit
    ∧ meets matState clearIns (matClearWord clearIns) [] (arrUnit (matArr clearIns))
    ∧ ([LKind.matPdrain, .matCombine].all fun k =>
      meets splitState splitIns (matSplitWord (k == .matCombine) splitIns) (splitState.splitFaults (splitState.splitOp k 0 splitIns))
        (splitState.splitOp k 0 splitIns).unit) := by decide +kernel

def vecKinds : List LKind :=
  [.vecAdd, .vecSub, .vecMul, .vecFma, .vecMax, .vecMin, .vecAbs, .vecMuli, .vecAddi, .vecSel, .vecExp2, .vecLog2, .vecRcp, .vecRsqrt, .vecRsum, .vecRmax,
    .vecRamax]
def vecState : State := loaded [(1, 0x10000), (2, 0x20000), (3, 31 + 127 * 2 ^ 16)] (bf16Td 0 32 128 0)
def vecIns : Ins := word [(95, 1), (90, 2), (61, 3)]
def cvtIns : Ins := word [(95, 1), (90, 2), (49, 3)]
def optIns : Ins := word [(95, 1), (66, 3)]
/-- An OPB whose valid words are `js`, with their descriptors at 64 times 16, 17 and so on. -/
def opbState (js : List Nat) : State :=
  { loaded [(1, 0), (3, 31 + 127 * 2 ^ 16)]
      (fields 0 (js.flatMap (fun j => [(4 * j, 4, 2 ^ 31 + 16 + j), (24 + 8 * j, 8, 0x10000 * (j + 1))]))
        ++ bf16Td (64 * 16) 32 128 4 ++ bf16Td (64 * 17) 32 128 3 ++ bf16Td (64 * 18) 32 128 3 ++ bf16Td (64 * 19) 32 128 0) with nsb := { outcome := 1 } }

theorem witness_VecEnters :
    (vecKinds.all fun k =>
      meets vecState vecIns (vecWord (vecForm k) vecIns) (vecFaults (vecState.vecOp k 0 vecIns)) (vecState.vecOp k 0 vecIns).unit
        && !(vecState.ctx 0).latchValid)
    ∧ meets vecState cvtIns (vecCvtWord cvtIns) (cvtFaults (vecState.cvtOp 0 cvtIns)) .vector
    ∧ ([(LKind.vecOptaw, [0, 1, 2, 3]), (.vecOptms, [0, 1, 3])].all fun p =>
      let s := opbState p.2
      meets s optIns (vecOptWord optIns) (optFaults (opbOf (s.spadRead 0 (s.reg 0 (optIns.at 99 95)).toNat 128)) (s.optOp p.1 0 optIns)) .vector
        && s.nsb.outcome != 0) := by decide +kernel

def latched : State := { vecState with ctxs := vecState.ctxs.map (fun p => (p.1, { p.2 with latch := 77, latchValid := true })) }

def skippedVec : Ins := word [(95, 1), (90, 2), (61, 3)] 0 1

theorem witness_SetimmConsumed :
    ([LKind.vecMuli, .vecAddi, .vecSel].all fun k => meets latched vecIns (vecWord (vecForm k) vecIns) (vecFaults (latched.vecOp k 0 vecIns)) .vector)
    ∧ (latched.ctx 0).latchValid
    ∧ ([LKind.vecAdd, .vecSub, .vecMul, .vecFma, .vecMax, .vecMin, .vecAbs, .vecExp2, .vecLog2, .vecRcp, .vecRsqrt, .vecRsum, .vecRmax, .vecRamax].all
      fun k => vecWord (vecForm k) vecIns) ∧ calm latched
    ∧ admitsB latched 0 skippedVec ∧ (latched.ctx 0).executes skippedVec = false
    ∧ ([LKind.vecMuli, .vecAdd, .vecSub, .vecRsum].all fun k => vecWord (vecForm k) skippedVec) := by decide +kernel

/-- The 16-byte entry `e` of an attention command block: its area and its descriptor. -/
def acbEntry (e : Nat) (area td : Nat) : List (Nat × Nat × Nat) := [(128 + 16 * e, 8, area), (136 + 16 * e, 4, td)]
/-- An attention command block at 0 of D = 32 and blocks of 64 queries by 128 keys, with tensor entries `ts` and FP32 entries `fs`. -/
def acb (sf : Nat) (ts fs : List Nat) : List (Nat × Nat × Nat) :=
  [(0, 8, 31 * 16), (16, 1, 4), (17, 1, sf)]
    ++ ts.flatMap (fun e => acbEntry e (0x10000 * (e + 1)) (2 ^ 31 + if attKeyRows e then 17 else 16))
    ++ fs.flatMap (fun e => acbEntry e (0x10000 * (e + 1)) (2 ^ 31))
    ++ bf16Td (64 * 16) 32 64 1 ++ bf16Td (64 * 17) 32 128 1
def attIns : Ins := word [(95, 1), (24, 3)]
def attFwdState : State := loaded [(1, 0)] (acb 0 [0, 1, 2] [4, 5])
def attBwdState : State := loaded [(1, 0)] (acb 4 [0, 1, 7, 8, 9, 10, 11] [6, 12, 13, 14, 15])
def hodKinds : List (LKind × Bool × Bool × Bool) :=
  [(.hodPin, false, false, false), (.hodUnpin, false, false, false), (.hodPromote, false, false, true), (.hodDemote, true, false, false),
    (.hodDrop, false, false, false), (.hodAppend, true, true, false), (.hodTrim, true, false, false)]
def hodState : State := loaded [(1, 0x100006), (2, 0), (3, 64)] []
def hodIns : LKind → Ins
  | .hodAppend => word [(95, 1), (90, 2), (71, 3)]
  | .hodDemote | .hodTrim => word [(95, 1), (90, 2)]
  | _ => word [(95, 1)]

theorem witness_AttHodEnters :
    meets attFwdState attIns (attWord false attIns) (attFaults (attFwdState.attOp .attFwd 0 attIns)) (attFwdState.attOp .attFwd 0 attIns).unit
    ∧ meets attBwdState attIns (attWord true attIns) (attFaults (attBwdState.attOp .attBwd 0 attIns)) (attBwdState.attOp .attBwd 0 attIns).unit
    ∧ (hodKinds.all fun p =>
      meets hodState (hodIns p.1) (hodWord (hodIns p.1) p.2.1 p.2.2.1 p.2.2.2) (hodFaults7 (hodState.hodOp p.1 0 (hodIns p.1)))
        (hodState.hodOp p.1 0 (hodIns p.1)).unit) := by decide +kernel

/-- A command block at 0: of a send or a receive from node 1 with tag 7, or of another collective, of 8 KiB. -/
def arcState (k : LKind) : State :=
  loaded [(1, 0)] (if k = .arcSend ∨ k = .arcRecv then [(24, 8, 8192), (32, 2, 1), (36, 4, 7)] else [(24, 8, 8192)])
def arcIns : Ins := word [(95, 1)]
def openState : State := loaded [(1, 0), (2, 3)] [(4, 2, 64), (6, 2, 64), (12, 2, 16), (14, 2, 16), (16, 4, 0x100006)]
def decState : State :=
  loaded [(1, 0), (2, 3)] ([(0, 4, 0x100006), (16, 4, 100), (20, 4, 2 ^ 31 + 16), (28, 4, 0x100006)] ++ bf16Td (64 * 16) 768 4 1)
def ingIns : Ins := word [(95, 1), (90, 2)]
def closeIns : Ins := word [(90, 2)]

theorem witness_ArcNumIngEnters :
    ([LKind.arcRscat, .arcAgath, .arcAred, .arcSend, .arcRecv, .arcCirc].all fun k =>
      let s := arcState k
      meets s arcIns (arcWord k arcIns) (s.arcFaults (s.arcOp k 0 arcIns)) .outbound && decide ((s.arcOp k 0 arcIns).arcCourse < s.arc.issued.length)
        && decide (s.receives < 1024))
    ∧ meets base {} (arcWord .arcOvor {}) [] .outbound ∧ meets base {} (numWord {}) [] .outbound ∧ base.stepHeld = false ∧ base.nsb.outcome = 0
    ∧ ([false, true].all fun a =>
      let s := { base with nsb := { outcome := 1, applied := a } }
      meets s {} (numWord {}) [] .outbound && s.stepHeld == !a && decide s.Unarmed
        && (List.range 32).all (fun k => if h : k < 64 then s.counter (.sys ⟨k, h⟩) == 0 else false))
    ∧ (let s := { base with nsb := { outcome := 1, applied := true }, prs := { replay := some { step := 0 } } }
       meets s {} (numWord {}) [] .outbound && s.stepHeld && s.nsb.applied && !s.captureDue)
    ∧ meets openState ingIns (ingWord .ingOpen ingIns) (openState.ingFaults (openState.ingOp .ingOpen 0 ingIns)) .outbound
    ∧ meets decState ingIns (ingWord .ingDecode ingIns) (decState.ingFaults (decState.ingOp .ingDecode 0 ingIns)) .outbound
    ∧ meets openState closeIns (ingWord .ingClose closeIns) (openState.ingFaults (openState.ingOp .ingClose 0 closeIns)) .outbound := by decide +kernel

/-! ## Units at work -/

/-- Context 0 with one operation queued in the move unit: a fill of 4 KiB at 0x10000, or a load from the object of handle `h`. -/
def queued (k : LKind) (h : Nat) : State :=
  { base with
    ops := [{ id := 0, src := .ctx 0, kind := k, unit := .move, ins := {}, core := 0, off := 16, regs := [0x10000, BitVec.ofNat 64 h, 0, 4096] }]
    nextOp := 1 }

/-- A load of a tile whose descriptor names a preservation class that its object is not registered with. -/
def misnamed : State :=
  { queued .movLdt 0 with ops := (queued .movLdt 0).ops.map (fun o => { o with tds := [{ matState.tdAt 0 0 with pres := 3 }] }) }

def headOf (s : State) (u : CoreUnit := .move) : Op := (s.head 0 u).getD { id := 9, src := .ctx 0, kind := .movFill, ins := {}, core := 0, off := 0 }

/-- A clear of slot 0 of array F at the head of its queue. -/
def clearing : State :=
  { base with ops := [{ id := 0, src := .ctx 0, kind := .matClear, unit := .farray, ins := clearIns, core := 0, off := 16 }], nextOp := 1 }

theorem witness_OperationStarts :
    (queued .movFill 5).head 0 .move = some (headOf (queued .movFill 5)) ∧ (queued .movFill 5).unitFree (headOf (queued .movFill 5)) = true
    ∧ (queued .movFill 5).warned = false ∧ (queued .movFill 5).Unarmed ∧ (queued .movFill 5).faults8 (headOf (queued .movFill 5)) = []
    ∧ (queued .movLdb 0x999999).head 0 .move = some (headOf (queued .movLdb 0x999999))
    ∧ (queued .movLdb 0x999999).unitFree (headOf (queued .movLdb 0x999999)) = true ∧ (queued .movLdb 0x999999).Unarmed
    ∧ evBoundsFault ∈ (queued .movLdb 0x999999).faults8 (headOf (queued .movLdb 0x999999))
    ∧ evIllegalEncoding ∉ (queued .movLdb 0x999999).faults8 (headOf (queued .movLdb 0x999999))
    ∧ misnamed.head 0 .move = some (headOf misnamed) ∧ misnamed.unitFree (headOf misnamed) = true ∧ misnamed.Unarmed
    ∧ evIllegalEncoding ∈ misnamed.faults8 (headOf misnamed)
    ∧ quietB (queued .movFill 5) = true ∧ (queued .movFill 5).refs (headOf (queued .movFill 5)) = []
    ∧ clearing.head 0 .farray = some (headOf clearing .farray) ∧ clearing.unitFree (headOf clearing .farray) = true ∧ clearing.warned = false ∧ clearing.Unarmed
    ∧ clearing.faults8 (headOf clearing .farray) = [] ∧ quietB clearing = true ∧ clearing.refs (headOf clearing .farray) = []
    ∧ CoreUnit.farray ∈ (headOf clearing .farray).arrays ∧ Tab.get 0 clearing.pln.lastStart 0 = 0 := by decide +kernel

/-- The operation in execution. -/
def inWork (k : LKind) (h : Nat) : State := { queued k h with ops := (queued k h).ops.map (fun o => { o with st := .started }) }

/-- Whether no request is held. -/
def noneHeldB (s : State) : Bool := s.ops.all (fun o => match o.st with | .heldObj _ _ | .heldCap _ _ _ => false | _ => true)

theorem noneHeld_of {s : State} (h : noneHeldB s = true) : s.NoneHeld := by
  intro o ho
  have := List.all_eq_true.1 h o ho
  refine ⟨fun i a e => ?_, fun c p a e => ?_⟩ <;> rw [e] at this <;> cases this

theorem witness_ComputeCompletes :
    (inWork .movFill 5).Quiet ∧ (inWork .movLdb 0x100006).Quiet ∧ (inWork .movLdb 0x100006).NoneHeld
    ∧ ∀ p ∈ [(LKind.movFill, 5), (.movLdb, 0x100006)],
      let s := inWork p.1 p.2
      ∃ o ∈ s.findOp 0, o.id = 0 ∧ o.src = .ctx 0 ∧ o.st = .started ∧ o.pinned = [] ∧ o.unit ≠ .outbound ∧ o.kind = p.1 ∧ s.Unarmed ∧ s.bad = []
        ∧ (s.refs o).all (s.reaches o.src) = true :=
  ⟨quiet_of (by decide +kernel), quiet_of (by decide +kernel), noneHeld_of (by decide +kernel), by decide +kernel⟩

/-- A tile of 2 elements by 2 rows in the E4M3 format, or of the BF16 format in rows of 64 bytes of which 32 hold elements. -/
def ldtOp : Op :=
  { id := 0, src := .ctx 0, kind := .movLdt, unit := .move, ins := word [(42, 1), (30, 1)], core := 0, off := 0, regs := [0, 0, 0], tds := [{ tdOfBytes [] with fmt := 1 }] }
def sttOp : Op := { ldtOp with kind := .movStt, tds := [(loaded [] (bf16Td 0 16 128 0)).tdAt 0 0] }

theorem witness_BlockEffects :
    4096 % 8 = 0 ∧ 8 * 511 + 8 ≤ 4096 ∧ ldtOp.kind = .movLdt ∧ ldtOp.tile.t1 = 1 ∧ ldtOp.tile.t0 = 1 ∧ ldtOp.tile.td.w = 2
    ∧ sttOp.kind = .movStt ∧ 0 ∈ sttOp.tile.changed ∧ sttOp.tile.td.scaleOfByte (4096 * 0 + 33) = none ∧ sttOp.tile.td.elemOfByte (4096 * 0 + 33) = none
    ∧ 0 ∈ slotsOf (drnSmask clearIns) := by decide +kernel

/-! ## Numeric results -/

/-- A row of 32 elements of FP4 with code 2, which is 1, or code 0, under scale code 127. -/
def onesOpnd (c : Nat) : Opnd := { f := .fp4, tr := false, codes := #[(List.replicate 32 c).toArray], scales := #[127], cols := 32 }
/-- The sum of its one product block with the row of ones. -/
def onesSum (c : Nat) : FVal := blockSum ((List.range 32).map (fun i => ((onesOpnd c).value 0 (32 * 0 + i), (onesOpnd 2).value 0 (32 * 0 + i))))
/-- A RAW drain of slot 0, a part and a combination of two parts. -/
def rawIns : Ins := word [(95, 4), (24, 1)] 8
def partOp : Op := { splitState.splitOp .matPdrain 0 splitIns with snap := [List.replicate 16384 0] }
def combining : State := { splitState with mtr := { caWays := 1, combine := [(0, [1]), (1, [2])] } }

theorem witness_MatResults :
    ((∃ q e, onesSum 0 = .fin q 0 e) ∧ ∀ q e, onesSum 2 ≠ .fin q 0 e)
    ∧ (let o := matState.productOp .matFwd 0 (matIns .matFwd)
       matState.MemoryWf ∧ shapeM (o.r 2) * shapeN (o.r 2) ≤ (slotsOf (matSmask o.ins)).length ∧ 0 < shapeM (o.r 2) ∧ 0 < shapeN (o.r 2))
    ∧ (let o := matState.drainOp 0 rawIns
       o.kind = .matDrain ∧ drnRaw o.ins = true ∧ drainFaults o = [] ∧ 127 < 128 * drnGm o.ins ∧ 127 < 128 * drnGn o.ins)
    ∧ (partOp.kind = .matPdrain ∧ (partOp.snap.headD []).length = 16384)
    ∧ (combining.splitOp .matCombine 0 splitIns).kind = .matCombine
    ∧ ∀ p < splitS ((combining.splitOp .matCombine 0 splitIns).r 1), Tab.get [] combining.mtr.combine ((combining.splitOp .matCombine 0 splitIns).r 0 + p) ≠ [] := by
  have h : onesSum 2 = .fin false 128 (-2) := by decide +kernel
  refine ⟨⟨⟨false, -2, by decide +kernel⟩, fun q e => ?_⟩, ⟨⟨by decide +kernel, by decide, by decide, by decide⟩, by decide +kernel⟩, by decide +kernel,
    ⟨rfl, List.length_replicate⟩, rfl, by decide +kernel⟩
  rw [h]
  exact fun k => by cases k

def tileOfTd (fmt : Nat) : Tile := { td := { tdOfBytes [] with fmt := fmt }, a := 0, o := [0, 0, 0, 0, 0], t0 := 31, t1 := 0, pitch := 0 }
def widIns : Ins := word [(95, 1), (90, 2), (49, 3)] 8
def maskIns (flags : Nat) : Ins := word [(95, 1), (90, 2), (61, 3), (56, 4)] flags
/-- A mask whose first bit is set, at the address in s4. -/
def maskState : State :=
  loaded [(1, 0x10000), (2, 0x20000), (3, 31 + 127 * 2 ^ 16), (4, 0x40000)] ((0x40000, 1, 1) :: bf16Td 0 32 128 0)

theorem witness_VectorResults :
    (7 < 2 ^ fmtBits .fp4 ∧ decodeFmt .fp4 7 = .fin false 3 1 ∧ saturates .fp4 .rne 7 0 = true ∧ saturates .ge3 (.sr 0) 9 0 = true ∧ blockLen .e5m2 ≠ 0)
    ∧ ((tileOfTd 0).pitchOk = true ∧ 0 < (tileOfTd 0).scales ∧ (tileOfTd 5).pitchOk = true ∧ vecState.MemoryWf)
    ∧ ([LKind.vecAdd, .vecRsum].all fun k => (vecFaults (vecState.vecOp k 0 vecIns)).isEmpty && (vecForm k).red == (k == .vecRsum))
    ∧ ([0, 1].all fun f =>
        let o := maskState.vecOp .vecAdd 0 (maskIns f)
        let m := (maskState.maskBits o.core (o.ins.zero 60 56) (o.r 5) (o.ins.at 45 44) (shapeRows (o.r 4)) (shapeCols (o.r 4))).at
        (vecFaults o).isEmpty && m 0 0 && !m 0 1 && vecMz o.ins == (f == 1))
    ∧ (let o := vecState.cvtOp 0 widIns
       vecWid o.ins = true ∧ cvtFaults o = [] ∧ o.cvtF.none = false ∧ o.ins.sb ≠ 0) :=
  ⟨by decide +kernel, ⟨by decide +kernel, by decide +kernel, by decide +kernel, by decide +kernel, by decide, by decide, by decide⟩, by decide +kernel, by decide +kernel,
    by decide +kernel⟩

theorem witness_MemoryWrites : (3 < [1, 2, 3, 4].length) ∧ (spadKey 0 5 < spadKey 0 6 ∨ spadKey 0 6 + 4 ≤ spadKey 0 5) ∧ base.MemoryWf := by
  refine ⟨by decide, by decide, by decide, by decide, by decide, by decide⟩

def stepState (k : LKind) (applied : Bool) : State :=
  { base with
    nsb := { outcome := 1, applied := applied, interval := 1000 }, nextOp := 1
    ops := [{ id := 0, src := .ctx 0, kind := k, ins := {}, core := 0, off := 16, st := .started }] }

theorem witness_StepScaleRuns :
    [(LKind.numStepupd, false), (.numStepbegin, true)].all (fun p =>
      let s := stepState p.1 p.2
      decide (s.findOp 0 = some { id := 0, src := .ctx 0, kind := p.1, ins := {}, core := 0, off := 16, st := .started }) && quietB s
        && decide s.Unarmed && decide (s.nsb.outcome ≠ 0) && s.nsb.applied == p.2 && !s.captureDue && !s.replayDue && !s.pln.warn && !s.prs.warned
        && s.arc.orEarly.isEmpty && (s.ops.all fun o => (s.refs o).all (s.reaches o.src))) := by decide +kernel

theorem witness_StepScale : -64 ≤ (BitVec.ofInt 8 (-64)).toInt ∧ (BitVec.ofInt 8 63).toInt ≤ 63
    ∧ ({ outcome := 2 } : Nsb).outcome = 2 ∧ ({ outcome := 1, clean := 4, interval := 5 } : Nsb).clean + 1 = 5
    ∧ ({ outcome := 1, clean := 3, interval := 5 } : Nsb).clean + 1 ≠ 5 := by decide

/-! ## Contexts -/

def ctxState (l : List (Nat × Ctx)) (c : Core) : State := { base with ctxs := l, cores := [(0, c)] }
def switchState : State := ctxState [(1, { st := .ready })] { switching := some 1 }
def quantumState : State := ctxState [(0, { st := .running, issued := 256 }), (1, { st := .ready })] {}
def delayState : State := ctxState [(0, { st := .waiting, wait := .delay (.job 5) 0 })] {}

theorem witness_ContextSelection :
    (switchState.core 0).switching = some 1 ∧ switchState.canIssue 0 = true ∧ quantumState.canIssue 0 = true ∧ (switchState.ctx 1).st = .ready ∧ (∀ y ∈ ctxsOf 0, (switchState.ctx y).st ≠ .running)
    ∧ (ctxsOf 0).find? (fun z => (quantumState.ctx z).st = .running) = some 0 ∧ 256 ≤ (quantumState.ctx 0).issued ∧ quantumState.best 0 = some 1
    ∧ (quantumState.ctx 0).prio ≤ (quantumState.ctx 1).prio
    ∧ (delayState.ctx 0).st = .waiting ∧ (delayState.ctx 0).wait = .delay (.job 5) 0 ∧ delayState.canIssue 0 = true := by decide

theorem witness_Watchdogs : base.Unarmed ∧ base.slotOf 0 = some 0 ∧ (∃ x ∈ ctxsOf 0, (base.ctx x).st = .running) ∧ base.msn.fw = true := by decide +kernel

/-! ## Memory upkeep -/

def aRow : RowId := ⟨1, 2, 3, 5⟩
/-- A row of another bank, its last spare used. -/
def fullRow : RowId := ⟨1, 2, 4, 5⟩
def ftgState : State :=
  { base with
    ftgStacks := (List.range 8).map (fun i => (i, { train := 1, pendingRows := if i = 1 then [⟨aRow, false, false⟩, ⟨fullRow, false, true⟩] else [] }))
    ftg := { retiring := [(7, aRow, false)] } }

theorem witness_FootingUpkeep :
    ftgState.Unarmed ∧ ftgState.Numbered ∧ (ftgState.stack 1).pendingRows.find? (fun p => p.row == aRow) = some ⟨aRow, false, false⟩
    ∧ (ftgState.stack 1).pendingRows.find? (fun p => p.row == fullRow) = some ⟨fullRow, false, true⟩ ∧ ftgState.regionOut fullRow.region = false
    ∧ ftgState.ftg.retiring.find? (fun q => q.1 == 7) = some (7, aRow, false) ∧ ftgState.emptied 7 = true
    ∧ aRow.region ∉ ftgState.ftg.retired ∧ (∀ j : Fin 8, (ftgState.stack j).train = 1) ∧ ftgState.Quiet :=
  ⟨by decide, (fun o h => by cases h), by decide, by decide, by decide, by decide, by decide +kernel, by decide, by decide, quiet_of (by decide)⟩

/-- A data object of the undercroft on its way to footing, or poisoned and in recovery from its replica. -/
def movingState : State := { base with objs := [(6, { dataObj with home := 1, st := .up, move := some { toHome := 0 } })] }
def recoveryState : State := { base with objs := [(6, { dataObj with st := .poisoned, recover := some 0 })], bad := [(badKey 6 0, 1)] }
/-- An append held on capacity for longer than its limit. -/
def heldState : State :=
  { base with
    pln := { stage := 8, groups := 8, lock := true, power := true, cclk := 5000 }, hod := { limit := 4000 }, nextOp := 1
    ops := [{ id := 0, src := .ctx 0, kind := .hodAppend, ins := {}, core := 0, off := 16, regs := [0, 0, 0, 0x100006], st := .heldCap 999 0 0 }] }

/-- A page object of 64 tokens, 16 of them filled, with a recipe. -/
def pageObj : Obj := { dataObj with kind := .page, page := [2 ^ 30, 64 * 2 ^ 32 + 16, 0, 0, 0, 0, 0, 0] }
/-- HOD operation `k` with operand `arg` at the head of core 0's outbound port, on `ob` at index 6. -/
def hodStart (k : LKind) (arg : W64) (ob : Obj) : State :=
  { base with
    objs := [(5, codeObj), (6, ob)], nextOp := 1
    ops := [{ id := 0, src := .ctx 0, kind := k, ins := {}, core := 0, off := 16, regs := [0x100006, arg, 64] }] }
def slowObj : Obj := { dataObj with st := .slow, home := 1 }

theorem witness_HodStarts :
    [(LKind.hodPin, (0 : W64), dataObj), (.hodUnpin, 0, { dataObj with pins := 1 }), (.hodPromote, 0, dataObj), (.hodDemote, 0, slowObj), (.hodDrop, 0, pageObj),
      (.hodTrim, 16, pageObj), (.hodAppend, 48, pageObj)].all (fun p =>
      let s := hodStart p.1 p.2.1 p.2.2
      let o := headOf s .outbound
      let ob := s.obj 6
      s.head 0 .outbound == some o && o.src == .ctx 0 && s.unitFree o && !s.warned && (s.faults8 o).isEmpty && quietB s && noneHeldB s && o.pinned.isEmpty
        && hIdx o.hodHandle == 6 && decide (o.kind = p.1) && (ob.st == .fast || ob.st == .slow)
        && (match p.1 with
          | .hodPromote => ob.st == .fast && ob.home == 0
          | .hodDemote => ob.st == .slow && ob.home == 1 && o.target.1 == 1
          | .hodDrop => s.mayDrop 6
          | .hodTrim => fld o.hodArg 31 0 ≤ ob.fill
          | .hodAppend => ob.fill + fld o.hodArg 31 0 ≤ ob.cap
          | _ => true)) := by decide +kernel

/-- Whether operation `o` of the outbound port ends, with nothing held and all that it names reached. -/
def endsB (s : State) (id : Nat) (o : Op) : Bool :=
  decide (s.findOp id = some o) && decide (o.id = id) && decide (o.src = .ctx 0) && decide (o.st = .started) && decide (o.unit = .outbound) && quietB s && noneHeldB s
    && decide s.Unarmed && (s.refs o).all (s.reaches o.src)

theorem ends_of {s : State} {id : Nat} {o : Op} (h : endsB s id o = true) : s.EndsOutbound id o := by
  simp only [endsB, Bool.and_eq_true, decide_eq_true_eq] at h
  obtain ⟨⟨⟨⟨⟨⟨⟨⟨a, b⟩, c⟩, d⟩, e⟩, f⟩, g⟩, u⟩, r⟩ := h
  exact ⟨a, b, ⟨0, c⟩, d, e, quiet_of f, noneHeld_of g, u, r⟩

/-- A command block's words: object 6 from 0 to 0x1000, 16 bytes. -/
def arcWords : List Nat := [0x100006, 0x100006, 0, 0x1000, 16, 0, 0, 0, 0, 0, 0, 1]
/-- Operation 0 of context 0 started in the outbound port. -/
def endOp (k : LKind) (pinned : List Nat) (words : List Nat := arcWords) : Op :=
  { id := 0, src := .ctx 0, kind := k, ins := {}, core := 0, off := 16, st := .started, pinned := pinned, words := words, regs := [0, 0x100006, 0, 0] }
def endState (k : LKind) (pinned : List Nat) (words : List Nat := arcWords) : State :=
  { base with objs := [(5, codeObj), (6, { dataObj with pins := 1 })], nextOp := 1, ops := [endOp k pinned words] }

theorem witness_HodEnds : (endState .hodPin [6]).EndsOutbound 0 (endOp .hodPin [6]) ∧ (endState .hodTrim []).EndsOutbound 0 (endOp .hodTrim [])
    ∧ LKind.hodPin.hodOp = true ∧ LKind.hodTrim.hodOp = true :=
  ⟨ends_of (by decide +kernel), ends_of (by decide +kernel), rfl, rfl⟩

theorem witness_ObjectMoves :
    movingState.Unarmed ∧ movingState.Quiet ∧ (movingState.obj 6).move = some { toHome := 0 } ∧ (movingState.obj 6).st ≠ .poisoned ∧ movingState.bad = []
    ∧ movingState.ops = [] ∧ recoveryState.Unarmed ∧ recoveryState.Quiet ∧ (recoveryState.obj 6).recover = some 0 ∧ (recoveryState.obj 6).st = .poisoned
    ∧ recoveryState.ops = [] ∧ heldState.Unarmed ∧ heldState.NoRecompute ∧ (heldState.findOp 0).map Op.st = some (.heldCap 999 0 0)
    ∧ fld heldState.hod.limit.toNat 47 0 < heldState.pln.cclk.toNat - 999 :=
  ⟨by decide, quiet_of (by decide), by decide, by decide, rfl, rfl, by decide, quiet_of (by decide), by decide, by decide, rfl, by decide,
    noRecompute_of (by decide), by decide, by decide⟩

/-! ## Links and messages -/

/-- A data flit of number `seq` with 248 zero bytes and CRC `crc`. -/
def flit (seq : BitVec 12) (crc : W32) : Flit := ⟨true, false, 0, 1, seq, 0, 0, List.replicate 248 0, crc⟩
/-- The flit of number `seq` with the CRC-32 of its bytes. -/
def goodFlit (seq : BitVec 12) : Flit := flit seq (BitVec.ofNat 32 (crc32 ((flit seq 0).header ++ (flit seq 0).payload)))
def badFlit : Flit := flit 9 0
def linkState : State :=
  { base with
    ports := [(0, { state := 2, width := 8 }), (2, { state := 5 })], pairs := [(0, { expect := 9, resent := some (3, 7) })] }
def trained (partner : Bool) (failed : Nat) (pport : Fin 16) : Training := ⟨partner, BitVec.ofNat 9 failed, 1, 2, pport, 7⟩

theorem witness_LinkPorts :
    linkState.Unarmed ∧ (linkState.port 0).inUse = true ∧ (goodFlit 9).fecOk = true ∧ (goodFlit 9).crcOk = true ∧ flitFields (goodFlit 9) = true
    ∧ sequenced (goodFlit 9) = true ∧ (goodFlit 9).seq = (linkState.pair (pairOf 0)).expect ∧ badFlit.crcOk = false
    ∧ ((goodFlit 11).crcOk = true ∧ (goodFlit 11).seq ≠ (linkState.pair (pairOf 0)).expect ∧ (linkState.pair (pairOf 0)).nak = false
      ∧ ((goodFlit 11).seq - (linkState.pair (pairOf 0)).expect).toNat < 2048 ∧ (linkState.pair (pairOf 0)).early = [])
    ∧ (linkState.pair (pairOf 0)).resent = some (3, 7) ∧ (∀ n, (linkState.pair (pairOf 0)).resent = some (4, n) → n < 7) := by
  refine ⟨by decide, by decide, rfl, by decide +kernel, by decide, by decide, by decide, by decide +kernel, by decide +kernel, by decide, ?_⟩
  intro n h
  have e : (linkState.pair (pairOf 0)).resent = some (3, 7) := by decide
  rw [e, Option.some.injEq, Prod.mk.injEq] at h
  exact absurd h.1 (by decide)

theorem witness_LinkTrainings :
    linkState.Unarmed ∧ (linkState.port 2).state = 5 ∧ (trained false 0 0).partner = false
    ∧ 6 ≤ popCount 9 (trained true 0x3F 0).failed.toNat ∧ popCount 9 (trained true 0x1F 0).failed.toNat < 6
    ∧ (trained true 0 3).pport.val ≠ matching 2
    ∧ (2 ≤ popCount 9 (trained true 3 0).failed.toNat ∧ popCount 9 (trained true 1 0).failed.toNat ≤ 1)
    ∧ (trained true 0 0).pport.val = matching 2 := by decide

/-- A message of `kind` from node 1 to node 0. -/
def aMsg (kind : Nat) : Msg :=
  { src := 1, dst := 0, kind := kind, course := 0, following := true, bufClass := false, epoch := 0, len := 8, tag := 7, off := 0, ctr := none
    data := [1, 2, 3, 4, 5, 6, 7, 8], coll := 0, chunk := 0, clen := 16, efmt := 0, dtd := false, hop := 1, op := 0 }

theorem witness_MessagesElsewhere :
    { aMsg 0 with epoch := 1 }.epoch ≠ paired.kst.epoch ∧ (aMsg 0).epoch = paired.kst.epoch ∧ { aMsg 0 with dst := 1 }.dst ≠ paired.arc.node := by decide

theorem arrives (s : State) (m : Msg)
    (h : decide (m.epoch = s.kst.epoch ∧ m.dst = s.arc.node ∧ s.arc.heldIn.any (fun q => q.src == m.src && msgVc q == msgVc m) = false ∧ s.Unarmed) = true) : s.Arrives m := by
  obtain ⟨a, b, c, d⟩ := of_decide_eq_true h
  exact ⟨a, b, c, d⟩

/-- A posted receive of 8 bytes into object 6 from node 1 with tag 7. -/
def recvState : State :=
  { paired with
    ops := [{ id := 3, src := .ctx 0, kind := .arcRecv, ins := {}, core := 0, off := 16, words := [0, 0x100006, 0, 128, 8, 1, 0, 0, 7], st := .waiting }]
    nextOp := 4, arc := { paired.arc with posted := [3] } }
def recvOp : Op := (recvState.findOp 3).getD { id := 9, src := .ctx 0, kind := .movFill, ins := {}, core := 0, off := 0 }
def circMsg : Msg := { aMsg 1 with tag := 0x100006, off := 128 }
def circState : State := { paired with objs := [(6, { dataObj with pins := 1 })] }
/-- The object on its way to the undercroft, and a message of its source and channel that waits for it. -/
def circHeld : State :=
  { paired with objs := [(6, { dataObj with pins := 1, st := .down, move := some { toHome := 1 } })], arc := { paired.arc with heldIn := [{ circMsg with tag := 0x100007 }] } }
def circFirst : State := { circHeld with arc := paired.arc }
/-- The same receive beside 64 sends of its unit. -/
def crowded : State :=
  { recvState with
    ops := recvState.ops ++ (List.range 64).map (fun n => { id := 4 + n, src := .ctx 0, kind := .arcSend, ins := {}, core := 0, off := 16, words := [0, 0, 0, 0, 8, 1], st := .remote })
    nextOp := 68 }

theorem witness_SendsArrive :
    recvState.Arrives (aMsg 0) ∧ recvState.recvFor (aMsg 0) = some recvOp ∧ (aMsg 0).len = recvOp.arcLen
    ∧ recvState.arcRunning (recvState.arcUnit recvOp) < 64
    ∧ (crowded.Arrives (aMsg 0) ∧ crowded.recvFor (aMsg 0) = some recvOp ∧ 64 ≤ crowded.arcRunning (crowded.arcUnit recvOp))
    ∧ (circFirst.Arrives circMsg ∧ circFirst.circTarget circMsg = true
      ∧ circFirst.reaches (.ring 0 0 0 0) { h := circMsg.tag.toNat, lo := circMsg.off, n := circMsg.data.length, wr := true } = false)
    ∧ (circMsg.epoch = circHeld.kst.epoch ∧ circMsg.dst = circHeld.arc.node ∧ circHeld.arc.heldIn.any (fun q => q.src == circMsg.src && msgVc q == msgVc circMsg) = true)
    ∧ (∀ k ∈ [LKind.arcSend, .arcRecv, .arcCirc, .arcOvor], (endState k []).EndsOutbound 0 (endOp k []))
    ∧ (recvState.refs recvOp).all (recvState.reaches recvOp.src) = true ∧ recvState.recvFor { aMsg 0 with tag := 8 } = none
    ∧ circState.Arrives circMsg ∧ circState.circTarget circMsg = true
    ∧ circState.reaches (.ring 0 0 0 0) { h := circMsg.tag.toNat, lo := circMsg.off, n := circMsg.data.length, wr := true } = true :=
  ⟨arrives _ _ (by decide), by decide +kernel, by decide +kernel, by decide +kernel, ⟨arrives _ _ (by decide +kernel), by decide +kernel, by decide +kernel⟩,
    ⟨arrives _ _ (by decide +kernel), by decide +kernel, by decide +kernel⟩, by decide +kernel, fun k hk => ends_of (by revert k; decide +kernel), by decide +kernel,
    by decide +kernel, arrives _ _ (by decide), by decide +kernel, by decide +kernel⟩

/-- A collective of 16-byte chunks on course 0, the first of its course, from object 6 at 0 to object 6 at 0x1000. -/
def collState (k : LKind) : State :=
  { paired with
    ops := [{ id := 3, src := .ctx 0, kind := k, ins := {}, core := 0, off := 16, st := .remote
              words := [0x100006, 0x100006, 0, 0x1000, 16, 0, 0, 0, 0, 0, 0, 1] }]
    nextOp := 4, arc := { paired.arc with colls := [(0, { op := 3, k := 1 })] } }
def collOp (k : LKind) : Op := ((collState k).findOp 3).getD { id := 9, src := .ctx 0, kind := .movFill, ins := {}, core := 0, off := 0 }
def collMsg (k : LKind) (chunk : Nat) : Msg := { aMsg 2 with tag := 1, coll := collCode k, chunk := chunk }

theorem witness_CollectivesEnd : ∀ k ∈ [LKind.arcRscat, .arcAgath, .arcAred], k.collective = true ∧ endsB (endState k []) 0 (endOp k []) = true := by decide +kernel

theorem witness_CollectivesArrive :
    [(LKind.arcRscat, 0), (.arcRscat, 1), (.arcAgath, 1)].all (fun p =>
      let s := collState p.1
      let m := collMsg p.1 p.2
      let o := collOp p.1
      decide (m.epoch = s.kst.epoch ∧ m.dst = s.arc.node ∧ s.arc.heldIn = [] ∧ s.Unarmed) && decide (s.arc.coll m.course = some { op := 3, k := 1 })
        && decide (m.tag.toNat = 1) && decide (s.findOp 3 = some o) && collMatches o m && o.tds.isEmpty && decide (o.kind = p.1)
        && decide ((s.arc.at o.arcCourse = p.2) = (p.2 = 0)) && (s.refs o).all (s.reaches o.src) && decide (s.bad = [])) := by decide +kernel

def orState (sent : Bool) : State :=
  { paired with arc := { paired.arc with sent := sent, orGot := if sent then [(0, 1, true)] else [] } }

theorem witness_OverflowOr :
    (orState false).Arrives { aMsg 4 with tag := 0 } ∧ (0 : W32) = (orState false).nsb.step.setWidth 32
    ∧ (orState false).arc.posOf 1 0 ≠ (orState false).arc.at 0 ∧ (orState false).arc.orGot = [] ∧ (orState true).orReady = true
    ∧ (orState true).nsb.outcome = 0 := ⟨arrives _ _ (by decide), by decide, by decide, rfl, by decide, rfl⟩

def signalMsg : Msg := { aMsg 5 with data := [5, 0x40, 0, 0, 9, 0, 0, 0] }
def sentState : State :=
  { paired with ops := [{ id := 3, src := .ctx 0, kind := .arcSend, ins := {}, core := 0, off := 16, st := .remote }], nextOp := 4 }
def hostedState : State := { paired with objs := [(6, { dataObj with hosted := true, hnode := 1 })] }
/-- The same object on its way out of footing. -/
def hostedHeld : State := { paired with objs := [(6, { dataObj with hosted := true, hnode := 1, st := .down, move := some { toHome := 1 } })] }

theorem witness_MessagesAnswered :
    paired.Arrives signalMsg ∧ fullName 0 (leAt signalMsg.data 0 2) = some (.job 5) ∧ (∀ x n, (Counter.job 5) ≠ .ctx x n)
    ∧ paired.Arrives { aMsg 8 with coll := 5 } ∧ sentState.Arrives { aMsg 8 with op := 3 } ∧ (sentState.findOp 3).map (fun o => (o.kind, o.st)) = some (.arcSend, .remote)
    ∧ hostedState.Arrives { aMsg 6 with tag := 0x100006 } ∧ hostedState.Arrives { aMsg 7 with tag := 0x100006 } ∧ hostedState.named 0x100006 = true ∧ (hostedState.obj 6).hosted = true
    ∧ (hostedState.arc.route 1).isSome = true ∧ hostedState.ownerOf { aMsg 7 with tag := 0x100006 } 8 = true ∧ hostedState.bad = []
    ∧ (∀ w, hostedState.reaches (.ring 0 0 0 0) { h := 0x100006, lo := 0, n := 8, wr := w } = true) ∧ hostedHeld.Arrives { aMsg 7 with tag := 0x100006 }
    ∧ hostedHeld.ownerOf { aMsg 7 with tag := 0x100006 } 8 = true ∧ hostedHeld.reaches (.ring 0 0 0 0) { h := 0x100006, lo := 0, n := 8, wr := true } = false :=
  ⟨arrives _ _ (by decide), by decide, (by intro x n h; cases h), arrives _ _ (by decide), arrives _ _ (by decide), by decide, arrives _ _ (by decide),
    arrives _ _ (by decide), by decide, by decide, by decide, by decide +kernel, rfl, by decide +kernel, arrives _ _ (by decide), by decide +kernel, by decide +kernel⟩

/-! ## Quarry -/

/-- A decode of stream context 3, waiting or in an engine. -/
def decodeOp (st : OpSt) : Op :=
  { id := 3, src := .ctx 0, kind := .ingDecode, ins := {}, core := 0, off := 16, regs := (decState.ingOp .ingDecode 0 ingIns).regs
    words := (decState.ingOp .ingDecode 0 ingIns).words.take 6 ++ [16, 0x100006, 16], tds := (decState.ingOp .ingDecode 0 ingIns).tds, st := st }
def quarryState (st : OpSt) (eng : Bool) : State :=
  { base with
    ops := [decodeOp st], nextOp := 4
    qry := { streams := [(3, some { desc := [], guarded := false })], queue := if eng then [] else [3], engines := if eng then [(0, some 3)] else [] } }

theorem witness_StreamsEnd :
    [(LKind.ingOpen, [0x100006, 0, 0]), (.ingClose, [])].all (fun p =>
      endsB (endState p.1 [] p.2) 0 (endOp p.1 [] p.2) && ((endState p.1 [] p.2).decodesBefore (endOp p.1 [] p.2)).isEmpty) := by decide +kernel

theorem witness_Decodes :
    (let s := quarryState .waiting false
     s.Unarmed ∧ s.engine 0 = none ∧ s.warned = false ∧ s.Quiet ∧ (decodeOp .waiting).kind = .ingDecode
      ∧ (Tab.get none s.qry.streams (decodeOp .waiting).stream).isSome = true
      ∧ s.qry.queue.findSome? (fun id => (s.findOp id).filter (fun o => !s.decoding.contains o.stream && (s.decodesBefore o).isEmpty)) = some (decodeOp .waiting)
      ∧ (s.refs (decodeOp .waiting)).all (fun r => s.named r.h) = true ∧ (s.refs (decodeOp .waiting)).all (s.reaches (decodeOp .waiting).src) = true)
    ∧ (let s := quarryState .started true
       s.Unarmed ∧ s.engine 0 = some (decodeOp .started) ∧ Tab.get none s.qry.streams (decodeOp .started).stream = some { desc := [], guarded := false }
        ∧ s.bad = [] ∧ (s.refs (decodeOp .started)).all (s.reaches (decodeOp .started).src) = true)
    ∧ (let s := quarryState .started true
       let g : Stream := { desc := [], guarded := true }
       let s' := { s with qry := { s.qry with streams := [(3, some g)] } }
       s'.Unarmed ∧ s'.engine 0 = some (decodeOp .started) ∧ Tab.get none s'.qry.streams (decodeOp .started).stream = some g) :=
  ⟨⟨by decide +kernel, by decide +kernel, by decide +kernel, quiet_of (by decide +kernel), rfl, by decide +kernel, by decide +kernel, by decide +kernel, by decide +kernel⟩,
    ⟨by decide +kernel, by decide +kernel, by decide +kernel, by decide +kernel, by decide +kernel⟩,
    by decide +kernel, by decide +kernel, by decide +kernel⟩

/-! ## Rings -/

/-- A ring entry: opcode, tag 9 and fields (first byte, bytes, value). -/
def entry (op : Nat) (l : List (Nat × Nat)) : BitVec 512 := BitVec.ofNat 512 (op + 9 * 256 ^ 4 + (l.map (fun p => p.2 * 256 ^ p.1)).foldl (· + ·) 0)

/-- Entry `e` waits in slot 0 of ring `r`, whose object has index `i`. -/
def put (s : State) (r i : Nat) (e : BitVec 512) : State :=
  { s with
    objMem := Mem.write s.objMem (objKey i 0) (entBytes e)
    hif := { s.hif with rings := [(r, { base := 0x100000 + BitVec.ofNat 32 i, log2 := 6, en := true, tail := 1, cqAddr := 0x1000 })] } }

/-- The same module, its memory with room, and objects `l` beside that of ring 0. -/
def stocked (l : List (Nat × Obj)) : State :=
  { base with objs := (1, ring0Obj) :: l, hod := { freeFast := 100, allocFast := 100, freeSlow := 100, allocSlow := 100 } }

theorem takes_of {s : State} {op : Nat} {e : BitVec 512}
    (h : (s.ring0Free op && decide (s.entryAt 0 (s.ring 0).head.toNat = some (entBytes e)) && decide (entOp e = op)) = true) : s.Takes op e := by
  simp only [Bool.and_eq_true, decide_eq_true_eq] at h
  exact ⟨h.1.1, h.1.2, h.2⟩

/-- Whether entry `e` of opcode `op` can be taken and passes the checks common to ring 0. -/
def acceptsB (s : State) (op : Nat) (e : BitVec 512) : Bool :=
  s.ring0Free op && decide (s.entryAt 0 (s.ring 0).head.toNat = some (entBytes e)) && decide (entOp e = op) && entHead e && entZeros op e
    && decide (8 ≤ s.pln.stage) && !s.pln.stopped && !s.warned

theorem accepts_of {s : State} {op : Nat} {e : BitVec 512} (h : acceptsB s op e = true) : s.Accepts op e := by
  simp only [acceptsB, Bool.and_eq_true, decide_eq_true_eq, Bool.not_eq_true'] at h
  obtain ⟨⟨⟨⟨⟨⟨⟨a, b⟩, c⟩, d⟩, f⟩, g⟩, k⟩, w⟩ := h
  exact ⟨⟨a, b, c⟩, d, f, g, k, w⟩

def ringCheck (e : BitVec 512) (stage : Nat) (stopped : Bool) : State :=
  let s := put (stocked []) 0 1 e
  { s with pln := { s.pln with stage := stage, stopped := stopped } }
def badEntry : BitVec 512 := entry 0x02 [(63, 1)]
def goodEntry : BitVec 512 := entry 0x02 [(8, 0x100006)]

theorem witness_RingChecks :
    (ringCheck badEntry 8 false).Takes 0x02 badEntry
    ∧ (ringCheck badEntry 8 false).prs.capture = .none ∧ (entHead badEntry && entZeros 0x02 badEntry) = false
    ∧ (ringCheck goodEntry 7 false).Takes 0x02 goodEntry ∧ entHead goodEntry = true ∧ entZeros 0x02 goodEntry = true
    ∧ (ringCheck goodEntry 8 true).Takes 0x02 goodEntry ∧ (ringCheck goodEntry 8 true).pln.stopped = true :=
  ⟨takes_of (by decide +kernel), rfl, by decide +kernel, takes_of (by decide +kernel), by decide +kernel, by decide +kernel,
    takes_of (by decide +kernel), rfl⟩

def createEntry : BitVec 512 := entry 0x01 [(12, 2)]
def destroyEntry : BitVec 512 := entry 0x02 [(8, 0x100006)]
def promoteEntry : BitVec 512 := entry 0x03 [(8, 0x100006)]
def demoteEntry : BitVec 512 := entry 0x04 [(8, 0x100006)]
def createState : State := put (stocked []) 0 1 createEntry
def destroyState : State := put (stocked [(6, dataObj)]) 0 1 destroyEntry
def promoteState : State := put (stocked [(6, { dataObj with st := .slow, home := 1 })]) 0 1 promoteEntry
def demoteState : State := put (stocked [(6, dataObj)]) 0 1 demoteEntry

theorem free_of {s : State} (h : s.ops = []) : s.NoneHeld ∧ s.Numbered := by
  constructor <;> intro o ho <;> rw [h] at ho <;> cases ho

theorem witness_ObjectCommands :
    (createState.Quiet ∧ createState.NoneHeld ∧ createState.Numbered ∧ createState.Accepts 0x01 createEntry ∧ createOk createEntry = true
      ∧ entAt createEntry 8 1 = 0 ∧ createState.freeIndex = some 2 ∧ entAt createEntry 12 4 ≤ createState.freeUnits (fld (entAt createEntry 10 1) 1 0))
    ∧ (destroyState.Quiet ∧ destroyState.NoneHeld ∧ destroyState.Accepts 0x02 destroyEntry ∧ entAt destroyEntry 8 4 = 0x100006
      ∧ destroyState.ringHandleOk 0x100006 = true ∧ destroyState.destroyRefused 6 = false ∧ (destroyState.obj 6).st = .fast
      ∧ destroyState.inProgress 6 = false)
    ∧ (promoteState.Quiet ∧ promoteState.NoneHeld ∧ promoteState.Accepts 0x03 promoteEntry ∧ entAt promoteEntry 8 4 = 0x100006
      ∧ promoteState.ringHandleOk 0x100006 = true ∧ (promoteState.obj 6).st = .slow ∧ (promoteState.obj 6).move = none
      ∧ promoteState.inProgress 6 = false ∧ (promoteState.obj 6).size ≤ promoteState.hod.freeFast)
    ∧ (demoteState.Quiet ∧ demoteState.NoneHeld ∧ demoteState.Accepts 0x04 demoteEntry ∧ entAt demoteEntry 8 4 = 0x100006
      ∧ demoteState.ringHandleOk 0x100006 = true ∧ entAt demoteEntry 12 1 = 0 ∧ entAt demoteEntry 14 2 = 0 ∧ (demoteState.obj 6).kind ≠ .code
      ∧ (demoteState.obj 6).st = .fast ∧ (demoteState.obj 6).home = 0 ∧ (demoteState.obj 6).pins = 0 ∧ (demoteState.obj 6).move = none ∧ demoteState.inProgress 6 = false
      ∧ (demoteState.obj 6).size ≤ demoteState.hod.freeSlow) :=
  ⟨⟨quiet_of (by decide +kernel), (free_of rfl).1, (free_of rfl).2, accepts_of (by decide +kernel), by decide +kernel⟩,
    ⟨quiet_of (by decide +kernel), (free_of rfl).1, accepts_of (by decide +kernel), by decide +kernel⟩,
    ⟨quiet_of (by decide +kernel), (free_of rfl).1, accepts_of (by decide +kernel), by decide +kernel⟩,
    ⟨quiet_of (by decide +kernel), (free_of rfl).1, accepts_of (by decide +kernel), by decide +kernel⟩⟩

def registerEntry : BitVec 512 := entry 0x05 [(8, 0x100006), (12, 2)]
def registerState : State := put (stocked [(6, dataObj)]) 0 1 registerEntry
def loadEntry : BitVec 512 := entry 0x06 [(8, 0x100006)]
/-- A code image: the header, a text region of 16 zero bytes at 256 and one entry at 272. The digest is SHA-256 of 16 zero bytes. -/
def codeHead : List Byte :=
  toBytes 16 (0x52544850 + 2 ^ 32 + 2 ^ 48 + 256 * 2 ^ 64) ++ toBytes 24 16 ++ toBytes 16 (1 + 272 * 2 ^ 64)
    ++ toBytes 32 0xbb37ec28ab2a63253b7a31ecf73c6d6f28d26cd575c89e97d59d71f7ff084737
def loadState : State :=
  let s := put (stocked [(6, dataObj)]) 0 1 loadEntry
  { s with objMem := Mem.write (Mem.write s.objMem (objKey 6 0) codeHead) (objKey 6 272) (toBytes 16 (256 + 5 * 2 ^ 64)) }

theorem witness_RegisterAndLoad :
    (registerState.Accepts 0x05 registerEntry ∧ entAt registerEntry 8 4 = 0x100006 ∧ entAt registerEntry 12 1 = 2 ∧ entAt registerEntry 13 1 = 0
      ∧ entAt registerEntry 14 1 = 0 ∧ registerState.ringHandleOk 0x100006 = true ∧ registerState.registerRefused 6 (2, 0, 0) = false)
    ∧ (loadState.Accepts 0x06 loadEntry ∧ entAt loadEntry 8 4 = 0x100006 ∧ loadState.ringHandleOk 0x100006 = true ∧ loadState.waitsFor 0x100006 = false
      ∧ (loadState.obj 6).kind = .data ∧ loadState.codeOk 6 = true ∧ (loadState.obj 6).home = 0)
    ∧ (let s := { loadState with objs := [(1, ring0Obj), (6, { dataObj with kind := .code })] }
       s.Accepts 0x06 loadEntry ∧ s.ringHandleOk 0x100006 = true ∧ (s.obj 6).kind = .code)
    ∧ (let s := { loadState with objs := [(1, ring0Obj), (6, slowObj)] }
       s.Accepts 0x06 loadEntry ∧ s.Quiet ∧ s.NoneHeld ∧ s.Numbered ∧ s.ringHandleOk 0x100006 = true ∧ (s.obj 6).kind = .data ∧ s.codeOk 6 = true
        ∧ (s.obj 6).st = .slow ∧ (s.obj 6).home = 1 ∧ (s.obj 6).move = none ∧ s.inProgress 6 = false ∧ (s.obj 6).size ≤ s.hod.freeFast) :=
  ⟨⟨accepts_of (by decide +kernel), by decide +kernel⟩, ⟨accepts_of (by decide +kernel), by decide +kernel⟩,
    ⟨accepts_of (by decide +kernel), by decide +kernel⟩, accepts_of (by decide +kernel), quiet_of (by decide +kernel), (free_of rfl).1, (free_of rfl).2, by decide +kernel⟩

/-- A job description: one module, doubling interval 1,000, version 1, MINT 1, delta chain 1, quiescence limit 100. -/
def jobDescription : List Byte :=
  toBytes 16 (0x424F4A54 + 2 ^ 32 + 77 * 2 ^ 64) ++ toBytes 64 (1000 * 2 ^ 240 + 2 ^ 288) ++ toBytes 16 (1 + 2 ^ 16 + 2 ^ 32 + 2 ^ 48)
    ++ toBytes 32 (1 + 2 ^ 96) ++ toBytes 4 100
def jobEntry : BitVec 512 := entry 0x10 [(8, 0x100006)]
def jobState : State :=
  let s := put (stocked [(6, dataObj)]) 0 1 jobEntry
  { s with objMem := Mem.write s.objMem (objKey 6 0) jobDescription, slots := [] }
def theJob : Job := { d := jobState.objRead 6 0 256 }
def simpleState (op : Nat) : State := put (stocked []) 0 1 (entry op [])

theorem witness_JobCommands :
    (jobState.Accepts 0x10 jobEntry ∧ entAt jobEntry 8 4 = 0x100006 ∧ jobState.waitsFor 0x100006 = false ∧ jobState.msn.job = false
      ∧ jobState.pln.noJob = false ∧ jobState.ringHandleOk 0x100006 = true ∧ (jobState.obj 6).kind = .data ∧ 256 ≤ (jobState.obj 6).bytes
      ∧ (jobState.jobBad theJob).min? = none ∧ jobState.topoMismatch (jobState.topology theJob) [] = none
      ∧ ((jobState.taken jobEntry).buildMap).isSome = true ∧ (jobState.taken jobEntry).freeImages.jobRoom theJob = true)
    ∧ ((simpleState 0x11).Accepts 0x11 (entry 0x11 []) ∧ (simpleState 0x11).held = false)
    ∧ ((simpleState 0x12).Accepts 0x12 (entry 0x12 []) ∧ (simpleState 0x12).prs.capture = .none)
    ∧ (simpleState 0x13).Accepts 0x13 (entry 0x13 []) :=
  ⟨⟨accepts_of (by decide +kernel), by decide +kernel⟩, ⟨accepts_of (by decide +kernel), by decide +kernel⟩,
    ⟨accepts_of (by decide +kernel), by decide +kernel⟩, accepts_of (by decide +kernel)⟩

def sourceEntry : BitVec 512 := entry 0x15 [(8, 0x100006)]
def sourceBase : State := { put (stocked [(6, dataObj)]) 0 1 sourceEntry with msn := { fw := true, job := true, busy := some (0, 9, 0, 0x14) } }

/-- An image of job 77 at step 5, with object 6 as the runtime's. -/
def savedObj : Saved := { obj := dataObj, idx := 6, cls := 3, form := 3, src := 0, units := [], bytes := [], digest := sourceBase.digest 6 }
def plainImage : Image :=
  { jobId := 77, step := 5, complete := true, ring := [1, 1, 1, 1], pos := [0, 0, 0, 0], nsb := { step := 5, interval := 1000, version := 1 }
    objs := [savedObj] }
def anImage : Image := plainImage.sealed
theorem sealed_body (m : Image) (h : List Byte) : ({ m with head := h } : Image).body = m.body := rfl
theorem sealed_offsets (m : Image) (h : List Byte) : ({ m with head := h } : Image).offsets = m.offsets := rfl
theorem sealed_header (m : Image) (h : List Byte) : ({ m with head := h } : Image).header = m.header := by
  unfold Image.header
  rw [sealed_body, sealed_offsets]
def restoreEntry : BitVec 512 := entry 0x14 [(8, 77), (16, 5)]
def restoreState : State :=
  let s := put (stocked [(6, dataObj)]) 0 1 restoreEntry
  { s with msn := { fw := true, job := true }, arc := { valid := true, ring := [1, 1, 1, 1] }, prs := { images := [anImage], jobId := 77 } }
def barrierState : State := { restoreState with prs := { restoreState.prs with restore := .nsbBarrier anImage true }, hif := {} }
def lastState : State := { base with ctxs := [(0, { st := .stopped })], prs := { restore := .lastBarrier } }
def sourceState : State := { sourceBase with prs := { restore := .sources anImage [6] } }
theorem source_digest : sourceState.digest 6 = savedObj.digest := by
  show sourceState.digest 6 = sourceBase.digest 6
  simp only [State.digest, State.objRead, State.obj, sourceState]

def continueState : State := { simpleState 0x16 with prs := { replay := some { step := 5, held := true, noref := true } } }

theorem image_ok : restoreState.manifestOk anImage = true := by
  have h : anImage.head = anImage.header := (sealed_header plainImage _).symm
  simp only [State.manifestOk, h, beq_self_eq_true, Bool.true_and]
  decide +kernel

theorem witness_RestoreCommands :
    (restoreState.Accepts 0x14 restoreEntry ∧ restoreState.Unarmed ∧ restoreState.msn.job = true
      ∧ restoreState.prs.images.find? (fun m => m.complete && m.usable && m.step.toNat == entAt restoreEntry 16 8
          && m.jobId == BitVec.ofNat 64 (entAt restoreEntry 8 8)) = some anImage ∧ restoreState.manifestOk anImage = true)
    ∧ (barrierState.Unarmed ∧ barrierState.prs.restore = .nsbBarrier anImage true ∧ barrierState.markersIn = true ∧ barrierState.warned = false
      ∧ ∃ o ∈ [(1 : BitVec 512)], nsbKey (entBytes o) ≠ nsbKey anImage.nsb.bytes)
    ∧ (lastState.prs.restore = .lastBarrier ∧ lastState.warned = false)
    ∧ (sourceState.Accepts 0x15 sourceEntry ∧ sourceState.prs.restore = .sources anImage [6] ∧ entAt sourceEntry 8 4 = 0x100006
      ∧ anImage.objs.find? (fun q => q.idx == hIdx 0x100006 && q.obj.handle.toNat == 0x100006 && [6].contains (hIdx 0x100006)) = some savedObj
      ∧ sourceState.digest 6 = savedObj.digest)
    ∧ (continueState.Accepts 0x16 (entry 0x16 []) ∧ continueState.prs.replay = some { step := 5, held := true, noref := true }) := by
  refine ⟨⟨accepts_of (by decide +kernel), rfl, rfl, List.find?_cons_of_pos (by decide +kernel), image_ok⟩, ⟨rfl, rfl, by decide +kernel, by decide +kernel, 1, by decide +kernel, by decide +kernel⟩, ⟨rfl, by decide +kernel⟩,
    ⟨accepts_of (by decide +kernel), rfl, by decide +kernel, List.find?_cons_of_pos (by decide +kernel), source_digest⟩, accepts_of (by decide +kernel), rfl⟩

/-- A START of entry 5 of code object 7 on any context, waiting in ring 5. -/
def startEntryOf (kind : Nat) : BitVec 512 := entry kind [(8, 0x100007), (12, 5), (16, 0xFFFF), (18, 2), (24, 1), (32, 2), (40, 3), (48, 4)]
def startState (kind : Nat) : State :=
  let s := put (stocked [(6, dataObj), (7, { codeObj with handle := 0x100007 })]) 5 6 (startEntryOf kind)
  { s with
    msn := { fw := true, job := true }, ctxs := []
    objMem := Mem.write (Mem.write s.objMem (objKey 7 0) codeHead) (objKey 7 272) (toBytes 16 (256 + 5 * 2 ^ 64)) }
def waitingEntry : Started := { ring := 5, count := 0, entry := startEntryOf 0x100, ctx := none }
def dispatchState : State := { startState 0x100 with hif := { (startState 0x100).hif with starts := [waitingEntry] } }

theorem witness_Starts :
    (let s := startState 0x100
     (∀ x, (s.ctx x).st ≠ .faulted) ∧ s.startsHeld = false ∧ s.nextServed = some 5 ∧ s.pln.stopped = false ∧ s.waitingStart 5 = none
      ∧ s.entryAt 5 (s.ring 5).head.toNat = some (entBytes (startEntryOf 0x100)) ∧ startOk (startEntryOf 0x100) = true ∧ s.msn.job = true
      ∧ s.entryOf (entAt (startEntryOf 0x100) 8 4) (entAt (startEntryOf 0x100) 12 4) = some 256 ∧ s.namesReserved (startEntryOf 0x100) = false
      ∧ s.pickCtx (startEntryOf 0x100) = some 0)
    ∧ (let s := startState 0x101
       s.startsHeld = false ∧ s.nextServed = some 5 ∧ s.waitingStart 5 = none ∧ s.entryAt 5 (s.ring 5).head.toNat = some (entBytes (startEntryOf 0x101))
        ∧ startOk (startEntryOf 0x101) = false)
    ∧ (let s := { dispatchState with pln := { dispatchState.pln with stopped := true } }
       s.startsHeld = false ∧ s.nextServed = some 5 ∧ s.waitingStart 5 = some waitingEntry ∧ s.pln.stopped = true)
    ∧ (dispatchState.startsHeld = false ∧ dispatchState.nextServed = some 5
      ∧ dispatchState.waitingStart 5 = some waitingEntry ∧ dispatchState.pickCtx waitingEntry.entry = some 0
      ∧ dispatchState.entryOf (entAt waitingEntry.entry 8 4) (entAt waitingEntry.entry 12 4) = some 256) := by
  refine ⟨⟨fun x h => CtxSt.noConfusion h, ?_⟩, by decide +kernel⟩
  decide +kernel

/-! ## The host interface -/

def hostState : State :=
  { base with
    hif := { rings := [(5, { base := 0x100006, log2 := 6, en := true, tail := 3, posted := 2 }), (6, { base := 0x100006 })]
             win := [(2, BitVec.ofNat 64 (2 ^ 24 + 0x100006))] } }

theorem hostUp_of {s : State} (h : (!s.hif.down && !s.stalled && decide (2 ≤ s.pln.stage)) = true) : s.HostUp := by
  simp only [Bool.and_eq_true, Bool.not_eq_true', decide_eq_true_eq] at h
  exact ⟨h.1.1, h.1.2, h.2⟩

theorem witness_RingRegisters :
    hostState.HostUp ∧ hostState.Unarmed ∧ (hostState.ring 5).en = true
    ∧ ((hostState.ring 5).tail - (hostState.ring 5).head).toNat ≤ ((64 : BitVec 16) - (hostState.ring 5).head).toNat
    ∧ ((64 : BitVec 16) - (hostState.ring 5).head).toNat ≤ hostState.ringSize 5
    ∧ hostState.ringSize 5 < ((65 : BitVec 16) - (hostState.ring 5).head).toNat
    ∧ (0x26 : W32).getLsbD 5 = true ∧ (hostState.ring 6).en = false ∧ (hostState.ring 6).drain = false ∧ hostState.ringSound 6 (fld 0x26 4 0) = true
    ∧ (0 : W32).getLsbD 5 = false
    ∧ ((2 : BitVec 16) - (hostState.ring 5).cqHead).toNat ≤ (hostState.ring 5).posted - (hostState.ring 5).consumed :=
  ⟨hostUp_of (by decide), by decide +kernel⟩

/-- The same module with every debug scope unlocked. -/
def unlockedState : State := { hostState with sealBlk := { debug := true, scope := 0xF, booted := true } }
/-- LDG_INJ_CTL: one CSUM_MISMATCH of context 0. -/
def armValue : W64 := BitVec.ofNat 64 (0x0501 + 0x0400 * 2 ^ 16 + 2 ^ 32 + 2 ^ 40)

theorem witness_RegisterWrites :
    hostState.HostUp ∧ hostState.unlocked 2 = false ∧ hostState.unlocked 0 = false ∧ unlockedState.HostUp ∧ unlockedState.unlocked 2 = true
    ∧ armValue.getLsbD 40 = true ∧ injectable.contains (fld armValue.toNat 15 0) = true ∧ injSource (fld armValue.toNat 15 0) (fld armValue.toNat 31 16) = true
    ∧ fld armValue.toNat 39 32 ≠ 0 ∧ unlockedState.unlocked 0 = true ∧ unlockedState.unlocked 1 = true ∧ barAligned 0xB00028 3 = false
    ∧ barAligned 0xB00028 8 = true ∧ (∃ reg, ClearReg 0xE00008 3 reg) :=
  ⟨hostUp_of (by decide), by decide, by decide, hostUp_of (by decide), by decide, by decide, by decide +kernel, by decide, by decide, by decide, by decide, by decide,
    by decide, _, .kst⟩

/-- One read through BAR 2 is held. -/
def readOp : Op := { id := 4, src := .host, kind := .hostRead, ins := {}, core := 0, off := 0, words := [4, 0x100006, 0, 8], st := .heldObj 6 0 }
def heldRead : State := { hostState with ops := [readOp], nextOp := 5 }

theorem witness_HostAccesses :
    (hostState.HostUp ∧ hostState.Unarmed ∧ hostState.Quiet ∧ hostState.bad = []
      ∧ hostState.window 2 0xFFF8 8 false = some { h := 0x100006, lo := 0xFFF8, n := 8, wr := false }
      ∧ hostState.window 2 0xFFF8 8 true = some { h := 0x100006, lo := 0xFFF8, n := 8, wr := true }
      ∧ hostState.bar2Ok { h := 0x100006, lo := 0xFFF8, n := 8, wr := false } = true
      ∧ hostState.reaches .host { h := 0x100006, lo := 0xFFF8, n := 8, wr := true } = true
      ∧ hostState.behind { h := 0x100006, lo := 0xFFF8, n := 8, wr := true } = false
      ∧ hostState.behind { h := 0x100006, lo := 0xFFF8, n := 8, wr := false } = false
      ∧ hostState.reaches .host { h := 0x100006, lo := 0xFFF8, n := 8, wr := false } = true
      ∧ (hostState.obj 6).kind ≠ .code ∧ (hostState.obj 6).home ≠ 2 ∧ hostState.captureHolds 6 = false ∧ bitOf (Tab.get 0 hostState.hif.win 3).toNat 24 = false)
    ∧ (heldRead.ops = [readOp] ∧ readOp.kind = .hostRead ∧ readOp.words = [4, 0x100006, 0, 8]
      ∧ ∀ x, (heldRead.ctx x).wait ≠ .fetch ∧ (heldRead.ctx x).wait ≠ .held)
    ∧ hostState.hif.down = false ∧ (4 : BitVec 4).toNat ∈ [1, 2, 4, 8] ∧ 1 ≤ (7 : BitVec 4).toNat :=
  ⟨⟨hostUp_of (by decide), rfl, quiet_of (by decide), by decide +kernel⟩, ⟨rfl, rfl, rfl, resting_of (by decide)⟩, by decide⟩

/-! ## Preservation -/

def prsState (c : Capture) (taint : Bool) : State :=
  { base with ctxs := [(0, { st := .stopped })], nsb := { taint := taint }, prs := { capture := c, bvalid := true, mint := 1 }, msn := { fw := true, job := true } }
def drainState : State := { base with prs := { staged := some { jobId := 77 }, jobId := 77, drain := 9 } }
def replayState (v : Verdict) : State := { base with prs := { replay := some { step := 0, verdict := some v } } }

theorem witness_Captures :
    ((∀ c t, (prsState c t).warned = false ∧ (prsState c t).pln.stopped = false ∧ (prsState c t).msn.dead = false)
      ∧ (prsState (.quiesce 1) false).prs.capture = .quiesce 1 ∧ (prsState (.quiesce 1) false).quiescent = true)
    ∧ ((prsState (.barrier 1) true).prs.capture = .barrier 1 ∧ (prsState (.barrier 1) true).quiescent = true
      ∧ (prsState (.barrier 1) true).nsb.taint = true
      ∧ (prsState (.barrier 1) true).prs.pendingSnap = none)
    ∧ ((prsState (.barrier 1) false).quiescent = true ∧ (prsState (.barrier 1) false).nsb.taint = false ∧ (prsState (.barrier 1) false).mirrorDue 1 = true ∧ (prsState (.barrier 1) false).snapDue 1 = false
      ∧ [(⟨false, false, 0⟩ : CaptureInfo)].all (fun o => !o.taint) = true)
    ∧ ((prsState (.saving 1 true false) false).prs.capture = .saving 1 true false ∧ (prsState (.saving 1 true false) false).Unarmed
      ∧ (prsState (.saving 1 true false) false).bad = []
      ∧ (prsState (.saving 1 true false) false).captureRefs.all ((prsState (.saving 1 true false) false).reaches (.ring 0 0 0 0)) = true)
    ∧ (drainState.prs.staged = some { jobId := 77 } ∧ drainState.prs.capture = .none ∧ drainState.prs.jobId = 77)
    ∧ ((replayState .matches).prs.replay = some { step := 0, verdict := some .matches }
      ∧ (replayState .differs).prs.replay = some { step := 0, verdict := some .differs }) :=
  ⟨⟨fun _ _ => ⟨rfl, rfl, rfl⟩, by decide +kernel⟩, by decide +kernel⟩

/-! ## The ledger -/

def aRec : Rec :=
  { seq := 0, power := 0, step := 0, cclk := 0, src := 0, code := 0x0501, sev := 2, coal := false, inj := false, rep := 1, pay := [] }
def ldgState : State :=
  { base with
    ldg := { staged := [{ rcd := aRec, pool := .general, written := false }], budgets := [(3, 7)], dropFirst := some (0x0501, 0x0400), next := 1
             programs := [{ area := .ring, unit := 0, recs := [aRec] }] } }

theorem witness_LedgerUpkeep :
    ldgState.ldg.staged.any (fun q => !q.written) = true ∧ { ldgState.ldg with dropFirst := none }.staged.any (fun q => !q.written) = true
    ∧ base.ldg.staged.any (fun q => !q.written) = false ∧ base.ldg.dropFirst = none ∧ base.ldg.programs = [] ∧ ldgState.ldg.dropFirst = some (0x0501, 0x0400) ∧ ldgState.ldg.room .general = true
    ∧ ldgState.ldg.programs = [{ area := .ring, unit := 0, recs := [aRec] }] ∧ Area.tail ≠ Area.ring ∧ Area.cornerstone ≠ Area.ring := by decide +kernel

/-! ## Start-up -/

/-- A module at the end of start-up step `n`. -/
def atStage (n : Nat) : State :=
  { State.reset with
    pln := { stage := n, lock := true, power := true, groups := if n ≤ 2 then 0 else 8 }, sealBlk := { loaded := decide (1 ≤ n), booted := decide (1 ≤ n) }
    msn := { fw := decide (1 ≤ n) } }
/-- The same, its memories trained. -/
def trainedAt (n : Nat) : State := { atStage n with ftgStacks := (List.range 8).map (fun i => (i, { train := 1 })), ucf := { train := 1 } }
def rising : State := { atStage 3 with pln := { (atStage 3).pln with groups := 7 } }

theorem witness_StartUp :
    (State.reset.pln.lock = false ∧ State.reset.pln.off = false)
    ∧ ((atStage 0).stepDue 1 = true ∧ (atStage 0).sealBlk.loaded = false ∧ (atStage 0).Unarmed)
    ∧ ((atStage 1).stepDue 2 = true ∧ (atStage 1).sealBlk.booted = true) ∧ (atStage 2).stepDue 3 = true
    ∧ (3 ≤ rising.pln.stage ∧ rising.pln.groups < 8 ∧ rising.warned = false ∧ rising.pln.stopped = false) := by decide

theorem witness_StartUpMemory :
    ((atStage 3).stepDue 4 = true ∧ (atStage 3).pln.groups = 8)
    ∧ ((atStage 3).Unarmed ∧ (atStage 3).ucf.train = 0 ∧ (atStage 3).pln.lock = true ∧ (atStage 3).pln.warn = false ∧ (atStage 3).warned = false)
    ∧ { (atStage 4) with ucf := { test := true } }.ucf.test = true
    ∧ ((trainedAt 4).stepDue 5 = true ∧ (trainedAt 4).memoryTrained = true)
    ∧ ((trainedAt 5).stepDue 6 = true ∧ (trainedAt 5).pln.noJob = false ∧ (trainedAt 5).Unarmed)
    ∧ ((trainedAt 6).stepDue 7 = true ∧ (trainedAt 6).ucf.train = 1 ∧ (trainedAt 6).ucf.test = false ∧ (trainedAt 6).memoryTrained = true)
    ∧ (trainedAt 7).stepDue 8 = true := by decide +kernel

/-! ## Supply and sensors -/

def warnState (recent : Nat) : State := { base with pln := { base.pln with recent := recent } }
def warnedState (released : Bool) : State := { base with pln := { base.pln with warn := true, hold := true, released := released } }

theorem witness_Supply :
    ((warnState 1).pln.lock = true ∧ (4499 : BitVec 16) < 4500 ∧ (4099 : BitVec 16) < 4100 ∧ (warnState 1).Unarmed ∧ (warnState 1).pln.recent < 2)
    ∧ 2 ≤ (warnState 2).pln.recent ∧ (warnedState false).pln.warn = true ∧ (warnedState true).pln.released = true
    ∧ base.pln.off = false := by decide

theorem witness_Sensors : 3 ≤ base.pln.stage ∧ base.pln.lock = true ∧ base.Unarmed := by decide

/-! ## Seal and gauge -/

theorem serves_of {s : State} (h : (s.gaugeUp && !s.sealBlk.bootFail) = true) : s.GaugeServes := by
  simp only [Bool.and_eq_true, Bool.not_eq_true'] at h
  exact ⟨h.1, h.2⟩

def signingState : State := { base with sealBlk := { signing := some (.i3c, [1, 2, 3]) } }
def calibrated : State := { base with gge := { slots := some (⟨1, true, ⟨none, none, none, none⟩⟩, ⟨2, true, ⟨none, none, none, none⟩⟩) } }

theorem witness_Management :
    base.GaugeServes ∧ base.sealBlk.signing = none ∧ signingState.GaugeServes ∧ signingState.sealBlk.signing = some (.i3c, [1, 2, 3])
    ∧ base.Unarmed ∧ unlockedState.GaugeServes ∧ unlockedState.unlocked 3 = true ∧ calibrated.GaugeServes ∧ calibrated.gge.read.isSome = true :=
  ⟨serves_of (by decide), rfl, serves_of (by decide), rfl, rfl, serves_of (by decide), by decide, serves_of (by decide), by decide⟩

theorem witness_FirmwareAndDebug :
    base.GaugeServes ∧ base.Unarmed ∧ leAt (List.replicate 9 1) 8 1 ≤ 64
    ∧ 64 < leAt (List.replicate 9 65) 8 1 ∧ base.sealBlk.updated = [] ∧ { base.sealBlk with updated := [1] }.updated ≠ []
    ∧ { base.sealBlk with verified := true }.verified = true ∧ base.sealBlk.verified = false ∧ base.unlocked 0 = false
    ∧ unlockedState.GaugeServes ∧ unlockedState.unlocked 0 = true ∧ 2 ≤ unlockedState.pln.stage
    ∧ fld (0x10000000000 : W64).toNat 63 50 = unlockedState.arc.node.toNat ∧ localOk (fld (0x10000000000 : W64).toNat 49 0) = true
    ∧ 0 / 0x10000 ≠ 0x60 ∧ unlockedState.barRead 0 4 = some 0x4B015410 :=
  ⟨serves_of (by decide), by decide, by decide, by decide, by decide, by decide, by decide, by decide, by decide, serves_of (by decide), by decide⟩

/-- Object 6 placed on its page, and the address of its first byte: a write by the debug port reaches it. -/
def placedState : State := { unlockedState with objs := [(6, dataObj)] }

theorem page_size : dataObj.pageBytes = 65536 := by decide

theorem page_regions : homeRegions dataObj.home - max 1 (65536 / 2 ^ 21) + 1 = 392256 := by decide

theorem page_part : 2 ^ 21 / 65536 = 32 := by decide

theorem page_place (b v k n m : Nat) (h : n < 2 ^ 21) (hb : b = 0) (hm : 2 ^ 21 / n = m) :
    b + v % k * 2 ^ 21 + (if n < 2 ^ 21 then v / k % (2 ^ 21 / n) * n else 0) = v % k * 2 ^ 21 + v / k % m * n := by
  rw [if_pos h, hm, hb, Nat.zero_add]

theorem page_form (o : Obj) (j : Nat) (n k m : Nat) (h0 : o.pageBytes = n)
    (hk : homeRegions o.home - max 1 (n / 2 ^ 21) + 1 = k) (h : n < 2 ^ 21) (hb : homeBase o.home = 0)
    (hm : 2 ^ 21 / n = m) : ∃ v, o.pageAddr j = v % k * 2 ^ 21 + v / k % m * n := by
  subst h0 hk hm
  exact ⟨_, page_place _ _ _ _ _ h hb rfl⟩

/-- Wherever its page is placed, the object lies in the local footing, below its side table. -/
theorem page_low : dataObj.pageAddr 0 < 0xBF88000000 := by
  obtain ⟨v, e⟩ := page_form dataObj 0 _ _ _ page_size page_regions (by decide) rfl page_part
  have := Nat.mod_lt v (show 0 < 392256 by decide)
  have := Nat.mod_lt (v / 392256) (show 0 < 32 by decide)
  omega

theorem witness_PortWrites :
    (dataObj.pageAddr 0 < 2 ^ 50 ∧ localOk (dataObj.pageAddr 0) = true ∧ inTable (dataObj.pageAddr 0) = false ∧ inSide (dataObj.pageAddr 0) = false)
    ∧ placedState.ownerAt (dataObj.pageAddr 0) = some (6, 0) ∧ bitOf (placedState.badBlock 6 0) 17 = false
    ∧ inTable 0xBF88000000 = true ∧ localOk 0xBF88000000 = true
    ∧ (inTable 0x10000000000 = false ∧ inSide 0x10000000000 = false ∧ { unlockedState with objs := [] }.ownerAt 0x10000000000 = none) := by
  have l := page_low
  refine ⟨⟨by omega, by simp [localOk]; omega, by simp [inTable]; omega, by simp [inSide]; omega⟩, ?_, by decide, by decide, by decide, by decide, by decide,
    List.findSome?_nil⟩
  have p : dataObj.placed = true := by decide
  have n : dataObj.pages = 1 := by decide
  have b : 0 < dataObj.pageBytes := by decide
  simp [State.ownerAt, placedState, p, n, b]

/-! ## The invariant -/

theorem witness_StepKeepsInvariant : base.Inv ∧ (∃ t, step base = .next t) := by
  refine ⟨⟨⟨by decide, by decide, by decide, by decide⟩, ?_⟩, _, rfl⟩
  intro o h
  cases h

/-! ## Worked examples of the spec -/

/-- 0.3 narrowed to GE3 by SR with the two random words of the example after R54. -/
theorem test_sr_r54 : (narrowVal .ge3 (.sr 0x2F000000) (val32 0x3E99999A)).1 = 3 ∧ (narrowVal .ge3 (.sr 0xC0000000) (val32 0x3E99999A)).1 = 2 := by
  decide +kernel
/-- Block sums 32, 4 and 1.5 into 2^25 (the example after R58). -/
theorem test_blocks_r58 : accBlock (accBlock (accBlock 0x4C000000 (.fin false 32 0) 0) (.fin false 4 0) 0) (.fin false 3 (-1)) 0 = 0x4C000009 := by
  decide +kernel
/-- The combining of two parts, 2^25 and 3 (the example after R61). -/
theorem test_split_r61 : fadd32 .rne (fadd32 .rne 0 0x4C000000) 0x40400000 = 0x4C000001 := by decide +kernel
/-- The scale and the codes of the example after R73: 0.0371, 0.01 and −0.0052 in FP4 E2M1. -/
theorem test_block_r73 :
    scaleCode .fp4 false (val32 0x3D17F62B) = 0x78 ∧ (narrowVal .fp4 .rne ((val32 0x3D17F62B).scale 7)).1 = 6
    ∧ (narrowVal .fp4 .rne ((val32 0x3C23D70A).scale 7)).1 = 3 ∧ (narrowVal .fp4 .rne ((val32 0xBBAA64C3).scale 7)).1 = 9
    ∧ scaleCode .ge3 true (val32 0x4144CCCD) = 0x7F ∧ narrowVal .ge3 (.sr 0) (val32 0x4144CCCD) = (7, true) := by decide +kernel
/-- The loss scale of the example after R79. -/
theorem test_scale_r79 :
    (({ lstep := 14, clean := 999, interval := 1000, outcome := 1 } : Nsb).stepupd.lnext, ({ lstep := 14, clean := 999, interval := 1000, outcome := 1 } : Nsb).stepupd.clean) = (15, 0)
    ∧ ({ lstep := 15, interval := 1000, outcome := 2 } : Nsb).stepupd.lnext = 14
    ∧ (({ lstep := 14, interval := 1000, outcome := 1 } : Nsb).stepupd.lnext, ({ lstep := 14, interval := 1000, outcome := 1 } : Nsb).stepupd.clean) = (14, 1) := by decide
/-- Philox-4×32-10 of zeros, as its authors publish it (R51). -/
theorem test_philox : philox 10 (0, 0, 0, 0) 0 0 = (0x6627E8D5, 0xE169C58D, 0xBC57AC4C, 0x9B00DBD8) := by decide +kernel
/-- The check value of CRC-32C, of the digits 1 to 9. -/
theorem test_crc32c : crc32c [0x31, 0x32, 0x33, 0x34, 0x35, 0x36, 0x37, 0x38, 0x39] = 0xE3069283 := by decide +kernel
/-- SHA-256 of the letters abc, as FIPS 180-4 gives it. -/
theorem test_sha256 : ofBytes (sha256 [0x61, 0x62, 0x63]).reverse = 0xBA7816BF8F01CFEA414140DE5DAE2223B00361A396177A9CB410FF61F20015AD := by decide +kernel
/-- An SCA.ADD that wraps writes the low 64 bits; one whose destination is s0 writes nothing. -/
theorem test_add_wraps : ((match exec (.scaAdd 0 (word [(95, 1), (90, 1), (0, 1)] 1)) (loaded [(1, 2 ^ 64 - 1)] []) with
    | .next t => t
    | _ => State.reset).ctx 0).sr = [] := by decide +kernel

/-- The first operation of every class of Photer, by its word (R119). -/
theorem test_classes : (List.range 11).map (fun c => (Photer.decode 0 .ok (BitVec.ofNat 128 (c * 2 ^ 124))))
    = [some (.ctlNop 0 {}), some (.scaAdd 0 {}), some (.movLdt 0 {}), some (.matFwd 0 {}), some (.vecAdd 0 {}), some (.attFwd 0 {}), some (.synSignal 0 {}),
        some (.arcRscat 0 {}), some (.hodPin 0 {}), some (.numRd 0 {}), some (.ingOpen 0 {})] := by decide +kernel

/-! ## Ill-formed commands -/

theorem test_wf_accepts : (Instr.ctlNop 0 {}).wf = true ∧ (Instr.sendArrival (aMsg 0)).wf = true ∧ (Instr.bar2Read 0 0 8 []).wf = true
    ∧ (Instr.debugPortAccess (.readReg 8 8)).wf = true ∧ (Instr.regionEmpty 0).wf = true ∧ (Instr.jobStart 0 [⟨0, true, 1, #v[0, 0, 0, 0]⟩]).wf = true := by decide

theorem test_wf_detect : (Instr.longOpComplete 0 [.spad true (2 ^ 24)]).wf = false ∧ (Instr.hodMoveComplete 0 [.mtrCorr (2 ^ 50)]).wf = false
    ∧ (Instr.scrub aRow [.mtrClean (2 ^ 50)]).wf = false ∧ (Instr.decodeComplete 0 [.mtrDirty 0 0 (2 ^ 28)]).wf = false
    ∧ (Instr.bar2Read 0 0 8 [.mtrCombine (2 ^ 50)]).wf = false ∧ (Instr.scrub aRow [.ftgCorr 0 (2 ^ 50)]).wf = false
    ∧ (Instr.scrub aRow [.ftgUncorr 0 0 (2 ^ 28)]).wf = false ∧ (Instr.scrub aRow [.ucfCorr 0]).wf = false
    ∧ (Instr.scrub aRow [.ucfUncorr (2 ^ 40) 0 (2 ^ 28)]).wf = false ∧ (Instr.scrub aRow [.side 0 true]).wf = false ∧ (Instr.scrub aRow [.csum 0 (2 ^ 28)]).wf = false
    ∧ (Instr.scrub aRow [.csumTwice 0 (2 ^ 28)]).wf = false := by decide

theorem test_wf_message : (Instr.sendArrival (aMsg 1)).wf = false ∧ (Instr.circulationArrival { aMsg 1 with off := 2 ^ 40 }).wf = false
    ∧ (Instr.reductionPartialArrival ⟨{ aMsg 2 with len := 2 ^ 40 }, []⟩).wf = false ∧ (Instr.gatherArrival (aMsg 2)).wf = false
    ∧ (Instr.orContributionArrival (aMsg 3)).wf = false ∧ (Instr.remoteSignalArrival (aMsg 4)).wf = false ∧ (Instr.completionArrival (aMsg 5)).wf = false
    ∧ (Instr.peerReadRequest ⟨aMsg 7, []⟩).wf = false ∧ (Instr.peerData (aMsg 6)).wf = false := by decide

theorem test_wf_ranges : (Instr.regionEmpty 393216).wf = false ∧ (Instr.regionEmpty (2 ^ 20 + 524288)).wf = false
    ∧ (Instr.jobStart 0 [⟨0, true, 1, #v[1024, 0, 0, 0]⟩]).wf = false ∧ (Instr.w1cClear (.bar0 2) 0 0).wf = false ∧ (Instr.w1cClear (.bar0 (2 ^ 26)) 0 0).wf = false
    ∧ (Instr.ctlNop 0 { found := [.spad true (2 ^ 24)] }).wf = false ∧ (Instr.operationStart 0 ⟨.move, [.spad true (2 ^ 24)]⟩).wf = false
    ∧ (Instr.restore ⟨0, [.csum 0 0]⟩).wf = false ∧ (Instr.restore ⟨0, [.flash (2 ^ 64)]⟩).wf = false ∧ (Instr.softRepair ⟨aRow, [.csum 0 (2 ^ 28)]⟩).wf = false
    ∧ (Instr.registerWrite .host 4 8 0).wf = false ∧ (Instr.registerWrite .host 0 2 0).wf = false ∧ (Instr.registerWrite .host (2 ^ 26) 4 0).wf = false
    ∧ (Instr.bar2Read 0 0 0 []).wf = false ∧ (Instr.bar2Read 0 (2 ^ 30 - 1) 2 []).wf = false ∧ (Instr.bar2Read 0 0 4097 []).wf = false
    ∧ (Instr.bar2Write 0 0 ⟨⟨[], false⟩, []⟩).wf = false ∧ (Instr.bar2Write 0 (2 ^ 30 - 1) ⟨⟨[0, 0], false⟩, []⟩).wf = false
    ∧ (Instr.debugPortAccess (.readReg 2 4)).wf = false ∧ (Instr.debugPortAccess (.writeReg 0 2 0)).wf = false := by decide

theorem test_wf_lists : (Instr.computeRailUp [1, 1]).wf = false ∧ (Instr.footingTraining [] [1, 1]).wf = false ∧ (Instr.patternTestDone [(1, 0), (1, 1)]).wf = false
    ∧ (Instr.repairReplay [aRow, aRow]).wf = false ∧ (Instr.getCertificate .i3c 8 0 0).wf = false ∧ (Instr.getCertificate .i3c 0 0 65536).wf = false
    ∧ (Instr.getMeasurements .i3c 256 none).wf = false ∧ (Instr.firmwareUpdateWrite 0 []).wf = false
    ∧ (Instr.sensorReading (Vector.replicate 96 (some 32768)) 0 ⟨0, 0, #v[0, 0, 0, 0], #v[0, 0, 0, 0]⟩).wf = false := by decide +kernel

theorem test_wf_lengths (l : List (BitVec 512)) (k : List CaptureInfo) (v : List Verdict) (d : List Byte) (h1 : 16383 < l.length) (h2 : 16383 < k.length)
    (h3 : 16383 < v.length) (h4 : 8192 + 2 ^ 24 < d.length) (m : Msg) (h6 : 262144 < m.data.length) :
    (Instr.restoreBarrier ⟨l, []⟩).wf = false ∧ (Instr.captureBarrier ⟨k, []⟩).wf = false ∧ (Instr.replayVerdict v).wf = false
    ∧ (Instr.firmwareUpdateWrite 1 d).wf = false ∧ (Instr.bar2Write 0 0 ⟨⟨d, false⟩, []⟩).wf = false ∧ (Instr.sendArrival m).wf = false := by
  simp only [Instr.wf, Msg.wf]
  refine ⟨?_, ?_, ?_, ?_, ?_, ?_⟩ <;> simp <;> omega

end Sys2Proof.Tests
end

section
/-! PROOF. The scratchpad byte by byte: what a list of writes leaves at an address, and the words that stand in rows of FP32 values (R6, R94, R98). -/

namespace Sys2Proof.Machine

/-! ## Little-endian words -/

@[simp] theorem toBytes_length (n v : Nat) : (toBytes n v).length = n := by
  induction n generalizing v with
  | zero => rfl
  | succ n ih => simp [toBytes, ih]

/-- The bytes of a number spell it, modulo their span (R6). -/
theorem ofBytes_toBytes (n v : Nat) : ofBytes (toBytes n v) = v % 256 ^ n := by
  induction n generalizing v with
  | zero => simp [toBytes, ofBytes, Nat.mod_one]
  | succ n ih =>
    calc ofBytes (toBytes (n + 1) v) = v % 256 + 256 * (v / 256 % 256 ^ n) := by rw [toBytes, ofBytes, ih, BitVec.toNat_ofNat]
      _ = v % 256 ^ (n + 1) := by rw [Nat.pow_succ 256 n, Nat.mul_comm (256 ^ n), Nat.mod_mul]

theorem ofBytes_toBytes_word (v : W32) : ofBytes (toBytes 4 v.toNat) = v.toNat := by
  rw [ofBytes_toBytes]
  exact Nat.mod_eq_of_lt v.isLt

/-- A word of four bytes read whole. -/
theorem leAt_four (bs : List Byte) (h : bs.length = 4) : leAt bs 0 4 = ofBytes bs := by
  rw [leAt, List.drop_zero, ← h, List.take_length]

/-! ## The byte at an address -/

/-- The scratchpad byte of core `k` at address `x`. -/
def State.spadByte (s : State) (k x : Nat) : Byte := Tab.get 0 s.spad (spadKey k x)

@[simp] theorem State.spadRead_length (s : State) (k a n : Nat) : (s.spadRead k a n).length = n := Mem.read_length ..

theorem State.spadRead_getD {s : State} (h : Mem.wf s.spad = true) (k a n j : Nat) (hj : j < n) :
    (s.spadRead k a n).getD j 0 = s.spadByte k (a + j) := by
  rw [State.spadRead, Mem.read_getD _ _ _ _ h hj, State.spadByte, spadKey, spadKey, Nat.add_assoc]

/-- A range that holds these bytes reads as them. -/
theorem State.spadRead_eq {s : State} (h : Mem.wf s.spad = true) (k a : Nat) (bs : List Byte)
    (hb : ∀ j < bs.length, s.spadByte k (a + j) = bs.getD j 0) : s.spadRead k a bs.length = bs := by
  refine List.ext_getElem (by simp) fun j h1 h2 => ?_
  have e := (State.spadRead_getD h k a bs.length j h2).trans (hb j h2)
  simpa [List.getD_eq_getElem?_getD, h1, h2] using e

/-- A part of a range read is a read of that part. -/
theorem State.spadRead_slice {s : State} (h : Mem.wf s.spad = true) (k a : Nat) {n i m : Nat} (hm : i + m ≤ n) :
    ((s.spadRead k a n).drop i).take m = s.spadRead k (a + i) m := by
  have hl : (((s.spadRead k a n).drop i).take m).length = m := by simp; omega
  have e := State.spadRead_eq h k (a + i) (((s.spadRead k a n).drop i).take m) (fun j hj => by
    rw [hl] at hj
    have hr := State.spadRead_getD h k a n (i + j) (by omega)
    rw [Nat.add_assoc, ← hr]
    simp [List.getD_eq_getElem?_getD, hj])
  rw [hl] at e
  exact e.symm

/-- A word whose four bytes stand in the scratchpad. -/
theorem State.word_of_bytes {s : State} (h : Mem.wf s.spad = true) (k a : Nat) (v : W32)
    (hb : ∀ j < 4, s.spadByte k (a + j) = (toBytes 4 v.toNat).getD j 0) : leAt (s.spadRead k a 4) 0 4 = v.toNat := by
  have e := State.spadRead_eq h k a (toBytes 4 v.toNat) (by simpa using hb)
  rw [toBytes_length] at e
  rw [e, leAt_four _ (toBytes_length ..), ofBytes_toBytes_word]

/-- A word whose four bytes are those of another state reads as in that state. -/
theorem State.word_congr {s u : State} (hs : Mem.wf s.spad = true) (hu : Mem.wf u.spad = true) (k a : Nat)
    (hb : ∀ j < 4, u.spadByte k (a + j) = s.spadByte k (a + j)) : leAt (u.spadRead k a 4) 0 4 = leAt (s.spadRead k a 4) 0 4 := by
  have e := State.spadRead_eq hu k a (s.spadRead k a 4) (fun j hj => by
    rw [State.spadRead_length] at hj
    rw [hb j hj, State.spadRead_getD hs k a 4 j hj])
  rw [State.spadRead_length] at e
  rw [e]

/-! ## What writes leave at an address -/

/-- The byte that a write leaves at address `x` of core `k`, where `old` stood. -/
def Wr.byte (k x : Nat) (old : Byte) : Wr → Byte
  | .spad j a bs => if spadKey j a ≤ spadKey k x ∧ spadKey k x < spadKey j a + bs.length then bs.getD (spadKey k x - spadKey j a) 0 else old
  | _ => old

theorem State.spadByte_wr (s : State) (w : Wr) (k x : Nat) : (s.wr w).spadByte k x = w.byte k x (s.spadByte k x) := by
  cases w with
  | spad j a bs => exact Mem.get_write ..
  | _ => rfl

/-- Applied writes leave at an address what they leave one after the other. -/
theorem State.spadByte_applyEff (s : State) (e : Eff) (k x : Nat) :
    (s.applyEff e).spadByte k x = e.wrs.foldl (Wr.byte k x) (s.spadByte k x) := by
  have h : ∀ (l : List Wr) (s : State), (l.foldl State.wr s).spadByte k x = l.foldl (Wr.byte k x) (s.spadByte k x) := fun l => by
    induction l with
    | nil => exact fun s => rfl
    | cons w l ih => exact fun s => by rw [List.foldl_cons, List.foldl_cons, ih, State.spadByte_wr]
  exact h e.wrs s

theorem State.spad_wf_wr (s : State) (w : Wr) (h : Mem.wf s.spad = true) : Mem.wf (s.wr w).spad = true := by
  cases w with
  | spad k a bs => exact s.spadWrite_wf k a bs h
  | _ => exact h

theorem State.spad_wf_applyEff (s : State) (e : Eff) (h : Mem.wf s.spad = true) : Mem.wf (s.applyEff e).spad = true :=
  List.foldlRecOn (motive := fun t : State => Mem.wf t.spad = true) e.wrs State.wr h (fun t ht w _ => t.spad_wf_wr w ht)

/-- A write on the core of the address. -/
theorem Wr.byte_spad (k a x : Nat) (bs : List Byte) (old : Byte) :
    Wr.byte k x old (.spad k a bs) = if a ≤ x ∧ x < a + bs.length then bs.getD (x - a) 0 else old := by
  have e : spadKey k x - spadKey k a = x - a := by unfold spadKey; omega
  rw [Wr.byte, e]
  refine if_congr ?_ rfl rfl
  unfold spadKey
  omega

theorem Wr.byte_spad_outside {k a x : Nat} {bs : List Byte} (old : Byte) (h : x < a ∨ a + bs.length ≤ x) :
    Wr.byte k x old (.spad k a bs) = old := by
  rw [Wr.byte_spad, if_neg (by omega)]

theorem Wr.byte_spad_inside {k a j : Nat} {bs : List Byte} (old : Byte) (h : j < bs.length) :
    Wr.byte k (a + j) old (.spad k a bs) = bs.getD j 0 := by
  rw [Wr.byte_spad, if_pos ⟨by omega, by omega⟩, Nat.add_sub_cancel_left]

/-- Of the steps of a fold over `0` to `n - 1`, only step `r` changes anything. -/
theorem foldl_range_single {β : Type} (g : β → Nat → β) (b : β) {n r : Nat} (hr : r < n) (h : ∀ i < n, i ≠ r → ∀ b, g b i = b) :
    (List.range n).foldl g b = g b r := by
  induction n with
  | zero => omega
  | succ n ih =>
    rw [List.range_succ, List.foldl_append, List.foldl_cons, List.foldl_nil]
    by_cases hn : r = n
    · subst hn
      have e : (List.range r).foldl g b = b :=
        List.foldlRecOn (motive := fun c => c = b) (List.range r) g rfl (fun c hc i hi => by
          have hi := List.mem_range.1 hi
          rw [h i (by omega) (by omega), hc])
      rw [e]
    · rw [ih (by omega) (fun i hi => h i (by omega)), h n (by omega) (fun e => hn e.symm)]

/-- A row ends before every later row begins. -/
theorem row_end_le {p q : Nat} (step : Nat) (h : p < q) : p * step + step ≤ q * step := by
  have := Nat.mul_le_mul_right step h
  rwa [Nat.succ_mul] at this

/-- Two rows at a distance of at least their length share no byte. -/
theorem rows_apart {a step r i x : Nat} (hi : i ≠ r) (h1 : a + r * step ≤ x) (h2 : x < a + r * step + step) :
    x < a + i * step ∨ a + i * step + step ≤ x := by
  rcases Nat.lt_or_gt_of_ne hi with h | h
  · have := row_end_le step h
    omega
  · have := row_end_le step h
    omega

/-- Rows of writes, each within its own `step` bytes: at an address of row `r` stands what that row's writes leave. -/
theorem foldl_rows_byte (f : Nat → List Wr) {k a step n r x : Nat} (old : Byte) (hr : r < n)
    (hf : ∀ i < n, ∀ b, x < a + i * step ∨ a + i * step + step ≤ x → (f i).foldl (Wr.byte k x) b = b)
    (h1 : a + r * step ≤ x) (h2 : x < a + r * step + step) :
    ((List.range n).flatMap f).foldl (Wr.byte k x) old = (f r).foldl (Wr.byte k x) old := by
  rw [List.foldl_flatMap]
  exact foldl_range_single (fun b i => (f i).foldl (Wr.byte k x) b) old hr (fun i hi hn b => hf i hi b (rows_apart hn h1 h2))

/-- The same for rows of one write each. -/
theorem foldl_map_rows_byte (bs : Nat → List Byte) {k a step n r j : Nat} (old : Byte) (hr : r < n)
    (hl : ∀ i < n, (bs i).length ≤ step) (hj : j < (bs r).length) :
    ((List.range n).map (fun i => Wr.spad k (a + i * step) (bs i))).foldl (Wr.byte k (a + r * step + j)) old = (bs r).getD j 0 := by
  have hl' := hl r hr
  rw [List.map_eq_flatMap, foldl_rows_byte (fun i => [Wr.spad k (a + i * step) (bs i)]) old hr
    (fun i hi b h => by
      have := hl i hi
      rw [List.foldl_cons, List.foldl_nil, Wr.byte_spad_outside b (by omega)]) (Nat.le_add_right ..) (by omega),
    List.foldl_cons, List.foldl_nil]
  exact Wr.byte_spad_inside old hj

/-! ## Chunks of equal length -/

/-- Where every element gives `w` items, item `w * n + i` is item `i` of element `n`. -/
theorem flatMap_getD {α β : Type} (f : α → List β) (d : β) {w : Nat} (l : List α) (hf : ∀ v ∈ l, (f v).length = w) {n i : Nat} (hn : n < l.length) (hi : i < w) :
    (l.flatMap f).getD (w * n + i) d = (f l[n]).getD i d := by
  induction l generalizing n with
  | nil => simp at hn
  | cons v l ih =>
    have hv := hf v (by simp)
    rw [List.flatMap_cons]
    cases n with
    | zero => rw [List.getD_append _ _ _ _ (by omega)]; simp
    | succ n =>
      rw [List.getD_append_right _ _ _ _ (by rw [hv, Nat.mul_succ]; omega), hv, show w * (n + 1) + i - w = w * n + i by rw [Nat.mul_succ]; omega,
        ih (fun v h => hf v (by simp [h])) (by simpa using hn)]
      rfl

/-! ## Areas of FP32 values (R152, R168) -/

theorem le_roundUp (n : Nat) {m : Nat} (h : 0 < m) : n ≤ roundUp n m := by
  unfold roundUp
  have := Nat.div_add_mod (n + m - 1) m
  have := Nat.mod_lt (n + m - 1) h
  rw [Nat.mul_comm]
  omega

/-- A row of an area fits in the distance between its rows. -/
theorem SArea.packed_le_step {r : SArea} {f : Fmt} {cols : Nat} (h : r.pitchOk f cols = true) : packed f cols ≤ r.step f cols := by
  unfold SArea.step
  split
  · exact le_roundUp _ (by decide)
  · next hp => simpa [SArea.pitchOk, hp] using h

@[simp] theorem packed_fp32 (cols : Nat) : packed .fp32 cols = 4 * cols := by
  simp only [packed, ceilDiv, fmtBits]
  omega

theorem fpBytes_length (vs : List W32) : (fpBytes vs).length = 4 * vs.length := by
  simp [fpBytes, List.length_flatMap, Nat.mul_comm]

/-- Element (m, n) of a matrix written into an area stands there as its word. -/
theorem State.word_areaWrites {s : State} (h : Mem.wf s.spad = true) {e : Eff} {k : Nat} {d : SArea} {rows cols : Nat} {v : Mat}
    (he : e.wrs = areaWrites k d rows cols v) {m n : Nat} (hm : m < rows) (hn : n < cols) (hd : d.pitchOk .fp32 cols = true) :
    leAt ((s.applyEff e).spadRead k (d.a + m * d.step .fp32 cols + 4 * n) 4) 0 4 = (v.at m n).toNat := by
  refine State.word_of_bytes (s.spad_wf_applyEff e h) k _ _ fun j hj => ?_
  have hstep := SArea.packed_le_step hd
  rw [packed_fp32] at hstep
  have hl : ∀ i < rows, (fpBytes ((List.range cols).map (v.at i))).length ≤ d.step .fp32 cols := fun i _ => by simpa [fpBytes_length] using hstep
  rw [State.spadByte_applyEff, he, areaWrites, Nat.add_assoc, foldl_map_rows_byte _ _ hm hl (by rw [fpBytes_length]; simp; omega), fpBytes,
    flatMap_getD (fun v : W32 => toBytes 4 v.toNat) 0 _ (fun v _ => toBytes_length 4 _) (by simpa using hn) hj]
  simp

/-! ## Rows of elements with gaps (R173) -/

/-- Writing two adjoining ranges at once is writing one after the other. -/
theorem Wr.byte_append (k a x : Nat) (b c : List Byte) (old : Byte) :
    Wr.byte k x old (.spad k a (b ++ c)) = Wr.byte k x (Wr.byte k x old (.spad k a b)) (.spad k (a + b.length) c) := by
  rw [Wr.byte_spad, Wr.byte_spad, Wr.byte_spad, List.length_append]
  by_cases h1 : a ≤ x ∧ x < a + b.length
  · rw [if_pos (by omega), if_neg (by omega), if_pos h1, List.getD_append _ _ _ _ (by omega)]
  · by_cases h2 : a + b.length ≤ x ∧ x < a + b.length + c.length
    · rw [if_pos (by omega), if_pos h2, List.getD_append_right _ _ _ _ (by omega), Nat.sub_add_eq]
    · rw [if_neg (by omega), if_neg h2, if_neg h1]

/-- A row's writes leave what its elements leave, one after the other, from the first. -/
theorem foldl_rowWrites_some (k w a x : Nat) (b : List Byte) (r : List (Option (List Byte))) (hb : b.length = w) (old : Byte) :
    (rowWrites k w a (some b :: r)).foldl (Wr.byte k x) old
      = (rowWrites k w (a + w) r).foldl (Wr.byte k x) (Wr.byte k x old (.spad k a b)) := by
  rw [rowWrites]
  split
  · next j c bs t ht =>
    split
    · next hjc =>
      rw [ht, List.foldl_cons, List.foldl_cons, Wr.byte_append, hb, hjc.1, hjc.2]
    · rw [ht, List.foldl_cons]
  · rw [List.foldl_cons]

/-- Elements of `w` bytes: outside of the row nothing changes; an element that is written leaves its bytes; one that is not leaves what stood there. -/
theorem foldl_rowWrites_outside (k w a x : Nat) (l : List (Option (List Byte))) (hl : ∀ b, some b ∈ l → b.length = w) (old : Byte)
    (h : x < a ∨ a + w * l.length ≤ x) : (rowWrites k w a l).foldl (Wr.byte k x) old = old := by
  induction l generalizing a old with
  | nil => rfl
  | cons o r ih =>
    rw [List.length_cons, Nat.mul_succ] at h
    have hr := fun old => ih (a + w) (fun b hb => hl b (by simp [hb])) old (by omega)
    cases o with
    | none => exact hr old
    | some b =>
      have hb := hl b (by simp)
      rw [foldl_rowWrites_some _ _ _ _ _ _ hb, hr, Wr.byte_spad_outside _ (by rw [hb]; omega)]

theorem foldl_rowWrites_inside (k w a : Nat) (l : List (Option (List Byte))) (hl : ∀ b, some b ∈ l → b.length = w) (old : Byte) {n i : Nat}
    (hn : n < l.length) (hi : i < w) :
    (rowWrites k w a l).foldl (Wr.byte k (a + w * n + i)) old = l[n].elim old (fun b => b.getD i 0) := by
  induction l generalizing a n old with
  | nil => simp at hn
  | cons o r ih =>
    have hr : ∀ b, some b ∈ r → b.length = w := fun b hb => hl b (by simp [hb])
    cases n with
    | zero =>
      have hx : a + w * 0 + i < a + w := by omega
      cases o with
      | none => exact foldl_rowWrites_outside k w (a + w) _ r hr old (.inl hx)
      | some b =>
        have hb := hl b (by simp)
        rw [foldl_rowWrites_some _ _ _ _ _ _ hb, foldl_rowWrites_outside k w (a + w) _ r hr _ (.inl hx)]
        exact Wr.byte_spad_inside old (by omega)
    | succ n =>
      have hn' : n < r.length := by simpa using hn
      rw [show a + w * (n + 1) + i = a + w + w * n + i by rw [Nat.mul_succ]; omega]
      cases o with
      | none => exact ih (a + w) hr old hn'
      | some b =>
        have hb := hl b (by simp)
        rw [foldl_rowWrites_some _ _ _ _ _ _ hb, Wr.byte_spad_outside old (by rw [hb]; omega), ih (a + w) hr old hn']
        rfl

end Sys2Proof.Machine
end

section
/-! PROOF. Matrices, codes and accumulator slots: what reading back an area, a matrix or a slot gives (R101, R132, R153). -/

namespace Sys2Proof.Machine

/-! ## Lists and matrices by position -/

theorem getD_map_range {α : Type} (f : Nat → α) (d : α) {n j : Nat} (h : j < n) : ((List.range n).map f).getD j d = f j := by
  simp [h]

theorem matOf_at {rows cols : Nat} (f : Nat → Nat → W32) {r c : Nat} (hr : r < rows) (hc : c < cols) : (matOf rows cols f).at r c = f r c := by
  simp [matOf, Mat.at, hr, hc]

/-- Element (m, n) of a matrix stands in the words of its tile. -/
theorem Mat.accAt_tileWords (v : Mat) (m n : Nat) : accAt (v.tileWords (m / 128) (n / 128)) (m % 128) (n % 128) = v.at m n := by
  rw [accAt, Mat.tileWords, getD_map_range _ _ (by omega)]
  congr 1 <;> omega

/-! ## Codes of a packed row -/

theorem nibblesOf_cons (b : Byte) (bs : List Byte) : nibblesOf (b :: bs) = b.toNat % 16 :: b.toNat / 16 :: nibblesOf bs := rfl

theorem nibblesOf_take (bs : List Byte) (n : Nat) : nibblesOf (bs.take n) = (nibblesOf bs).take (2 * n) := by
  induction n generalizing bs with
  | zero => simp [nibblesOf]
  | succ n ih =>
    cases bs with
    | nil => simp [nibblesOf]
    | cons b bs => simp [nibblesOf_cons, ih, Nat.mul_succ]

theorem nibblesOf_drop (bs : List Byte) (n : Nat) : nibblesOf (bs.drop n) = (nibblesOf bs).drop (2 * n) := by
  induction n generalizing bs with
  | zero => simp
  | succ n ih =>
    cases bs with
    | nil => simp [nibblesOf]
    | cons b bs => simp [nibblesOf_cons, ih, Nat.mul_succ]

/-- The number that 4-bit units spell, the low one first. -/
def unitsVal (us : List Nat) : Nat := us.foldr (fun d a => d + 16 * a) 0

theorem unitsVal_nibblesOf (bs : List Byte) : unitsVal (nibblesOf bs) = ofBytes bs := by
  induction bs with
  | nil => rfl
  | cons b bs ih =>
    have e : unitsVal (nibblesOf (b :: bs)) = b.toNat % 16 + 16 * (b.toNat / 16 + 16 * unitsVal (nibblesOf bs)) := rfl
    rw [e, ih, ofBytes]
    omega

theorem codesOf_succ (w n : Nat) (l : List Nat) : codesOf w (n + 1) l = unitsVal (l.take w) :: codesOf w n (l.drop w) := rfl

@[simp] theorem codesOf_length (w n : Nat) (l : List Nat) : (codesOf w n l).length = n := by
  induction n generalizing l with
  | zero => rfl
  | succ n ih => rw [codesOf_succ, List.length_cons, ih]

/-- Codes that begin with a byte. -/
theorem Mem.codes_zero (m : Mem) (base w n : Nat) : m.codes base 0 w n = codesOf w n (nibblesOf (m.read base ((n * w + 1) / 2))) := by
  simp [Mem.codes]

/-- A code of whole bytes is the number that they spell. -/
theorem codesOf_nibblesOf_getD (w : Nat) {n c : Nat} (bs : List Byte) (h : c < n) :
    (codesOf (2 * w) n (nibblesOf bs)).getD c 0 = ofBytes ((bs.drop (w * c)).take w) := by
  induction c generalizing n bs with
  | zero =>
    obtain ⟨n, rfl⟩ := Nat.exists_eq_add_of_lt h
    rw [Nat.zero_add, codesOf_succ, ← nibblesOf_take, unitsVal_nibblesOf]
    simp
  | succ c ih =>
    obtain ⟨n, rfl⟩ : ∃ k, n = k + 1 := ⟨n - 1, by omega⟩
    rw [codesOf_succ, ← nibblesOf_drop, List.getD_cons_succ, ih _ (by omega), List.drop_drop, Nat.mul_succ, Nat.add_comm w]

theorem unitsVal_digits (w c : Nat) : unitsVal ((List.range w).map (fun j => c / 16 ^ j % 16)) = c % 16 ^ w := by
  induction w generalizing c with
  | zero => simp [unitsVal, Nat.mod_one]
  | succ w ih =>
    have e : (List.range (w + 1)).map (fun j => c / 16 ^ j % 16) = c % 16 :: (List.range w).map (fun j => c / 16 / 16 ^ j % 16) := by
      rw [List.range_succ_eq_map, List.map_cons, List.map_map]
      simp [Function.comp_def, Nat.pow_succ', Nat.div_div_eq_div_mul]
    rw [e]
    calc unitsVal (c % 16 :: (List.range w).map (fun j => c / 16 / 16 ^ j % 16)) = c % 16 + 16 * (c / 16 % 16 ^ w) := by rw [← ih]; rfl
      _ = c % 16 ^ (w + 1) := by rw [Nat.pow_succ 16 w, Nat.mul_comm (16 ^ w), Nat.mod_mul]

/-- Codes read back from their units, each modulo its width, whatever follows. -/
theorem codesOf_unitsOf (w : Nat) (cs rest : List Nat) : codesOf w cs.length (unitsOf w cs ++ rest) = cs.map (· % 16 ^ w) := by
  induction cs with
  | nil => rfl
  | cons c cs ih =>
    have e : unitsOf w (c :: cs) ++ rest = (List.range w).map (fun j => c / 16 ^ j % 16) ++ (unitsOf w cs ++ rest) := by
      simp [unitsOf]
    rw [e, List.length_cons, codesOf_succ, List.take_left' (by simp), List.drop_left' (by simp), unitsVal_digits, ih, List.map_cons]

theorem unitsOf_length (w : Nat) (cs : List Nat) : (unitsOf w cs).length = cs.length * w := by
  simp [unitsOf, List.length_flatMap]

theorem unitsOf_lt (w : Nat) (cs : List Nat) : ∀ u ∈ unitsOf w cs, u < 16 := by
  intro u hu
  simp only [unitsOf, List.mem_flatMap, List.mem_map] at hu
  obtain ⟨c, -, j, -, rfl⟩ := hu
  exact Nat.mod_lt _ (by decide)

theorem packUnits_length (keep : Nat) (us : List Nat) : (packUnits keep us).length = (us.length + 1) / 2 := by
  induction us using packUnits.induct with
  | case1 => rfl
  | case2 a => simp [packUnits]
  | case3 a b r ih => simp only [packUnits, List.length_cons, ih]; omega

/-- A byte made of two units holds them. -/
theorem nibblesOf_pair {a b : Nat} (ha : a < 16) (hb : b < 16) (bs : List Byte) :
    nibblesOf (BitVec.ofNat 8 (a + 16 * b) :: bs) = a :: b :: nibblesOf bs := by
  have e : (BitVec.ofNat 8 (a + 16 * b)).toNat = a + 16 * b := by
    rw [BitVec.toNat_ofNat]
    exact Nat.mod_eq_of_lt (by omega)
  rw [nibblesOf_cons, e, show (a + 16 * b) % 16 = a by omega, show (a + 16 * b) / 16 = b by omega]

/-- Packed units read back as they were, with at most one unit behind them. -/
theorem nibblesOf_packUnits {keep : Nat} (hk : keep < 16) (us : List Nat) (h : ∀ u ∈ us, u < 16) : ∃ rest, nibblesOf (packUnits keep us) = us ++ rest := by
  induction us using packUnits.induct with
  | case1 => exact ⟨[], rfl⟩
  | case2 a => exact ⟨[keep], nibblesOf_pair (h a (by simp)) hk []⟩
  | case3 a b r ih =>
    obtain ⟨rest, e⟩ := ih (fun u hu => h u (by simp [hu]))
    exact ⟨rest, (nibblesOf_pair (h a (by simp)) (h b (by simp)) _).trans (by rw [e]; rfl)⟩

/-- Value `n` of the first row of an FP32 area is the word that stands there. -/
theorem State.areaVals_fp32_at {s : State} (h : Mem.wf s.spad = true) (k : Nat) (r : SArea) (cols : Nat) {n : Nat} (hn : n < cols) :
    (s.areaVals k r .fp32 1 cols).at 0 n = BitVec.ofNat 32 (leAt (s.spadRead k (r.a + 4 * n) 4) 0 4) := by
  have hl : (Mem.codes s.spad (spadKey k r.a) 0 8 cols).length = cols := codesOf_length ..
  have e : (Mem.codes s.spad (spadKey k r.a) 0 8 cols).getD n 0 = ofBytes (s.spadRead k (r.a + 4 * n) 4) := by
    rw [Mem.codes_zero, show (cols * 8 + 1) / 2 = 4 * cols by omega]
    exact (codesOf_nibblesOf_getD 4 _ hn).trans (congrArg ofBytes (State.spadRead_slice h k r.a (by omega)))
  rw [leAt_four _ (State.spadRead_length ..), ← e]
  simp [State.areaVals, Mat.at, fmtBits, List.getD_eq_getElem?_getD, hl, hn]

/-! ## Accumulator slots -/

theorem State.accSlot_setAccSlot (s : State) (k a j i : Nat) (t : List W32) :
    (s.setAccSlot k a j t).accSlot k a i = if i = j then t else s.accSlot k a i := by
  split
  · next h => rw [h]; exact Tab.get_set ..
  · next h => exact Tab.get_set_ne _ _ _ _ _ (by unfold accKey; omega)

/-- A slot holds the words of the one write to it among writes that otherwise leave it alone. -/
theorem State.accSlot_foldl {l : List Wr} (s : State) {k a j : Nat} {t : List W32} (hmem : Wr.acc k a j t ∈ l)
    (h : ∀ w ∈ l, w = .acc k a j t ∨ ∀ v : State, (v.wr w).accSlot k a j = v.accSlot k a j) : (l.foldl State.wr s).accSlot k a j = t := by
  induction l using List.reverseRecOn with
  | nil => simp at hmem
  | append_singleton l w ih =>
    rw [List.foldl_append, List.foldl_cons, List.foldl_nil]
    rcases h w (by simp) with rfl | hw
    · exact (State.accSlot_setAccSlot ..).trans (if_pos rfl)
    · rw [hw]
      rcases List.mem_append.1 hmem with hm | hm
      · exact ih hm (fun w hw => h w (by simp [hw]))
      · rw [List.mem_singleton] at hm
        rw [← hw, ← hm]
        exact (State.accSlot_setAccSlot ..).trans (if_pos rfl)

end Sys2Proof.Machine
end

section
/-! PROOF. What MAT writes (R56, R60, R150 to R160): products block by block, and the values of products, drains, parts and combinations. -/

namespace Sys2Proof.Machine

/-! ## Products, one block after the other (R56) -/

theorem accBlock_of_zero {sum : FVal} (h : ∃ q e, sum = .fin q 0 e) (acc : W32) (k : Int) : accBlock acc sum k = acc := by
  obtain ⟨q, e, rfl⟩ := h
  rfl

theorem accBlock_of_nonzero {sum : FVal} (h : ∀ q e, sum ≠ .fin q 0 e) (acc : W32) (k : Int) :
    accBlock acc sum k = round32 .rne (FVal.add (val32 acc) (sum.scale k)) := by
  unfold accBlock
  split
  · next q e => exact absurd rfl (h q e)
  · rfl

theorem pairBlock_pos (f g : Fmt) : 0 < pairBlock f g := by
  unfold pairBlock
  split <;> decide

theorem dot_zero (a b : Opnd) (m n : Nat) (init : W32) : dot a b 0 m n init = init := by
  simp [dot, dotAt]

/-- One more product block is one more step of R56. -/
theorem dot_block_succ (a b : Opnd) (m n j : Nat) (init : W32) :
    dot a b (pairBlock a.f b.f * (j + 1)) m n init
      = accBlock (dot a b (pairBlock a.f b.f * j) m n init)
          (blockSum ((List.range (pairBlock a.f b.f)).map (fun i => (a.value m (pairBlock a.f b.f * j + i), b.value n (pairBlock a.f b.f * j + i)))))
          ((a.scale m (pairBlock a.f b.f * j) : Int) + (b.scale n (pairBlock a.f b.f * j) : Int) - 254) := by
  have hl := pairBlock_pos a.f b.f
  simp only [dot, dotAt, Nat.mul_div_cancel_left _ hl, Nat.zero_add, List.range_succ, List.foldl_append, List.foldl_cons, List.foldl_nil]

/-! ## Slots of a pass (R150, R153) -/

theorem slotsOf_nodup (m : Nat) : (slotsOf m).Nodup := List.nodup_range.filter _

theorem lt_of_mem_slotsOf {m j : Nat} (h : j ∈ slotsOf m) : j < 8 := List.mem_range.1 (List.mem_filter.1 h).1

/-- In a product of one pass a tile has the slot of its place in row order. -/
theorem slotAt_of_one_pass {slots : List Nat} {gm gn i : Nat} (hp : gm * gn ≤ slots.length) (hi : i < gm) (j : Nat) :
    slotAt slots gm gn i j = slots.getD (i * gn + j) 0 := by
  rw [slotAt, passRows, if_pos hp, Nat.mod_eq_of_lt hi]

theorem tile_place_lt {gm gn i j : Nat} (hi : i < gm) (hj : j < gn) : i * gn + j < gm * gn := by
  have := row_end_le gn hi
  omega

/-- The slot of a product's tile (i, j), where it takes one pass. -/
def Op.tileSlot (o : Op) (i j : Nat) : Nat := slotAt (slotsOf (matSmask o.ins)) (shapeM (o.r 2)) (shapeN (o.r 2)) i j

/-- Whether a product takes one pass: it has a slot for every tile. -/
def Op.OnePass (o : Op) : Prop := shapeM (o.r 2) * shapeN (o.r 2) ≤ (slotsOf (matSmask o.ins)).length

theorem Op.tileSlot_lt {o : Op} (hp : o.OnePass) {i j : Nat} (hi : i < shapeM (o.r 2)) (hj : j < shapeN (o.r 2)) : o.tileSlot i j < 8 := by
  have hk := Nat.lt_of_lt_of_le (tile_place_lt hi hj) hp
  rw [Op.tileSlot, slotAt_of_one_pass hp hi, List.getD_eq_getElem _ _ hk]
  exact lt_of_mem_slotsOf (List.getElem_mem hk)

/-- No two tiles of a pass share a slot. -/
theorem Op.tileSlot_inj {o : Op} (hp : o.OnePass) {i j i' j' : Nat} (hi : i < shapeM (o.r 2)) (hj : j < shapeN (o.r 2)) (hi' : i' < shapeM (o.r 2))
    (hj' : j' < shapeN (o.r 2)) (h : o.tileSlot i' j' = o.tileSlot i j) : i' = i ∧ j' = j := by
  have hk := Nat.lt_of_lt_of_le (tile_place_lt hi hj) hp
  have hk' := Nat.lt_of_lt_of_le (tile_place_lt hi' hj') hp
  rw [Op.tileSlot, Op.tileSlot, slotAt_of_one_pass hp hi, slotAt_of_one_pass hp hi', List.getD_eq_getElem _ _ hk, List.getD_eq_getElem _ _ hk'] at h
  have e : i' * shapeN (o.r 2) + j' = i * shapeN (o.r 2) + j := ((slotsOf_nodup _).getElem_inj_iff).1 h
  have hd : i' = i := by
    have := congrArg (· / shapeN (o.r 2)) e
    simpa [Nat.mul_comm _ (shapeN (o.r 2)), Nat.mul_add_div (by omega : 0 < shapeN (o.r 2)), Nat.div_eq_of_lt hj, Nat.div_eq_of_lt hj'] using this
  subst hd
  exact ⟨rfl, by omega⟩

/-! ## The values of a product (R56, R155) -/

/-- What an element begins with: what its slot holds with ACC, +0 without. -/
def State.productInit (s : State) (o : Op) (m n : Nat) : W32 :=
  if matAcc o.ins then accAt (s.accSlot o.core o.arr (o.tileSlot (m / 128) (n / 128))) (m % 128) (n % 128) else 0

/-- An element of a product: a masked one as it began, another with the blocks' products added. -/
def State.productElem (s : State) (o : Op) (m n : Nat) : W32 :=
  if o.masked (shapeN (o.r 2)) m n then s.productInit o m n
  else dot (s.opnd o.core (areaOf (o.r 0)) (o.td 0).f (matTra o.ins) (128 * shapeM (o.r 2)) (shapeK (o.r 2)))
    (s.opnd o.core (areaOf (o.r 1)) (o.td 1).f (matTrb o.ins) (128 * shapeN (o.r 2)) (shapeK (o.r 2))) (shapeK (o.r 2)) m n (s.productInit o m n)

theorem State.productMat_at (s : State) {o : Op} (hp : o.OnePass) {m n : Nat} (hm : m < 128 * shapeM (o.r 2)) (hn : n < 128 * shapeN (o.r 2)) :
    (s.productMat o).at m n = s.productElem o m n := by
  have hs := Op.tileSlot_lt hp (Nat.div_lt_of_lt_mul hm) (Nat.div_lt_of_lt_mul hn)
  have hi : (if matAcc o.ins then (((List.range 8).map (fun j => (s.accSlot o.core o.arr j).toArray)).getD
      (o.tileSlot (m / 128) (n / 128)) #[]).getD (128 * (m % 128) + n % 128) 0 else 0) = s.productInit o m n := by
    rw [getD_map_range _ _ hs, State.productInit, accAt]
    simp
  exact (matOf_at _ hm hn).trans (by rw [← Op.tileSlot, hi, State.productElem])

/-- A narrowed tile is written to the scratchpad alone. -/
theorem State.narrowTile_wrs_spad (s : State) (k : Nat) (t : Tile) (m : NMode) (v : Mat) : ∀ w ∈ (s.narrowTile k t m v).wrs, ∃ a bs, w = .spad k a bs := by
  intro w hw
  rcases List.mem_append.1 hw with hw | hw
  · obtain ⟨p, -, rfl⟩ := List.mem_map.1 hw
    exact ⟨_, _, rfl⟩
  · split at hw
    · simp at hw
    · exact ⟨_, _, List.mem_singleton.1 hw⟩

/-- The write of a product's tile (i, j) to its slot. -/
def State.tileWr (s : State) (o : Op) (i j : Nat) : Wr := .acc o.core o.arr (o.tileSlot i j) ((s.productMat o).tileWords i j)

/-- The writes of a product are those of its tiles, and its fused drain to the scratchpad. -/
theorem State.productEff_wrs (s : State) (o : Op) : ∃ drain : List Wr, (∀ w ∈ drain, ∃ a bs, w = .spad o.core a bs)
    ∧ (s.productEff o).wrs = (List.range (shapeM (o.r 2))).flatMap (fun i => (List.range (shapeN (o.r 2))).map (s.tileWr o i)) ++ drain := by
  unfold State.productEff
  split
  · exact ⟨_, State.narrowTile_wrs_spad _ _ _ _ _, rfl⟩
  · exact ⟨[], by simp, (List.append_nil _).symm⟩

/-- After a product of one pass a tile's slot holds the tile's words. -/
theorem State.accSlot_productEff (s : State) {o : Op} (hp : o.OnePass) {i j : Nat} (hi : i < shapeM (o.r 2)) (hj : j < shapeN (o.r 2)) :
    (s.applyEff (s.productEff o)).accSlot o.core o.arr (o.tileSlot i j) = (s.productMat o).tileWords i j := by
  obtain ⟨drain, hd, he⟩ := s.productEff_wrs o
  refine State.accSlot_foldl s ?_ fun w hw => ?_
  · rw [he]
    exact List.mem_append_left _ (List.mem_flatMap.2 ⟨i, List.mem_range.2 hi, List.mem_map.2 ⟨j, List.mem_range.2 hj, rfl⟩⟩)
  · rw [he] at hw
    rcases List.mem_append.1 hw with hw | hw
    · obtain ⟨i', hi', hw⟩ := List.mem_flatMap.1 hw
      obtain ⟨j', hj', rfl⟩ := List.mem_map.1 hw
      by_cases h : o.tileSlot i' j' = o.tileSlot i j
      · obtain ⟨rfl, rfl⟩ := Op.tileSlot_inj hp hi hj (List.mem_range.1 hi') (List.mem_range.1 hj') h
        exact .inl rfl
      · exact .inr fun v => (State.accSlot_setAccSlot ..).trans (if_neg (fun e => h e.symm))
    · obtain ⟨a, bs, rfl⟩ := hd w hw
      exact .inr fun v => rfl

/-- After a product of one pass an element of its slot is the product's element. -/
theorem State.accAt_productEff (s : State) {o : Op} (hp : o.OnePass) {m n : Nat} (hm : m < 128 * shapeM (o.r 2)) (hn : n < 128 * shapeN (o.r 2)) :
    accAt ((s.applyEff (s.productEff o)).accSlot o.core o.arr (o.tileSlot (m / 128) (n / 128))) (m % 128) (n % 128) = s.productElem o m n := by
  rw [s.accSlot_productEff hp (Nat.div_lt_of_lt_mul hm) (Nat.div_lt_of_lt_mul hn), Mat.accAt_tileWords, s.productMat_at hp hm hn]

/-! ## Drains (R157, R158) -/

theorem need_eq_nil_iff {b : Bool} {e : Nat} : need b e = [] ↔ b = true := by
  cases b <;> simp [need]

/-- A RAW drain that passes its checks has rows that do not overlap. -/
theorem pitchOk_of_drainFaults {o : Op} (hr : drnRaw o.ins = true) (h : drainFaults o = []) :
    (areaOf (o.r 0)).pitchOk .fp32 (128 * drnGn o.ins) = true := by
  have h := need_eq_nil_iff.1 (List.append_eq_nil_iff.1 h).1
  rwa [if_pos hr] at h

/-- Element (m, n) of a drain, through the epilogue. -/
def State.drained (s : State) (o : Op) (m n : Nat) : W32 :=
  epilogue (drnEpi o.ins) (BitVec.ofNat 32 (fld (o.r 3) 63 32))
    (if drnEpi o.ins < 2 then 0 else BitVec.ofNat 32 (leAt (s.spadRead o.core (fld (o.r 3) 22 0 + 4 * n) 4) 0 4))
    (accAt (o.snap.getD (m / 128 * drnGn o.ins + n / 128) []) (m % 128) (n % 128))

theorem accAt_of_held (snap : List (List W32)) (i r c : Nat) : ((snap.map List.toArray).getD i #[]).getD (128 * r + c) 0 = accAt (snap.getD i []) r c := by
  rw [accAt, show (#[] : Array W32) = List.toArray [] from rfl, List.getD_map]
  simp

/-- A RAW drain writes the words of its drained elements. -/
theorem State.word_drainEff {s : State} (h : Mem.wf s.spad = true) {o : Op} (hr : drnRaw o.ins = true) (hf : drainFaults o = [])
    {m n : Nat} (hm : m < 128 * drnGm o.ins) (hn : n < 128 * drnGn o.ins) :
    leAt ((s.applyEff (s.drainEff o)).spadRead o.core ((areaOf (o.r 0)).a + m * (areaOf (o.r 0)).step .fp32 (128 * drnGn o.ins) + 4 * n) 4) 0 4
      = (s.drained o m n).toNat := by
  rw [State.drainEff, if_neg (by omega), if_pos hr, State.word_areaWrites h rfl hm hn (pitchOk_of_drainFaults hr hf), matOf_at _ hm hn, accAt_of_held,
    State.areaVals_fp32_at h _ _ _ hn, State.drained]

/-! ## Split partials (R60, R160) -/

/-- A part of 16,384 words is the unit of the combine area that its operation names. -/
theorem State.combine_pdrainEff (s : State) {o : Op} (h : (o.snap.headD []).length = 16384) :
    Tab.get [] (s.applyEff (pdrainEff o)).mtr.combine (o.r 0 + splitI (o.r 1)) = o.snap.headD [] := by
  rw [pdrainEff, fullSlot, if_pos h]
  exact Tab.get_set ..

theorem State.part_of_written (s : State) (o : Op) {p : Nat} (h : Tab.get [] s.mtr.combine (o.r 0 + p) ≠ []) :
    s.part o p = (Tab.get [] s.mtr.combine (o.r 0 + p)).toArray := by
  unfold State.part
  split
  · next h' => exact absurd h' h
  · rfl

/-- What MAT.COMBINE leaves in an element of its slot: the parts added in ascending order. -/
theorem State.accAt_combineEff (s : State) (o : Op) (h : ∀ p < splitS (o.r 1), Tab.get [] s.mtr.combine (o.r 0 + p) ≠ []) {m n : Nat} (hm : m < 128) (hn : n < 128) :
    accAt ((s.applyEff (s.combineEff o)).accSlot o.core o.arr o.oneSlot) m n
      = (List.range (splitS (o.r 1))).foldl (fun v p => fadd32 .rne v (accAt (Tab.get [] s.mtr.combine (o.r 0 + p)) m n))
          (if o.ins.flag 2 then accAt (s.accSlot o.core o.arr o.oneSlot) m n else 0) := by
  have hparts : (List.range (splitS (o.r 1))).map (s.part o) = (List.range (splitS (o.r 1))).map (fun p => (Tab.get [] s.mtr.combine (o.r 0 + p)).toArray) :=
    List.map_congr_left fun p hp => s.part_of_written o (h p (List.mem_range.1 hp))
  have hinit : (if o.ins.flag 2 then (s.accSlot o.core o.arr o.oneSlot).toArray else #[]).getD (128 * m + n) 0
      = if o.ins.flag 2 then accAt (s.accSlot o.core o.arr o.oneSlot) m n else 0 := by
    split <;> simp [accAt]
  have hslot : (s.applyEff (s.combineEff o)).accSlot o.core o.arr o.oneSlot = _ := (State.accSlot_setAccSlot ..).trans (if_pos rfl)
  rw [hslot, accAt, getD_map_range _ _ (by omega), hparts, hinit, List.foldl_map]
  simp [accAt]

/-! ## The operation of each kind -/

theorem State.matEff_of_product (s : State) {o : Op} (h : o.kind ∈ [LKind.matFwd, .matDgrad, .matWgrad, .matWgradm]) : s.matEff o = s.productEff o := by
  simp only [List.mem_cons, List.not_mem_nil, or_false] at h
  rcases h with h | h | h | h <;> rw [State.matEff, h]

theorem State.matEff_of_drain (s : State) {o : Op} (h : o.kind = .matDrain) : s.matEff o = s.drainEff o := by rw [State.matEff, h]

theorem State.matEff_of_pdrain (s : State) {o : Op} (h : o.kind = .matPdrain) : s.matEff o = pdrainEff o := by rw [State.matEff, h]

theorem State.matEff_of_combine (s : State) {o : Op} (h : o.kind = .matCombine) : s.matEff o = s.combineEff o := by rw [State.matEff, h]

end Sys2Proof.Machine

open Sys2Proof Sys2Proof.Machine

/-! ## The obligation -/

/-- Settles O28: products by R56 block after block, and the slots, words and parts that the writes of each operation leave. -/
theorem matResults : Obligations.MatResults := by
  unfold Obligations.MatResults
  refine ⟨fun a b m n j init => ⟨dot_zero .., fun h => ?_, fun h => ?_⟩, fun s o hw => ⟨fun hk hp m hm n hn => ?_, fun hk hr hf m hm n hn => ?_, fun hk hl => ?_,
    fun hk h m hm n hn => ?_⟩⟩
  · rw [dot_block_succ, accBlock_of_zero h]
  · rw [dot_block_succ, accBlock_of_nonzero h]
    congr 3
    omega
  · rw [s.matEff_of_product hk]
    exact s.accAt_productEff hp hm hn
  · rw [s.matEff_of_drain hk]
    exact State.word_drainEff hw.1 hr hf hm hn
  · rw [s.matEff_of_pdrain hk]
    exact s.combine_pdrainEff hl
  · rw [s.matEff_of_combine hk]
    exact s.accAt_combineEff o h hm hn

end

section
/-! PROOF. Narrowing a value (R47, R71): magnitudes compared as rationals, values that a format holds, and the scale of a block. -/

namespace Sys2Proof.Machine

/-! ## Magnitudes -/

theorem bitLen_le_iff (m n : Nat) : bitLen m ≤ n ↔ m < 2 ^ n := by
  unfold bitLen
  split
  · next h => simp [h]
  · next h => rw [Nat.succ_le_iff, Nat.log2_lt h]

theorem lt_bitLen_iff (m n : Nat) : n < bitLen m ↔ 2 ^ n ≤ m := by
  rw [← Nat.not_le, bitLen_le_iff, Nat.not_lt]

theorem bitLen_pos {m : Nat} (h : m ≠ 0) : 0 < bitLen m := (lt_bitLen_iff m 0).2 (Nat.one_le_iff_ne_zero.2 h)

theorem scaleTo_self (m : Nat) (e : Int) : scaleTo m e e = m := by simp [scaleTo]

theorem scaleTo_cast (m : Nat) {e q : Int} (h : q ≤ e) : (scaleTo m e q : ℚ) * 2 ^ q = m * 2 ^ e := by
  have e1 : ((2 : ℚ) ^ (e - q).toNat) = 2 ^ (e - q) := by rw [← zpow_natCast, Int.toNat_of_nonneg (by omega)]
  rw [scaleTo, Nat.cast_mul, Nat.cast_pow, Nat.cast_ofNat, e1, mul_assoc, ← zpow_add₀ (by norm_num), Int.sub_add_cancel]

/-- The comparison of magnitudes is that of the rational numbers they denote. -/
theorem magLe_iff (m1 m2 : Nat) (e1 e2 : Int) : magLe m1 e1 m2 e2 = true ↔ (m1 : ℚ) * 2 ^ e1 ≤ m2 * 2 ^ e2 := by
  have hq : (0 : ℚ) < 2 ^ min e1 e2 := by positivity
  rw [magLe, decide_eq_true_iff, ← scaleTo_cast m1 (min_le_left e1 e2), ← scaleTo_cast m2 (min_le_right e1 e2), mul_le_mul_iff_left₀ hq, Nat.cast_le]

theorem magLe_of_le {m a m2 : Nat} {e b e2 : Int} (hm : m ≤ a) (he : e ≤ b) (h : magLe a b m2 e2 = true) : magLe m e m2 e2 = true := by
  rw [magLe_iff] at h ⊢
  calc (m : ℚ) * 2 ^ e ≤ a * 2 ^ b := by gcongr; norm_num
    _ ≤ m2 * 2 ^ e2 := h

/-- A magnitude lies below the power of two at its top, and not below half of it. -/
theorem mag_lt_top (m : Nat) (e : Int) : (m : ℚ) * 2 ^ e < 2 ^ (e + bitLen m) := by
  have h : (m : ℚ) < 2 ^ bitLen m := by exact_mod_cast (bitLen_le_iff m _).1 (Nat.le_refl _)
  rw [add_comm, zpow_add₀ (by norm_num), zpow_natCast]
  gcongr

theorem half_top_le_mag {m : Nat} (hm : m ≠ 0) (e : Int) : (2 : ℚ) ^ (e + bitLen m - 1) ≤ m * 2 ^ e := by
  obtain ⟨n, hn⟩ : ∃ n, bitLen m = n + 1 := ⟨bitLen m - 1, by have := bitLen_pos hm; omega⟩
  have h : (2 : ℚ) ^ n ≤ m := by exact_mod_cast (lt_bitLen_iff m n).1 (by omega)
  rw [hn, show e + ((n + 1 : Nat) : Int) - 1 = n + e by push_cast; ring, zpow_add₀ (by norm_num), zpow_natCast]
  gcongr

/-- A magnitude with a lower top bit is the smaller one. -/
theorem magLe_of_top_lt {m1 m2 : Nat} {e1 e2 : Int} (h2 : m2 ≠ 0) (h : e1 + bitLen m1 < e2 + bitLen m2) : magLe m1 e1 m2 e2 = true := by
  rw [magLe_iff]
  calc (m1 : ℚ) * 2 ^ e1 ≤ 2 ^ (e1 + bitLen m1) := (mag_lt_top m1 e1).le
    _ ≤ 2 ^ (e2 + bitLen m2 - 1) := zpow_le_zpow_right₀ (by norm_num) (by omega)
    _ ≤ m2 * 2 ^ e2 := half_top_le_mag h2 e2

theorem not_magLe_of_top_lt {m1 m2 : Nat} {e1 e2 : Int} (h1 : m1 ≠ 0) (h : e2 + bitLen m2 < e1 + bitLen m1) : magLe m1 e1 m2 e2 = false := by
  rw [Bool.eq_false_iff, Ne, magLe_iff, not_le]
  calc (m2 : ℚ) * 2 ^ e2 < 2 ^ (e2 + bitLen m2) := mag_lt_top m2 e2
    _ ≤ 2 ^ (e1 + bitLen m1 - 1) := zpow_le_zpow_right₀ (by norm_num) (by omega)
    _ ≤ m1 * 2 ^ e1 := half_top_le_mag h1 e1

/-! ## The scale of a block (R71) -/

theorem maxMag_ne_zero (f : Fmt) : (maxMag f).1 ≠ 0 := by cases f <;> decide

/-- The scale exponent is the smallest that brings the amax within the format. -/
theorem absmaxExp_smallest (f : Fmt) {m : Nat} (hm : m ≠ 0) (e : Int) :
    magLe m (e - absmaxExp f m e) (maxMag f).1 (maxMag f).2 = true ∧ magLe m (e - (absmaxExp f m e - 1)) (maxMag f).1 (maxMag f).2 = false := by
  have hx := maxMag_ne_zero f
  unfold absmaxExp
  simp only
  split
  · next h => exact ⟨h, not_magLe_of_top_lt hm (by omega)⟩
  · next h => exact ⟨magLe_of_top_lt hx (by omega), by rwa [Int.add_sub_cancel, ← Bool.not_eq_true]⟩

theorem scaleCode_fin (f : Fmt) (q : Bool) {m : Nat} (hm : m ≠ 0) (e : Int) :
    (scaleCode f false (.fin q m e) : Int) = max (absmaxExp f m e) (-127) + 127
    ∧ (scaleCode f true (.fin q m e) : Int) = min (max (absmaxExp f m e) (-127)) 0 + 127 := by
  constructor
  · simp only [scaleCode, if_neg hm, Bool.false_and, Bool.false_eq_true, if_false]
    omega
  · by_cases h : 0 < max (absmaxExp f m e) (-127)
    · simp only [scaleCode, if_neg hm, Bool.true_and, decide_eq_true h, if_true]
      omega
    · simp only [scaleCode, if_neg hm, Bool.true_and, decide_eq_false h]
      simp only [Bool.false_eq_true, if_false]
      omega

/-! ## Values that a format holds (R33, R47) -/

/-- The fraction and exponent fields of a code. -/
def fracOf (f : Fmt) (c : Nat) : Nat := c % 2 ^ fracBits f
def expOf (f : Fmt) (c : Nat) : Nat := c / 2 ^ fracBits f % 2 ^ expBits f

theorem fracOf_lt (f : Fmt) (c : Nat) : fracOf f c < 2 ^ fracBits f := Nat.mod_lt _ (by positivity)

theorem expOf_lt (f : Fmt) (c : Nat) : expOf f c < 2 ^ expBits f := Nat.mod_lt _ (by positivity)

theorem fmtBits_eq (f : Fmt) : fmtBits f = fracBits f + expBits f + 1 := by cases f <;> rfl

theorem minExp_eq (f : Fmt) : minExp f = 1 - expBias f - fracBits f := by cases f <;> rfl

/-- A code is its sign, exponent and fraction fields. -/
theorem code_eq_fields (f : Fmt) {c : Nat} (h : c < 2 ^ fmtBits f) :
    c = (if bitOf c (fracBits f + expBits f) then 2 ^ (fracBits f + expBits f) else 0) + expOf f c * 2 ^ fracBits f + fracOf f c := by
  have h0 := Nat.mod_add_div c (2 ^ fracBits f)
  have h1 := Nat.mod_add_div (c / 2 ^ fracBits f) (2 ^ expBits f)
  rw [Nat.div_div_eq_div_mul, ← Nat.pow_add] at h1
  have h2 : c / 2 ^ (fracBits f + expBits f) < 2 := by
    rw [Nat.div_lt_iff_lt_mul (by positivity), ← Nat.pow_succ']
    rwa [fmtBits_eq] at h
  have h3 : (if bitOf c (fracBits f + expBits f) then 2 ^ (fracBits f + expBits f) else 0)
      = 2 ^ (fracBits f + expBits f) * (c / 2 ^ (fracBits f + expBits f)) := by
    rw [bitOf, Nat.testBit_eq_decide_div_mod_eq, Nat.mod_eq_of_lt h2]
    rcases Nat.lt_succ_iff_lt_or_eq.1 h2 with h | h
    · simp [Nat.lt_one_iff.1 h]
    · simp [h]
  rw [h3, fracOf, expOf, Nat.pow_add]
  rw [Nat.pow_add] at h1
  calc c = c % 2 ^ fracBits f + 2 ^ fracBits f * (c / 2 ^ fracBits f) := h0.symm
    _ = c % 2 ^ fracBits f + 2 ^ fracBits f * (c / 2 ^ fracBits f % 2 ^ expBits f
          + 2 ^ expBits f * (c / (2 ^ fracBits f * 2 ^ expBits f))) := by rw [h1]
    _ = _ := by ring

theorem fld_exponent (f : Fmt) (c : Nat) : fld c (fracBits f + expBits f - 1) (fracBits f) = expOf f c := by
  cases f <;> simp [fld, expOf, fracBits, expBits, Nat.shiftRight_eq_div_pow]

theorem fld_fraction (f : Fmt) (c : Nat) : (if fracBits f = 0 then 0 else fld c (fracBits f - 1) 0) = fracOf f c := by
  cases f <;> simp [fld, fracOf, fracBits, Nat.mod_one]

/-- The number that the fields of a code spell: subnormal where the exponent field is 0, otherwise normal. -/
def numberOf (f : Fmt) (c : Nat) : FVal :=
  if expOf f c = 0 then .fin (bitOf c (fracBits f + expBits f)) (fracOf f c) (minExp f)
  else .fin (bitOf c (fracBits f + expBits f)) (2 ^ fracBits f + fracOf f c) ((expOf f c : Int) - expBias f - (fracBits f : Int))

/-- The value of a code in a format with infinities: its number, but for the top exponent field. -/
def numberOrSpecial (f : Fmt) (c : Nat) : FVal :=
  if expOf f c = 2 ^ expBits f - 1 then (if fracOf f c = 0 then .inf (bitOf c (fracBits f + expBits f)) else .nan) else numberOf f c

/-- The value of a code by its fields (R33 to R36). -/
theorem decodeFmt_eq (f : Fmt) (c : Nat) : decodeFmt f c = match f with
    | .fp4 => numberOf f c
    | .e4m3 => if expOf f c = 2 ^ expBits f - 1 ∧ fracOf f c = 7 then .nan else numberOf f c
    | .ge3 => if expOf f c = 0 then .fin false 0 0 else .fin (bitOf c (fracBits f + expBits f)) 1 ((expOf f c : Int) - 4)
    | _ => numberOrSpecial f c := by
  simp only [decodeFmt, fld_exponent, fld_fraction]
  cases f <;> rfl

/-- What the fields of a code denote: a subnormal or a normal number. -/
def CodeDenotes (f : Fmt) (c m : Nat) (e : Int) : Prop :=
  (expOf f c = 0 ∧ m = fracOf f c ∧ e = minExp f ∧ f ≠ .ge3)
    ∨ (expOf f c ≠ 0 ∧ m = 2 ^ fracBits f + fracOf f c ∧ e = (expOf f c : Int) - expBias f - fracBits f)

/-- A code of a finite value other than zero: its sign, its number, and that the number is within the largest magnitude. -/
structure CodeHolds (f : Fmt) (c : Nat) (neg : Bool) (m : Nat) (e : Int) : Prop where
  sign : neg = bitOf c (fracBits f + expBits f)
  value : CodeDenotes f c m e
  bound : magLe m e (maxMag f).1 (maxMag f).2 = true

theorem numberOf_fin {f : Fmt} {c m : Nat} {q : Bool} {e : Int} (hf : f ≠ .ge3) (h : numberOf f c = .fin q m e) :
    q = bitOf c (fracBits f + expBits f) ∧ CodeDenotes f c m e := by
  unfold numberOf at h
  split at h
  · next h0 =>
    cases h
    exact ⟨rfl, .inl ⟨h0, rfl, rfl, hf⟩⟩
  · next h0 =>
    cases h
    exact ⟨rfl, .inr ⟨h0, rfl, rfl⟩⟩

theorem CodeDenotes.lt {f : Fmt} {c m : Nat} {e : Int} (h : CodeDenotes f c m e) : m < 2 ^ (fracBits f + 1) := by
  have hr := fracOf_lt f c
  rw [Nat.pow_succ]
  rcases h with ⟨-, rfl, -⟩ | ⟨-, rfl, -⟩ <;> omega

theorem CodeDenotes.minExp_le {f : Fmt} {c m : Nat} {e : Int} (h : CodeDenotes f c m e) : minExp f ≤ e := by
  rw [minExp_eq]
  rcases h with ⟨-, -, h, -⟩ | ⟨h0, -, h⟩
  · rw [h, minExp_eq]
  · omega

/-- A number's exponent is that of its exponent field, or of the field 1. -/
theorem CodeDenotes.le {f : Fmt} {c m : Nat} {e : Int} (h : CodeDenotes f c m e) : e ≤ (max (expOf f c) 1 : Nat) - expBias f - fracBits f := by
  rcases h with ⟨-, -, h, -⟩ | ⟨h0, -, h⟩
  · rw [h, minExp_eq]; omega
  · omega

/-- Of a format whose largest fraction is all ones, the number of a code is within the largest magnitude where its exponent is. -/
theorem CodeDenotes.bound {f : Fmt} {c m : Nat} {e : Int} (h : CodeDenotes f c m e) (hf : (maxMag f).1 = 2 ^ (fracBits f + 1) - 1) (he : e ≤ (maxMag f).2) :
    magLe m e (maxMag f).1 (maxMag f).2 = true := by
  have hm := h.lt
  exact magLe_of_le (by omega) he ((magLe_iff ..).2 le_rfl)

/-- E4M3 has no code above 448: a number with the top exponent has a fraction below 7. -/
theorem bound_e4m3 {c m : Nat} {e : Int} (h : CodeDenotes .e4m3 c m e) (hn : ¬ (expOf .e4m3 c = 2 ^ expBits .e4m3 - 1 ∧ fracOf .e4m3 c = 7)) :
    magLe m e (maxMag .e4m3).1 (maxMag .e4m3).2 = true := by
  have hx := expOf_lt .e4m3 c
  have hr := fracOf_lt .e4m3 c
  have hm := h.lt
  have he := h.le
  simp only [fracBits, expBits, expBias] at hx hr hm he hn
  by_cases ht : expOf .e4m3 c = 15
  · rcases h with ⟨h0, -⟩ | ⟨-, h, -⟩
    · omega
    · exact magLe_of_le (a := 14) (b := 5) (by simp only [fracBits] at h; omega) (by omega) (by decide)
  · exact magLe_of_le (a := 15) (b := 4) (by omega) (by omega) (by decide)

/-- A finite code of a format with infinities is a number whose exponent field is not the top one. -/
theorem numberOrSpecial_fin {f : Fmt} {c m : Nat} {q : Bool} {e : Int} (h : numberOrSpecial f c = .fin q m e) :
    expOf f c ≠ 2 ^ expBits f - 1 ∧ numberOf f c = .fin q m e := by
  unfold numberOrSpecial at h
  split at h
  · split at h <;> cases h
  · next ht => exact ⟨ht, h⟩

theorem numberOrSpecial_holds {f : Fmt} {c m : Nat} {q : Bool} {e : Int} (hf : f = .e5m2 ∨ f = .bf16 ∨ f = .fp32) (h : numberOrSpecial f c = .fin q m e) :
    CodeHolds f c q m e := by
  have hx := expOf_lt f c
  obtain ⟨ht, h⟩ := numberOrSpecial_fin h
  obtain ⟨hs, hv⟩ := numberOf_fin (by rcases hf with rfl | rfl | rfl <;> decide) h
  have hone : (maxMag f).1 = 2 ^ (fracBits f + 1) - 1 := by rcases hf with rfl | rfl | rfl <;> rfl
  have he := hv.le
  refine ⟨hs, hv, hv.bound hone ?_⟩
  rcases hf with rfl | rfl | rfl <;> simp only [fracBits, expBits, expBias, maxMag] at hx ht he ⊢ <;> omega

/-- A code that decodes to a finite value other than zero holds it. -/
theorem decodeFmt_holds {f : Fmt} {c m : Nat} {q : Bool} {e : Int} (h : decodeFmt f c = .fin q m e) (hm : m ≠ 0) : CodeHolds f c q m e := by
  have hx := expOf_lt f c
  rw [decodeFmt_eq] at h
  cases f with
  | fp4 =>
    obtain ⟨hs, hv⟩ := numberOf_fin (by decide) h
    have he := hv.le
    simp only [fracBits, expBits, expBias] at hx he
    exact ⟨hs, hv, hv.bound rfl (by simp only [maxMag]; omega)⟩
  | e4m3 =>
    simp only at h
    split at h
    · cases h
    · next hn =>
      obtain ⟨hs, hv⟩ := numberOf_fin (by decide) h
      exact ⟨hs, hv, bound_e4m3 hv hn⟩
  | ge3 =>
    simp only at h
    split at h
    · cases h
      exact absurd rfl hm
    · next h0 =>
      cases h
      have hv : CodeDenotes .ge3 c 1 ((expOf .ge3 c : Int) - 4) := .inr ⟨h0, by simp [fracOf, fracBits, Nat.mod_one], by simp [expBias, fracBits]⟩
      simp only [expBits] at hx
      exact ⟨rfl, hv, hv.bound rfl (by simp only [maxMag]; omega)⟩
  | e5m2 => exact numberOrSpecial_holds (by simp) h
  | bf16 => exact numberOrSpecial_holds (by simp) h
  | fp32 => exact numberOrSpecial_holds (by simp) h

/-- Rounding leaves a number of the format as it is. -/
theorem roundMag_of_denotes {f : Fmt} {c m : Nat} {e : Int} (h : CodeDenotes f c m e) (rm : Rm) : roundMag f rm m e = (m, e) := by
  have hl : bitLen m ≤ fracBits f + 1 := (bitLen_le_iff ..).2 h.lt
  have hq : max (e + (bitLen m : Int) - 1 - (fracBits f : Int)) (minExp f) = e := by
    have := h.minExp_le
    rcases h with ⟨-, rfl, rfl, -⟩ | ⟨-, rfl, -⟩
    · omega
    · have := (lt_bitLen_iff (2 ^ fracBits f + fracOf f c) (fracBits f)).2 (Nat.le_add_right ..)
      omega
  simp only [roundMag]
  rw [hq, if_pos (Int.le_refl _), scaleTo_self]

/-- Encoding a number of the format gives its code. -/
theorem encodeMag_of_denotes {f : Fmt} {c m : Nat} {e : Int} (h : CodeDenotes f c m e) (hm : m ≠ 0) (neg : Bool) :
    encodeMag f neg m e = (if neg then 2 ^ (fracBits f + expBits f) else 0) + expOf f c * 2 ^ fracBits f + fracOf f c := by
  have hl : bitLen m ≤ fracBits f + 1 := (bitLen_le_iff ..).2 h.lt
  have hr := fracOf_lt f c
  simp only [encodeMag]
  rw [if_neg hm]
  rcases h with ⟨h0, rfl, rfl, hf⟩ | ⟨h0, rfl, rfl⟩
  · have hs : bitLen (fracOf f c) ≤ fracBits f := (bitLen_le_iff ..).2 hr
    rw [if_pos ⟨by rw [minExp_eq]; omega, hf⟩, scaleTo_self, h0]
    omega
  · have hs := (lt_bitLen_iff (2 ^ fracBits f + fracOf f c) (fracBits f)).2 (Nat.le_add_right ..)
    have hb : bitLen (2 ^ fracBits f + fracOf f c) = fracBits f + 1 := by omega
    rw [if_neg (by rw [hb]; push_cast; omega), hb, Nat.add_sub_cancel, Nat.mul_div_cancel _ (by positivity), Nat.add_sub_cancel_left]
    congr 3
    push_cast
    omega

/-- A value that its format holds keeps its code in every rounding mode (R47). -/
theorem narrowVal_of_decodeFmt {f : Fmt} {c m : Nat} {q : Bool} {e : Int} (hc : c < 2 ^ fmtBits f) (h : decodeFmt f c = .fin q m e) (hm : m ≠ 0) (rm : Rm) :
    narrowVal f rm (.fin q m e) = (c, false) := by
  obtain ⟨hs, hv, hb⟩ := decodeFmt_holds h hm
  have hr := roundMag_of_denotes hv rm
  have hsat : saturates f rm m e = false := by
    cases rm <;> simp [saturates, hr, hb]
  simp only [narrowVal, hsat, hr, Bool.false_eq_true, if_false]
  rw [encodeMag_of_denotes hv hm, hs, ← code_eq_fields f hc]

/-- A value that saturates in a block-scaled format takes the code of the largest magnitude with its sign (R47). -/
theorem narrowVal_of_saturates {f : Fmt} (hf : blockLen f ≠ 0) {rm : Rm} {m : Nat} {e : Int} (h : saturates f rm m e = true) (q : Bool) :
    narrowVal f rm (.fin q m e) = (encodeMag f q (maxMag f).1 (maxMag f).2, true) := by
  simp only [narrowVal]
  rw [if_pos h]
  cases f with
  | bf16 => exact absurd rfl hf
  | fp32 => exact absurd rfl hf
  | _ => rfl

/-- The codes of the largest magnitudes. -/
theorem encodeMag_max {f : Fmt} {c : Nat} (h : (f, c) ∈ [(Fmt.fp4, 7), (.e4m3, 0x7E), (.e5m2, 0x7B), (.ge3, 7)]) (q : Bool) :
    blockLen f ≠ 0 ∧ encodeMag f q (maxMag f).1 (maxMag f).2 = c + if q then 2 ^ (fmtBits f - 1) else 0 := by
  simp only [List.mem_cons, Prod.mk.injEq, List.not_mem_nil, or_false] at h
  rcases h with ⟨rfl, rfl⟩ | ⟨rfl, rfl⟩ | ⟨rfl, rfl⟩ | ⟨rfl, rfl⟩ <;> exact ⟨by decide, by cases q <;> decide⟩

end Sys2Proof.Machine
end

section
/-! PROOF. Narrowed tiles (R132, R155, R176) and what VEC writes (R170 to R176). -/

namespace Sys2Proof.Machine

/-! ## The rows and scale bytes of a narrowed tile -/

theorem fmtBits_eq_width (t : Td) : fmtBits t.f = 4 * t.w := by
  unfold Td.w
  cases t.f <;> rfl

/-- A row of a tile is its elements' units, packed. -/
theorem Tile.rowBytes_eq (t : Tile) : t.rowBytes = ((t.t0 + 1) * t.td.w + 1) / 2 := by
  rw [Tile.rowBytes, ceilDiv, fmtBits_eq_width, Nat.mul_left_comm]
  omega

theorem Tile.rowBytes_le_step {t : Tile} (h : t.pitchOk = true) : t.rowBytes ≤ t.step := by
  unfold Tile.step
  split
  · exact le_roundUp _ (by decide)
  · next hp => simpa [Tile.pitchOk, hp] using h

/-- The codes of row `r` of a narrowed tile. -/
def State.narrowedRow (s : State) (t : Tile) (mode : NMode) (v : Mat) (r : Nat) : List Nat :=
  (List.range (t.t0 + 1)).map (fun c => (s.narrowAt t mode (t.scaleCodes v) v c r).1)

/-- The bytes of that row. -/
def State.narrowedBytes (s : State) (t : Tile) (mode : NMode) (v : Mat) (r : Nat) : List Byte :=
  packUnits ((s.padByte (t.a + r * t.step + t.rowBytes - 1)).toNat / 16) (unitsOf t.td.w (s.narrowedRow t mode v r))

/-- The write of the scale bytes, of which a format without scales has none. -/
def State.scaleWrs (s : State) (k : Nat) (t : Tile) (v : Mat) : List Wr :=
  if blockLen t.td.f = 0 then [] else [.spad k t.scaleAddr (s.scaleLine t.scaleAddr ((t.scaleCodes v).toList.map (BitVec.ofNat 8)))]

theorem State.narrowTile_wrs (s : State) (k : Nat) (t : Tile) (mode : NMode) (v : Mat) :
    (s.narrowTile k t mode v).wrs
      = (List.range (t.t1 + 1)).map (fun r => .spad k (t.a + r * t.step) (s.narrowedBytes t mode v r)) ++ s.scaleWrs k t v := by
  have h : ∀ {α β : Type} (n : Nat) (f : Nat → α) (g : α × Nat → β), (((List.range n).map f).zipIdx).map g = (List.range n).map (fun r => g (f r, r)) :=
    fun n f g => List.ext_getElem (by simp) (by simp)
  simp only [State.narrowTile, h, State.scaleWrs, State.narrowedBytes, State.narrowedRow, List.map_map, Function.comp_def]

@[simp] theorem State.narrowedBytes_length (s : State) (t : Tile) (mode : NMode) (v : Mat) (r : Nat) : (s.narrowedBytes t mode v r).length = t.rowBytes := by
  rw [State.narrowedBytes, packUnits_length, unitsOf_length, Tile.rowBytes_eq, State.narrowedRow, List.length_map, List.length_range]

/-- The scale bytes lie behind the rows. -/
theorem State.scaleWrs_outside (s : State) (k : Nat) (t : Tile) (v : Mat) {x : Nat} (old : Byte) (h : x < t.scaleAddr) :
    (s.scaleWrs k t v).foldl (Wr.byte k x) old = old := by
  unfold State.scaleWrs
  split
  · rfl
  · rw [List.foldl_cons, List.foldl_nil, Wr.byte_spad_outside _ (.inl h)]

/-- A narrowed row stands in the scratchpad as its bytes. -/
theorem State.spadRead_narrowedRow {s : State} (h : Mem.wf s.spad = true) (k : Nat) {t : Tile} (mode : NMode) (v : Mat) (ht : t.pitchOk = true) {r : Nat} (hr : r ≤ t.t1) :
    (s.applyEff (s.narrowTile k t mode v)).spadRead k (t.a + r * t.step) t.rowBytes = s.narrowedBytes t mode v r := by
  have hs := Tile.rowBytes_le_step ht
  have hl := s.narrowedBytes_length t mode v r
  have e := State.spadRead_eq (s.spad_wf_applyEff (s.narrowTile k t mode v) h) k (t.a + r * t.step) (s.narrowedBytes t mode v r) (fun j hj => by
    have hx : t.a + r * t.step + j < t.scaleAddr := by
      have := row_end_le t.step (by omega : r < t.t1 + 1)
      rw [Tile.scaleAddr]
      omega
    rw [State.spadByte_applyEff, State.narrowTile_wrs, List.foldl_append, State.scaleWrs_outside _ _ _ _ _ hx,
      foldl_map_rows_byte _ _ (Nat.lt_succ_of_le hr) (fun i _ => by rwa [State.narrowedBytes_length]) hj])
  rwa [hl] at e

/-- The codes of a narrowed row read back, each modulo its width. -/
theorem State.tileCodes_narrowTile {s : State} (h : Mem.wf s.spad = true) (k : Nat) {t : Tile} (mode : NMode) (v : Mat) (ht : t.pitchOk = true) {r c : Nat}
    (hr : r ≤ t.t1) (hc : c ≤ t.t0) :
    ((s.applyEff (s.narrowTile k t mode v)).tileCodes k t r).getD c 0 = (s.narrowAt t mode (t.scaleCodes v) v c r).1 % 16 ^ t.td.w := by
  have hk : (s.padByte (t.a + r * t.step + t.rowBytes - 1)).toNat / 16 < 16 := by
    have := (s.padByte (t.a + r * t.step + t.rowBytes - 1)).isLt
    omega
  obtain ⟨rest, hn⟩ := nibblesOf_packUnits hk (unitsOf t.td.w (s.narrowedRow t mode v r)) (unitsOf_lt _ _)
  have hl : (s.narrowedRow t mode v r).length = t.t0 + 1 := by simp [State.narrowedRow]
  have e : (s.applyEff (s.narrowTile k t mode v)).tileCodes k t r = ((s.narrowedRow t mode v r).map (· % 16 ^ t.td.w)).toArray := by
    have hread := State.spadRead_narrowedRow h k mode v ht hr
    rw [State.spadRead] at hread
    rw [State.tileCodes, Mem.codes_zero, ← Tile.rowBytes_eq, hread, State.narrowedBytes, hn, ← hl, codesOf_unitsOf]
  rw [e]
  simp [State.narrowedRow, Nat.lt_succ_of_le hc]

theorem Tile.scaleCodes_size {t : Tile} (hl : blockLen t.td.f ≠ 0) (v : Mat) : (t.scaleCodes v).size = t.scales := by
  simp [Tile.scaleCodes, Tile.blocks, Tile.scales, hl, List.length_flatMap, Nat.mul_comm]

/-- The scale bytes of a narrowed tile read back, each modulo a byte. -/
theorem State.tileScales_narrowTile {s : State} (h : Mem.wf s.spad = true) (k : Nat) (t : Tile) (mode : NMode) (v : Mat) {j : Nat} (hj : j < t.scales) :
    ((s.applyEff (s.narrowTile k t mode v)).tileScales k t).getD j 0 = (t.scaleCodes v).getD j 0 % 256 := by
  have hl : blockLen t.td.f ≠ 0 := fun e => by simp [Tile.scales, e] at hj
  have hsz := Tile.scaleCodes_size hl v
  have hb : ((s.applyEff (s.narrowTile k t mode v)).spadRead k t.scaleAddr t.scales).getD j 0 = BitVec.ofNat 8 ((t.scaleCodes v).getD j 0) := by
    rw [State.spadRead_getD (s.spad_wf_applyEff _ h) k _ _ _ hj, State.spadByte_applyEff, State.narrowTile_wrs, List.foldl_append, State.scaleWrs, if_neg hl,
      List.foldl_cons, List.foldl_nil, Wr.byte_spad_inside _ (by simp [State.scaleLine, hsz]; omega), State.scaleLine,
      List.getD_append _ _ _ _ (by simpa [hsz] using hj)]
    simp [hsz, hj]
  calc ((s.applyEff (s.narrowTile k t mode v)).tileScales k t).getD j 0
      = (((s.applyEff (s.narrowTile k t mode v)).spadRead k t.scaleAddr t.scales).getD j 0).toNat := by simp [State.tileScales, hj]
    _ = (t.scaleCodes v).getD j 0 % 256 := by rw [hb, BitVec.toNat_ofNat]

/-! ## Reductions of rows without an included element (R172) -/

theorem kind_of_red {k : LKind} (h : (vecForm k).red = true) : k = .vecRsum ∨ k = .vecRmax ∨ k = .vecRamax := by
  cases k <;> simp [vecForm] at h ⊢

/-- Two identities reduce to the identity. -/
theorem redOp_redId {k : LKind} (h : (vecForm k).red = true) (rm : Rm) : redOp k rm (redId k) (redId k) = redId k := by
  rcases kind_of_red h with rfl | rfl | rfl
  · cases rm <;> rfl
  · rfl
  · rfl

theorem pairUp_replicate {op : W32 → W32 → W32} {x : W32} (h : op x x = x) (n : Nat) : pairUp op (List.replicate (2 * n) x) = List.replicate n x := by
  induction n with
  | zero => rfl
  | succ n ih => rw [Nat.mul_succ, List.replicate_succ, List.replicate_succ, pairUp, ih, h, List.replicate_succ]

/-- `n` levels of the tree reduce 2^n equal lanes each to one. -/
theorem pairUp_levels_replicate {op : W32 → W32 → W32} {x : W32} (h : op x x = x) (n m : Nat) :
    (List.range n).foldl (fun l _ => pairUp op l) (List.replicate (2 ^ n * m) x) = List.replicate m x := by
  induction n generalizing m with
  | zero => simp
  | succ n ih => rw [List.range_succ, List.foldl_append, Nat.pow_succ, Nat.mul_assoc, ih, List.foldl_cons, List.foldl_nil, pairUp_replicate h]

theorem reduceRow_redId {k : LKind} (h : (vecForm k).red = true) (rm : Rm) (cols : Nat) : reduceRow k rm cols (fun _ => redId k) = redId k := by
  have hlane : ∀ j : Nat, (List.range (ceilDiv cols 256)).foldl (fun a c =>
      redOp k rm a (if 256 * c + j < cols then redId k else redId k)) (redId k) = redId k := fun j =>
    List.foldlRecOn (motive := fun a => a = redId k) _ _ rfl (fun a ha c _ => by rw [ite_self, ha, redOp_redId h])
  have hlanes : (List.range 256).map (fun j => (List.range (ceilDiv cols 256)).foldl (fun a c =>
      redOp k rm a (if 256 * c + j < cols then redId k else redId k)) (redId k)) = List.replicate (2 ^ 8 * 1) (redId k) := by
    simp only [hlane]
    simp
  rw [reduceRow, hlanes, pairUp_levels_replicate (redOp_redId h rm)]
  rfl

/-! ## Elements and their words (R170, R173) -/

/-- Elements written row by row, some of them left as they are: each stands as its word, or as it was. -/
theorem State.word_rowWrites {s : State} (h : Mem.wf s.spad = true) {e : Eff} {k : Nat} {d : SArea} {rows cols : Nat} (g : Nat → Nat → Option W32)
    (he : e.wrs = (List.range rows).flatMap (fun r => rowWrites k 4 (d.a + r * d.step .fp32 cols)
      ((List.range cols).map (fun c => (g r c).map (fun v => toBytes 4 v.toNat))))) {r c : Nat} (hr : r < rows) (hc : c < cols) (hd : d.pitchOk .fp32 cols = true) :
    leAt ((s.applyEff e).spadRead k (d.a + r * d.step .fp32 cols + 4 * c) 4) 0 4
      = (g r c).elim (leAt (s.spadRead k (d.a + r * d.step .fp32 cols + 4 * c) 4) 0 4) BitVec.toNat := by
  have hstep := SArea.packed_le_step hd
  rw [packed_fp32] at hstep
  have hlen : ∀ i, ∀ b, some b ∈ (List.range cols).map (fun c => (g i c).map (fun v => toBytes 4 v.toNat)) → b.length = 4 := by
    intro i b hb
    obtain ⟨c, -, hb⟩ := List.mem_map.1 hb
    obtain ⟨v, -, rfl⟩ := Option.map_eq_some_iff.1 hb
    exact toBytes_length ..
  have hbyte : ∀ i < 4, (s.applyEff e).spadByte k (d.a + r * d.step .fp32 cols + 4 * c + i)
      = ((g r c).map (fun v => toBytes 4 v.toNat)).elim (s.spadByte k (d.a + r * d.step .fp32 cols + 4 * c + i)) (fun b => b.getD i 0) := by
    intro i hi
    rw [State.spadByte_applyEff, he, foldl_rows_byte (a := d.a) (step := d.step .fp32 cols) _ _ hr
        (fun j _ b hx => foldl_rowWrites_outside _ _ _ _ _ (hlen j) b (by simp; omega)) (by omega) (by omega),
      foldl_rowWrites_inside _ _ _ _ (hlen r) _ (by simpa using hc) hi, List.getElem_map, List.getElem_range]
  cases hg : g r c with
  | some v => exact State.word_of_bytes (s.spad_wf_applyEff e h) k _ v (fun i hi => by rw [hbyte i hi, hg]; rfl)
  | none => exact State.word_congr h (s.spad_wf_applyEff e h) k _ (fun i hi => by rw [hbyte i hi, hg]; rfl)

/-! ## What VEC writes (R173 to R176) -/

/-- A VEC operation that passes its checks has a destination whose rows do not overlap. -/
theorem pitchOk_of_vecFaults {o : Op} (h : vecFaults o = []) :
    (areaOf (o.r 0)).pitchOk .fp32 (if (vecForm o.kind).red then shapeRows (o.r 4) else shapeCols (o.r 4)) = true := by
  have h := (Bool.and_eq_true_iff.1 (need_eq_nil_iff.1 (List.append_eq_nil_iff.1 h).1)).1
  have hd : (o.vecD.dims (shapeRows (o.r 4)) (shapeCols (o.r 4))).2 = if (vecForm o.kind).red then shapeRows (o.r 4) else shapeCols (o.r 4) := by
    unfold Op.vecD Source.dims
    cases (vecForm o.kind).red <;> rfl
  rwa [hd] at h

/-- The mask of a VEC operation. -/
def State.vecMasked (s : State) (o : Op) (r c : Nat) : Bool :=
  (s.maskBits o.core (o.ins.zero 60 56) (o.r 5) (o.ins.at 45 44) (shapeRows (o.r 4)) (shapeCols (o.r 4))).at r c

/-- Value (r, c) of a source of a VEC operation. -/
def State.vecSrc (s : State) (o : Op) (q : Source) : Nat → Nat → W32 := s.sourceVals o.core q (shapeRows (o.r 4)) (shapeCols (o.r 4))

/-- The result of an elementwise operation at (r, c). -/
def State.vecValue (s : State) (o : Op) (r c : Nat) : W32 :=
  vecElem o.kind (vecRm o.ins) o.imm (s.vecSrc o o.vecA r c) (s.vecSrc o o.vecB r c) (s.vecSrc o o.vecC r c)

/-- What an elementwise operation writes to element (r, c); nothing where it is masked without MZ. -/
def State.vecWritten (s : State) (o : Op) (r c : Nat) : Option W32 :=
  if s.vecMasked o r c then (if vecMz o.ins then some 0 else none) else some (s.vecValue o r c)

theorem State.vecEff_elementwise (s : State) {o : Op} (h : (vecForm o.kind).red = false) :
    (s.vecEff o).wrs = (List.range (shapeRows (o.r 4))).flatMap (fun r =>
      rowWrites o.core 4 ((areaOf (o.r 0)).a + r * (areaOf (o.r 0)).step .fp32 (shapeCols (o.r 4)))
        ((List.range (shapeCols (o.r 4))).map (fun c => (s.vecWritten o r c).map (fun v => toBytes 4 v.toNat)))) := by
  have e : ∀ r c, (s.vecWritten o r c).map (fun v => toBytes 4 v.toNat)
      = if s.vecMasked o r c then (if vecMz o.ins then some (toBytes 4 0) else none)
        else some (toBytes 4 (s.vecValue o r c).toNat) := fun r c => by
    unfold State.vecWritten
    cases s.vecMasked o r c <;> cases vecMz o.ins <;> rfl
  simp only [e]
  rw [State.vecEff, if_neg (by rw [h]; decide)]
  rfl

/-- The result of a reduction's row. -/
def State.vecReduced (s : State) (o : Op) (r : Nat) : W32 :=
  let v := reduceRow o.kind (vecRm o.ins) (shapeCols (o.r 4)) (fun c => if s.vecMasked o r c then redId o.kind else s.vecSrc o o.vecA r c)
  if o.ins.zero 70 66 then v else redOp o.kind (vecRm o.ins) (s.vecSrc o o.vecC r 0) v

theorem State.vecEff_reduction (s : State) {o : Op} (h : (vecForm o.kind).red = true) :
    (s.vecEff o).wrs = areaWrites o.core (areaOf (o.r 0)) 1 (shapeRows (o.r 4)) (matOf 1 (shapeRows (o.r 4)) (fun _ r => s.vecReduced o r)) := by
  rw [State.vecEff, if_pos h]
  rfl

/-- Element (r, c) of a destination of an elementwise operation. -/
theorem State.word_vecElem {s : State} (h : Mem.wf s.spad = true) {o : Op} (hf : vecFaults o = []) (hred : (vecForm o.kind).red = false) {r c : Nat}
    (hr : r < shapeRows (o.r 4)) (hc : c < shapeCols (o.r 4)) :
    leAt ((s.applyEff (s.vecEff o)).spadRead o.core ((areaOf (o.r 0)).a + r * (areaOf (o.r 0)).step .fp32 (shapeCols (o.r 4)) + 4 * c) 4) 0 4
      = if s.vecMasked o r c = false then (s.vecValue o r c).toNat
        else if vecMz o.ins then 0
        else leAt (s.spadRead o.core ((areaOf (o.r 0)).a + r * (areaOf (o.r 0)).step .fp32 (shapeCols (o.r 4)) + 4 * c) 4) 0 4 := by
  have hd := pitchOk_of_vecFaults hf
  rw [hred] at hd
  rw [State.word_rowWrites h (s.vecWritten o) (s.vecEff_elementwise hred) hr hc hd, State.vecWritten]
  cases s.vecMasked o r c <;> cases vecMz o.ins <;> rfl

/-- Row `r`'s result in the destination of a reduction. -/
theorem State.word_vecReduced {s : State} (h : Mem.wf s.spad = true) {o : Op} (hf : vecFaults o = []) (hred : (vecForm o.kind).red = true) {r : Nat}
    (hr : r < shapeRows (o.r 4)) :
    leAt ((s.applyEff (s.vecEff o)).spadRead o.core ((areaOf (o.r 0)).a + 4 * r) 4) 0 4 = (s.vecReduced o r).toNat := by
  have hd := pitchOk_of_vecFaults hf
  rw [if_pos hred] at hd
  have hw := State.word_areaWrites h (s.vecEff_reduction hred) Nat.zero_lt_one hr hd
  rwa [matOf_at _ Nat.zero_lt_one hr, Nat.zero_mul, Nat.add_zero] at hw

theorem State.widenTile_at (s : State) (k : Nat) (t : Tile) {r c : Nat} (hr : r < t.t1 + 1) (hc : c < t.t0 + 1) :
    (s.widenTile k t).at r c = widen1 t.td.f ((s.tileCodes k t r).getD c 0) ((s.tileScales k t).getD (t.blockNo (t.elem c r)) 0) :=
  matOf_at (fun r c => widen1 t.td.f ((s.tileCodes k t r).getD c 0) ((s.tileScales k t).getD (t.blockNo (t.elem c r)) 0)) hr hc

/-- A VEC.CVT that passes its checks has an FP32 area whose rows do not overlap. -/
theorem pitchOk_of_cvtFaults {o : Op} (h : cvtFaults o = []) (hn : o.cvtF.none = false) :
    (areaOf (o.r 0)).pitchOk .fp32 (shapeCols (o.r 3)) = true := by
  have h := (Bool.and_eq_true_iff.1 (need_eq_nil_iff.1 (List.append_eq_nil_iff.1 h).1)).2
  rwa [hn, Bool.false_or] at h

/-- Element (r, c) of a widened tile in the destination of VEC.CVT. -/
theorem State.word_cvtWiden {s : State} (h : Mem.wf s.spad = true) {o : Op} (hw : vecWid o.ins = true) (hf : cvtFaults o = []) (hn : o.cvtF.none = false)
    (hb : o.ins.sb ≠ 0) {r c : Nat} (hr : r < shapeRows (o.r 3)) (hc : c < shapeCols (o.r 3)) :
    leAt ((s.applyEff (s.cvtEff o)).spadRead o.core ((areaOf (o.r 0)).a + r * (areaOf (o.r 0)).step .fp32 (shapeCols (o.r 3)) + 4 * c) 4) 0 4
      = (widen1 o.cvtTile.td.f ((s.tileCodes o.core o.cvtTile r).getD c 0)
          ((s.tileScales o.core o.cvtTile).getD (o.cvtTile.blockNo (o.cvtTile.elem c r)) 0)).toNat := by
  have he : (s.cvtEff o).wrs = areaWrites o.core (areaOf (o.r 0)) (shapeRows (o.r 3)) (shapeCols (o.r 3)) (s.widenTile o.core o.cvtTile) := by
    rw [State.cvtEff, if_pos hw, if_neg hb]
  have h1 : o.cvtTile.t1 = shapeRows (o.r 3) - 1 := rfl
  have h0 : o.cvtTile.t0 = shapeCols (o.r 3) - 1 := rfl
  rw [State.word_areaWrites h he hr hc (pitchOk_of_cvtFaults hf hn), State.widenTile_at _ _ _ (by omega) (by omega)]

end Sys2Proof.Machine

/-! ## The obligation -/

open Sys2Proof Sys2Proof.Machine

/-- Settles O29: codes and scales of a narrowed value by exact magnitudes, and the words and codes that stand where the rows were written. -/
theorem vectorResults : Obligations.VectorResults := by
  unfold Obligations.VectorResults
  refine ⟨fun f rm c m q e => ⟨fun hc h hm => narrowVal_of_decodeFmt hc h hm rm, fun hc hs => ?_, fun _ hm => ?_⟩,
    fun s k t mode v hw ht => ⟨fun r hr c hc => State.tileCodes_narrowTile hw.1 k mode v ht hr hc, fun j hj => State.tileScales_narrowTile hw.1 k t mode v hj⟩,
    fun k rm cols h => reduceRow_redId h rm cols,
    fun s o hw => ⟨fun hf => ⟨fun hred r hr c hc => State.word_vecElem hw.1 hf hred hr hc, fun hred r hr => State.word_vecReduced hw.1 hf hred hr⟩,
      fun hwid hf hn hb r hr c hc => State.word_cvtWiden hw.1 hwid hf hn hb hr hc⟩⟩
  · obtain ⟨hf, henc⟩ := encodeMag_max hc q
    rw [narrowVal_of_saturates hf hs, henc]
  · exact ⟨(absmaxExp_smallest f hm e).1, (absmaxExp_smallest f hm e).2, scaleCode_fin f q hm e⟩

end

section
/-! PROOF. NUM.RD (R81, R83): what each field of the numeric state block reads as in a 64-bit register. -/

namespace Sys2Proof.Machine

/-! ## Fields of the numeric state block -/

namespace Nsb

variable (n : Nsb)

theorem field_step : n.field 0 = n.step := rfl

theorem field_key : n.field 1 = n.key := rfl

theorem field_cursor : n.field 2 = n.cursor := rfl

theorem field_stride_toNat : (n.field 3).toNat = n.stride.toNat := BitVec.toNat_setWidth_of_le (by decide)

theorem field_clean_toNat : (n.field 4).toNat = n.clean.toNat := BitVec.toNat_setWidth_of_le (by decide)

theorem field_interval_toNat : (n.field 5).toNat = n.interval.toNat := BitVec.toNat_setWidth_of_le (by decide)

theorem field_lstep_toInt : (n.field 6).toInt = n.lstep.toInt := BitVec.toInt_signExtend_of_le (by decide)

theorem field_lnext_toInt : (n.field 7).toInt = n.lnext.toInt := BitVec.toInt_signExtend_of_le (by decide)

theorem field_taint : n.field 8 = if n.taint then 1 else 0 := rfl

theorem field_outcome : n.field 9 = BitVec.ofNat 64 (n.outcome + if n.applied then 4 else 0) := rfl

theorem field_version_toNat : (n.field 10).toNat = n.version.toNat := BitVec.toNat_setWidth_of_le (by decide)

end Nsb

/-- NUM.RD leaves the field that FSEL names in its destination register, and nothing else but the next instruction to select. -/
theorem State.gives_numRd {s : State} {x : Fin 512} {i : Ins} (h : s.Issues x i) (hw : numRdWord i = true) :
    s.Gives (.numRd x i) (s.pastSreg x (i.at 99 95) (s.nsb.field (i.at 94 89))) := State.gives_short h hw rfl rfl

end Sys2Proof.Machine

/-! ## The obligation -/

open Sys2Proof Sys2Proof.Machine

/-- Settles O18: NUM.RD is a short instruction whose value is the field that FSEL selects, and the value of each field by its number. -/
theorem numRead : Obligations.NumRead := by
  unfold Obligations.NumRead
  intro x i s h hw
  refine ⟨s.nsb.field (i.at 94 89), State.gives_numRd h hw, fun e => ?_, fun e => ?_, fun e => ?_, fun e => ?_, fun e => ?_, fun e => ?_, fun e => ?_,
    fun e => ?_, fun e => ?_, fun e => ?_, fun e => ?_⟩ <;> rw [e]
  · exact s.nsb.field_step
  · exact s.nsb.field_key
  · exact s.nsb.field_cursor
  · exact s.nsb.field_stride_toNat
  · exact s.nsb.field_clean_toNat
  · exact s.nsb.field_interval_toNat
  · exact s.nsb.field_lstep_toInt
  · exact s.nsb.field_lnext_toInt
  · exact s.nsb.field_taint
  · exact s.nsb.field_outcome
  · exact s.nsb.field_version_toNat

end

section
/-! PROOF. NUM.STEPUPD while the block of its loss word is mismatched (R254, R270, R349): mason's read poisons the loss object, and the operation is held. -/

namespace Sys2Proof.Machine

/-! ## A second mismatch poisons the object (R254, R281, R284) -/

theorem State.csumMismatch_logged (s : State) (src i b : Nat) : s.Logged (s.csumMismatch src i b) := by
  unfold State.csumMismatch
  split
  · exact .refl s
  · exact s.ev_logged _ _ _ _ _ _ (by decide)

/-- Object `i` is resident in footing, with no move and no recompute of it, and with none of the four sources of R282 to recover it from. -/
structure State.Copyless (s : State) (i : Nat) : Prop where
  resident : (s.obj i).st = .fast
  still : (s.obj i).move = none
  settled : s.recomputing i = false
  page : (s.obj i).droppable = false
  mirror : s.prs.bvalid = false
  images : s.prs.images = []
  replica : (s.obj i).rvalid = false

theorem State.Copyless.logged {s t : State} {i : Nat} (h : s.Copyless i) (k : s.Logged t) : t.Copyless i := by
  have ho : t.obj i = s.obj i := by rw [State.obj, k.objs]; rfl
  have hr : t.recomputing i = s.recomputing i := by rw [State.recomputing, ho, k.hod]; rfl
  exact ⟨ho ▸ h.resident, ho ▸ h.still, hr ▸ h.settled, ho ▸ h.page, k.prs ▸ h.mirror, k.prs ▸ h.images, ho ▸ h.replica⟩

theorem State.Logged.warned {s t : State} (k : s.Logged t) : t.warned = s.warned := by rw [k]; rfl

/-- A poisoned object (R281) that no recovery has begun for. -/
def Obj.poisoned (o : Obj) (inj : Bool) : Obj := { o with st := .poisoned, epoch := o.epoch + 1, move := none, recover := none, inj := inj }

/-- A recovery that finds no source ends as one without a copy, and the object stays POISONED (R284). -/
theorem State.recoverFrom_obj_of_poisoned {s : State} {i : Nat} {o : Obj} {inj : Bool} (ho : s.obj i = o.poisoned inj) (hp : o.droppable = false)
    (hr : o.rvalid = false) (hb : s.prs.bvalid = false) (hi : s.prs.images = []) (hu : s.Unarmed) (hw : s.warned = false) :
    (s.recoverFrom i 0).1.obj i = o.poisoned inj := by
  have hsrc : s.source i 0 = none := by
    have hp' : (o.poisoned inj).droppable = false := hp
    have hr' : (o.poisoned inj).rvalid = false := hr
    simp [State.source, State.mirrorOk, State.imageOf, ho, hp', hr', hb, hi]
  have he : s.recoverFrom i 0 = (s.noCopy i (s.obj i).inj, []) := by
    simp [State.recoverFrom, hw, s.injArmed_unarmed _ _ _ hu, State.usable, hsrc]
  rw [he, State.noCopy, State.obj, (State.ev_logged _ _ _ _ _ _ _ (by decide)).objs]
  simp [State.setObj, ho, Obj.poisoned]

/-- The hod's entry and registers once object `i` is POISONED, before the event and the recovery (R281). -/
def State.markPoisoned (s : State) (i : Nat) (inj : Bool) : State :=
  { s.setObj i ((s.obj i).poisoned inj) with hod := { s.hod with fault := setBit s.hod.fault 0 true, poisoned := satInc s.hod.poisoned } }

theorem State.poison_copyless {s : State} {i : Nat} (h : s.Copyless i) (addr : Nat) (inj : Bool) :
    (s.poison i addr inj).1
      = (((s.markPoisoned i inj).ev (srcOf 0x05 0) evObjPoisoned addr (s.obj i).handle.toNat [] inj).recoverFrom i 0).1 := by
  simp [State.poison, h.resident, h.still, h.settled, State.giveDest, State.markPoisoned, Obj.poisoned]

/-- A resident object without a copy is left POISONED. -/
theorem State.poison_obj {s : State} {i : Nat} (h : s.Copyless i) (hu : s.Unarmed) (hw : s.warned = false) (addr : Nat) (inj : Bool) :
    (s.poison i addr inj).1.obj i = (s.obj i).poisoned inj := by
  have hl := (s.markPoisoned i inj).ev_logged (srcOf 0x05 0) evObjPoisoned addr (s.obj i).handle.toNat [] inj (by decide)
  have hunarmed := ((State.Settles.refl (s.markPoisoned i inj)).ev (srcOf 0x05 0) evObjPoisoned addr (s.obj i).handle.toNat [] inj).unarmed hu
  rw [State.poison_copyless h]
  refine State.recoverFrom_obj_of_poisoned ?_ h.page h.replica (hl.prs ▸ h.mirror) (hl.prs ▸ h.images) hunarmed (hl.warned.trans hw)
  rw [State.obj, hl.objs]
  exact State.setObj_obj ..

/-- Reading a block that mismatches twice poisons its object, when it has no copy. -/
theorem State.detect_obj_of_bad {s : State} {rs : List ObjRef} {i b : Nat} (hb : s.badIn rs = some (i, b)) (h : s.Copyless i) (hu : s.Unarmed)
    (hw : s.warned = false) (src k : Nat) : (s.detect src k rs []).s.obj i = (s.obj i).poisoned false := by
  let u := (s.csumMismatch src i b).csumMismatch src i b
  have hl : s.Logged u := (s.csumMismatch_logged src i b).trans (State.csumMismatch_logged ..)
  have hunarmed : u.Unarmed := (((State.Settles.refl s).csumMismatch ..).csumMismatch ..).unarmed hu
  have he : (s.detect src k rs []).s = (u.poison i (s.blockAddr i b) false).1 := by
    simp [State.detect, s.armedAt_unarmed src rs hu, State.verify, hb, u]
  have ho : u.obj i = s.obj i := by rw [State.obj, hl.objs]; rfl
  rw [he, State.poison_obj (h.logged hl) hunarmed (hl.warned.trans hw), ho]

/-! ## A NUM.STEPUPD held on its loss object (R349) -/

/-- A NUM.STEPUPD reads the loss word that LOSS names (R349). -/
theorem State.refs_numStepupd {s : State} {o : Op} (hk : o.kind = .numStepupd) {h off : Nat} (hl : s.prs.loss = some (h, off)) :
    s.refs o = [{ h := h, lo := off, n := 4, wr := false }] := by
  simp only [State.refs, hk, hl]

/-- Nothing but its own recompute reaches a POISONED object. -/
theorem State.reaches_poisoned {s : State} {r : ObjRef} {i : Nat} (hi : hIdx r.h = i) (hst : (s.obj i).st = .poisoned) (hr : (s.obj i).recompute = none)
    (src : OpSrc) : s.reaches src r = false := by
  cases src <;> simp [State.reaches, hi, hst, hr]

/-- An outbound operation that its detections put out of reach of what it accesses leaves the numeric state block as it is. -/
theorem State.longOpComplete_nsb_of_out_of_reach {s : State} {id : Nat} {ds : List Detect} {o : Op} (ho : s.findOp id = some o) (hu : o.unit = .outbound)
    (hr : let t := (s.detect o.detector o.core (s.endReads o) ds).s; (t.refs o).all (t.reaches o.src) = false) :
    (s.longOpComplete id ds).nsb = s.nsb := by
  have hs := ((State.Settles.refl s).detect o.detector o.core (s.endReads o) ds).settle (s.detect o.detector o.core (s.endReads o) ds).again
  simp only [State.longOpComplete, ho, hu, hr]
  split
  · rfl
  · exact hs.nsb

/-- A NUM.STEPUPD whose loss word lies in a block that mismatches twice is held on the loss object, when that has no copy. -/
theorem State.longOpComplete_nsb_of_bad_loss {s : State} {id h off b : Nat} {o : Op} (ho : s.findOp id = some o) (hk : o.kind = .numStepupd)
    (hu : o.unit = .outbound) (hl : s.prs.loss = some (h, off)) (hb : s.badIn (s.refs o) = some (hIdx h, b)) (hc : s.Copyless (hIdx h))
    (ha : s.Unarmed) (hw : s.warned = false) : (s.longOpComplete id []).nsb = s.nsb := by
  have he : s.endReads o = s.refs o := if_pos hk
  refine State.longOpComplete_nsb_of_out_of_reach ho hu ?_
  rw [he]
  have hobj := State.detect_obj_of_bad hb hc ha hw o.detector o.core
  have hprs := ((State.Settles.refl s).detect o.detector o.core (s.refs o) []).prs
  generalize (s.detect o.detector o.core (s.refs o) []).s = t at hobj hprs
  have hrec : (s.obj (hIdx h)).recompute = none := by
    have := hc.settled
    simp only [State.recomputing, Bool.or_eq_false_iff, Option.isSome_eq_false_iff, Option.isNone_iff_eq_none] at this
    exact this.1
  have hreach := State.reaches_poisoned (s := t) (r := { h := h, lo := off, n := 4, wr := false }) rfl (by rw [hobj]; rfl) (by rw [hobj]; exact hrec) o.src
  simp [State.refs_numStepupd hk (hprs ▸ hl), hreach]

/-- A NUM.STEPUPD of context 0 that has started. -/
def stepupdOp : Op := { id := 0, src := .ctx 0, kind := .numStepupd, ins := {}, core := 0, off := 0, st := .started }

/-- A module after COMMIT, its loss word in a resident object whose only listed block mismatches at both reads of R254. -/
def badLossState : State :=
  { nsb := { outcome := 1, interval := 1000 }, nextOp := 1, ops := [stepupdOp], objs := [(1, { handle := 1, st := .fast, size := 1 })]
    bad := [(badKey 1 0, 1)], prs := { loss := some (1, 0) } }

theorem badLossState_quiet : badLossState.Quiet where
  recompute := by
    intro p hp
    rw [List.mem_singleton.1 hp]
  fetch := fun _ => nofun
  held := fun x => by
    have h : badLossState.holds stepupdOp = false := by decide
    exact ⟨by simp [State.opHeld, show badLossState.ops = [stepupdOp] from rfl, h], nofun⟩

/-- Before the read that finds the mismatch, the loss object is within reach. -/
theorem badLossState_reaches : (badLossState.refs stepupdOp).all (badLossState.reaches stepupdOp.src) = true := by decide

theorem badLossState_bad : badLossState.badIn (badLossState.refs stepupdOp) = some (1, 0) := by decide

theorem badLossState_copyless : badLossState.Copyless 1 := ⟨rfl, rfl, rfl, rfl, rfl, rfl, rfl⟩

end Sys2Proof.Machine

/-! ## The obligation -/

open Sys2Proof Sys2Proof.Machine

/-- Refutes O31: its premises on a NUM.STEPUPD leave out that the block of the loss word is sound. In `badLossState` mason's read of the word poisons the loss
object, so the operation is held (R254, R349), and the step's update is not applied. -/
theorem not_stepScale : ¬ Obligations.StepScale := by
  unfold Obligations.StepScale
  rintro ⟨-, hruns⟩
  obtain ⟨hupd, -⟩ := hruns 0 badLossState stepupdOp 0 rfl rfl rfl rfl rfl rfl badLossState_quiet rfl (by decide)
  obtain ⟨t, ht, hn, -⟩ := hupd rfl rfl badLossState_reaches
  have hkeeps : t.nsb = badLossState.nsb := by
    rw [← Host.Outcome.next.inj ht]
    exact State.longOpComplete_nsb_of_bad_loss rfl rfl rfl rfl badLossState_bad badLossState_copyless rfl rfl
  exact absurd (hkeeps.symm.trans hn) (by decide)

end

section
/-! PROOF. Instruction words (R115, R118, R119): a word is made of its fields, and what a CLASS and an OP decode to encodes as that CLASS and OP. -/

namespace Sys2Proof.Photer

/-- A word is its CLASS, its OP and the rest (R115). -/
theorem pack_fields (w : BitVec 128) : pack (clsOf w) (opOf w) (insOf w) = w := by
  simp only [pack, clsOf, opOf, insOf]
  iterate 5 rw [BitVec.extractLsb'_append_extractLsb'_eq_extractLsb' (by decide)]
  simp

/-- The instruction that a CLASS and an OP name has their word. -/
theorem encode_instrOf {x : Fin 512} {e : Ecc} {i : Ins} {cls op : Nat} {c : Instr} (h : instrOf x e i cls op = some c) :
    encode c = some (x, pack (.ofNat 4 cls) (.ofNat 8 op) i) := by
  unfold instrOf at h
  split at h
  case h_12 => cases h
  all_goals
    simp only [ctlOp, scaOp, movOp, matOp, vecOp, attOp, synOp, arcOp, hodOp, numOp, ingOp] at h
    split at h <;> cases h
    all_goals rfl

/-- The CLASS codes from 0xB on are reserved (R118). -/
theorem instrOf_reserved (x : Fin 512) (e : Ecc) (i : Ins) {cls : Nat} (op : Nat) (h : 0xB ≤ cls) : instrOf x e i cls op = none := by
  unfold instrOf
  split
  case h_12 => rfl
  all_goals omega

/-- What a word decodes to has that word. -/
theorem encode_of_decode {x : Fin 512} {e : Ecc} {w : BitVec 128} {c : Instr} (h : decode x e w = some c) : encode c = some (x, w) := by
  rw [encode_instrOf h, BitVec.ofNat_toNat, BitVec.ofNat_toNat, BitVec.setWidth_eq, BitVec.setWidth_eq, pack_fields]

end Sys2Proof.Photer

/-! ## The obligation -/

open Sys2Proof

/-- Settles O6, by the table of CLASS and OP and the fields of a word. -/
theorem photerWords : Obligations.PhoterWords := by
  unfold Obligations.PhoterWords
  exact ⟨fun _ _ _ _ => Photer.encode_of_decode, fun x e _ => Photer.instrOf_reserved x e _ _⟩

end

section
/-! PROOF. What selection does to a context (R91, R92), and what ending or faulting a context leaves (R90, R107, R113, R379). -/

namespace Sys2Proof.Machine

/-! ## Selection -/

/-- The better of what selection holds so far and context `x` (R91). -/
def State.better (s : State) (b : Option Nat) (x : Nat) : Option Nat :=
  if (s.ctx x).st = .ready then
    match b with
    | none => some x
    | some y => if (s.ctx y).prio < (s.ctx x).prio then some x else some y
  else b

theorem State.best_eq (s : State) (k : Nat) : s.best k = (rrFrom k (s.core k).turn).foldl s.better none := rfl

/-- What is held so far, or the context looked at when it is READY. -/
theorem State.better_cases (s : State) (b : Option Nat) (x : Nat) : s.better b x = b ∨ (s.better b x = some x ∧ (s.ctx x).st = .ready) := by
  unfold State.better
  split
  · split
    · exact .inr ⟨rfl, ‹_›⟩
    · split
      · exact .inr ⟨rfl, ‹_›⟩
      · exact .inl rfl
  · exact .inl rfl

theorem State.foldl_better_ready {s : State} {l : List Nat} {b : Option Nat} (hb : ∀ y ∈ b, (s.ctx y).st = .ready) :
    ∀ y ∈ l.foldl s.better b, (s.ctx y).st = .ready := by
  induction l generalizing b with
  | nil => exact hb
  | cons x l ih =>
    refine ih fun y hy => ?_
    rcases s.better_cases b x with h | ⟨h, hx⟩
    · exact hb y (h ▸ hy)
    · rw [h, Option.mem_some_iff] at hy
      exact hy ▸ hx

/-- Selection takes a READY context. -/
theorem State.best_ready {s : State} {k y : Nat} (h : s.best k = some y) : (s.ctx y).st = .ready :=
  State.foldl_better_ready (b := none) (by simp) y (s.best_eq k ▸ h)

/-- A READY context is held, or one of its priority or a higher one. -/
theorem State.better_of_ready {s : State} {x : Nat} (b : Option Nat) (h : (s.ctx x).st = .ready) :
    ∃ z, s.better b x = some z ∧ (s.ctx x).prio ≤ (s.ctx z).prio := by
  simp only [State.better, h, if_true]
  split
  · exact ⟨x, rfl, BitVec.le_refl _⟩
  · split
    · exact ⟨x, rfl, BitVec.le_refl _⟩
    · exact ⟨_, rfl, BitVec.not_lt.1 ‹_›⟩

/-- What is held gives way only to a higher priority. -/
theorem State.better_of_some (s : State) (x y : Nat) : ∃ z, s.better (some y) x = some z ∧ (s.ctx y).prio ≤ (s.ctx z).prio := by
  simp only [State.better]
  split
  · split
    · exact ⟨x, rfl, BitVec.le_of_lt ‹_›⟩
    · exact ⟨y, rfl, BitVec.le_refl _⟩
  · exact ⟨y, rfl, BitVec.le_refl _⟩

/-- Among contexts with a READY one, what is held is of its priority or a higher one. -/
theorem State.foldl_better_prio {s : State} {l : List Nat} {b : Option Nat} {y : Nat}
    (h : (y ∈ l ∧ (s.ctx y).st = .ready) ∨ ∃ z, b = some z ∧ (s.ctx y).prio ≤ (s.ctx z).prio) :
    ∃ z, l.foldl s.better b = some z ∧ (z ∈ l ∨ b = some z) ∧ (s.ctx y).prio ≤ (s.ctx z).prio := by
  induction l generalizing b with
  | nil => simpa using h
  | cons x l ih =>
    have hx : (y ∈ l ∧ (s.ctx y).st = .ready) ∨ ∃ z, s.better b x = some z ∧ (s.ctx y).prio ≤ (s.ctx z).prio := by
      rcases h with ⟨hy, hr⟩ | ⟨z, rfl, hz⟩
      · rcases List.mem_cons.1 hy with rfl | hy
        · exact .inr (State.better_of_ready b hr)
        · exact .inl ⟨hy, hr⟩
      · obtain ⟨v, hv, hp⟩ := s.better_of_some x z
        exact .inr ⟨v, hv, BitVec.le_trans hz hp⟩
    obtain ⟨z, hz, hm, hp⟩ := ih hx
    refine ⟨z, hz, ?_, hp⟩
    rcases hm with hm | hm
    · exact .inl (List.mem_cons_of_mem _ hm)
    · rcases s.better_cases b x with e | ⟨e, -⟩
      · exact .inr (e ▸ hm)
      · exact .inl (Option.some.inj (e.symm.trans hm) ▸ List.mem_cons_self)

/-- Selection leaves a context as it is, or makes a READY one RUNNING. -/
theorem State.select_ctx (s : State) (k y : Nat) : (s.select k).ctx y = s.ctx y
    ∨ ((s.ctx y).st = .ready ∧ s.best k = some y ∧ (s.select k).ctx y = { s.ctx y with st := .running, issued := 0 }) := by
  unfold State.select
  split
  · exact .inl rfl
  · split
    · exact .inl rfl
    · split
      · exact .inl rfl
      · rename_i x hx
        dsimp only
        split
        · by_cases hy : y = x
          · subst hy
            exact .inr ⟨State.best_ready hx, hx, State.setCtx_ctx ..⟩
          · exact .inl (State.setCtx_ctx_ne _ _ _ _ hy)
        · exact .inl rfl

/-- Selection leaves a context that is not READY as it is. -/
theorem State.select_ctx_of_not_ready {s : State} {k y : Nat} (h : (s.ctx y).st ≠ .ready) : (s.select k).ctx y = s.ctx y := by
  rcases s.select_ctx k y with e | ⟨e, -⟩
  · exact e
  · exact absurd e h

/-- A context put into a state that is not READY stays as it was put. -/
theorem State.leave_ctx_of_not_ready {s : State} {x : Nat} {c : Ctx} (h : c.st ≠ .ready) : (s.leave x c).ctx x = c := by
  have e : (s.setCtx x c).ctx x = c := State.setCtx_ctx ..
  rw [State.leave, State.select_ctx_of_not_ready (by rwa [e]), e]

/-- A context that waits is WAITING on what it waits for. -/
theorem State.wait_ctx (s : State) (x : Nat) (w : Wait) : (s.wait x w).ctx x = { s.ctx x with st := .waiting, wait := w } :=
  State.leave_ctx_of_not_ready (by simp)

/-- Selection keeps which context issued last. -/
theorem State.select_core_last (s : State) (k j : Nat) : ((s.select k).core j).last = (s.core j).last := by
  have hset : ∀ {c : Core}, c.last = (s.core k).last → ((s.setCore k c).core j).last = (s.core j).last := by
    intro c hc
    by_cases hj : j = k
    · subst hj
      rw [State.setCore_core, hc]
    · rw [State.setCore_core_ne _ _ _ _ hj]
  unfold State.select
  split
  · rfl
  · split
    · rfl
    · split
      · exact hset rfl
      · dsimp only
        split <;> exact hset rfl

namespace State.Reselected

variable {s t : State} (h : s.Reselected t)
include h

theorem slots : t.slots = s.slots := by rw [h.1]
theorem ops : t.ops = s.ops := by rw [h.1]
theorem nextOp : t.nextOp = s.nextOp := by rw [h.1]
theorem spad : t.spad = s.spad := by rw [h.1]
theorem acc : t.acc = s.acc := by rw [h.1]
theorem objs : t.objs = s.objs := by rw [h.1]
theorem objMem : t.objMem = s.objMem := by rw [h.1]
theorem nsb : t.nsb = s.nsb := by rw [h.1]
theorem ldg : t.ldg = s.ldg := by rw [h.1]
theorem pc (y : Nat) : (t.ctx y).pc = (s.ctx y).pc := by rw [h.2 y]
theorem latchValid (y : Nat) : (t.ctx y).latchValid = (s.ctx y).latchValid := by rw [h.2 y]

end State.Reselected

/-! ## What a fault or an ending reports -/

/-- `t` is `s` but for what reporting to the host and to the ledger changes: CORE_FAULT and CORE_CTX_FLT, completions, and what an event changes. -/
def State.Reports (s t : State) : Prop :=
  t = { s with
    slots := t.slots
    hostMem := t.hostMem
    ldg := t.ldg
    hif := t.hif
    arc := { s.arc with hold := t.arc.hold }
    gge := { s.gge with alert := t.gge.alert }
    pln := { s.pln with stopped := t.pln.stopped, noJob := t.pln.noJob } }

namespace State.Reports

theorem refl (s : State) : s.Reports s := rfl

variable {s t u : State} (h : s.Reports t)
include h

theorem trans (k : t.Reports u) : s.Reports u := by
  unfold State.Reports at h k ⊢
  rw [k, h]

theorem logged (k : t.Logged u) : s.Reports u := by
  refine h.trans ?_
  unfold State.Logged at k
  unfold State.Reports
  rw [k]

theorem ctx (x : Nat) : t.ctx x = s.ctx x := by rw [h]; rfl
theorem spad : t.spad = s.spad := by rw [h]
theorem acc : t.acc = s.acc := by rw [h]
theorem ops : t.ops = s.ops := by rw [h]
theorem nsb : t.nsb = s.nsb := by rw [h]
theorem objs : t.objs = s.objs := by rw [h]
theorem objMem : t.objMem = s.objMem := by rw [h]

end State.Reports

theorem State.setRing_reports (s : State) (m : Mem) (r : Nat) (g : Ring) : s.Reports ({ s with hostMem := m }.setRing r g) := rfl

theorem State.hif_reports (s : State) (o : Hif) : s.Reports { s with hif := o } := rfl

/-- Completions at the front of a ring go to the host and to the interrupt vectors. -/
theorem State.postFront_reports (s : State) (r n : Nat) : s.Reports (s.postFront r n) ∧ (s.postFront r n).slots = s.slots := by
  induction n generalizing s with
  | zero => exact ⟨.refl s, rfl⟩
  | succ n ih =>
    unfold State.postFront
    split
    · split
      · dsimp only
        generalize (if (s.ring r).posted / s.ringSize r % 2 = 0 then 1 else 0) = phase
        split
        · refine ⟨((s.setRing_reports ..).logged (State.signalVector_logged ..)).trans (ih _).1, ?_⟩
          rw [(ih _).2, (State.signalVector_logged _ _).slots]
          rfl
        · exact ⟨(s.setRing_reports ..).trans (ih _).1, (ih _).2⟩
      · exact ⟨.refl s, rfl⟩
    · exact ⟨.refl s, rfl⟩

theorem State.answer_reports (s : State) (r c status result : Nat) :
    s.Reports (s.answer r c status result) ∧ (s.answer r c status result).slots = s.slots := by
  unfold State.answer
  split
  · exact ⟨.refl s, rfl⟩
  · exact ⟨(s.setRing_reports s.hostMem r _).trans (State.postFront_reports ..).1, (State.postFront_reports ..).2⟩

theorem State.endStart_reports (s : State) (x status result : Nat) :
    s.Reports (s.endStart x status result) ∧ (s.endStart x status result).slots = s.slots := by
  unfold State.endStart
  split
  · exact ⟨(s.hif_reports _).trans (State.answer_reports ..).1, (State.answer_reports ..).2⟩
  · exact ⟨.refl s, rfl⟩

theorem State.showFault_reports (s : State) (x code off : Nat) : s.Reports (s.showFault x code off) := by
  unfold State.showFault State.modSlot
  split <;> rfl

/-- CORE_CTX_FLT of a context that faults holds the code and the offset (R113). -/
theorem State.showFault_flt {s : State} {x p : Nat} (code off : Nat) (h : s.slotOf (coreOf x) = some p) :
    Tab.get 0 ((s.showFault x code off).slot p).flt (x % 8) = BitVec.ofNat 64 (code + off * 2 ^ 16) := by
  simp [State.showFault, State.modSlot, h]

/-- A context fault: the context is FAULTED where it is, the fault is reported, and the core selects again. -/
theorem State.faultCtx_eq_select {s : State} {x code off : Nat} {inj : Bool} (hc : isTraceCode code = false) :
    ∃ u, (s.setCtx x { s.ctx x with st := .faulted, wait := .none, asyncFlt := none }).Reports u
      ∧ u.slots = ((s.setCtx x { s.ctx x with st := .faulted, wait := .none, asyncFlt := none }).showFault x code off).slots
      ∧ s.faultCtx x code off true inj = u.select (coreOf x) := by
  let v := ((s.setCtx x { s.ctx x with st := .faulted, wait := .none, asyncFlt := none }).showFault x code off)
  have hev := v.ev_logged (srcOf 0x01 x) code off (s.ctx x).code.toNat [] inj hc
  have hend := (v.ev (srcOf 0x01 x) code off (s.ctx x).code.toNat [] inj).endStart_reports x stFault (code + off * 2 ^ 16)
  exact ⟨_, ((State.showFault_reports ..).logged hev).trans hend.1, hend.2.trans hev.slots, rfl⟩

/-- Context `x` of `t` is FAULTED at its instruction with `code` (R107): CORE_CTX_FLT holds the code and the offset, and no register, byte or operation has changed. -/
structure State.FaultsAt (s t : State) (x code : Nat) : Prop where
  ctx : t.ctx x = { s.ctx x with st := .faulted, wait := .none, asyncFlt := none }
  spad : t.spad = s.spad
  ops : t.ops = s.ops
  flt : ∀ p, s.slotOf (coreOf x) = some p → Tab.get 0 (t.slot p).flt (x % 8) = BitVec.ofNat 64 (code + (s.ctx x).pc.toNat / 16 * 2 ^ 16)

/-- A synchronous fault (R107), where no recompute is to end with it. -/
theorem State.faultIssue_faultsAt {s : State} {x code : Nat} (hc : isTraceCode code = false) (hr : s.NoRecompute) :
    s.FaultsAt (s.faultIssue x code) x code := by
  obtain ⟨u, hu, hslots, he⟩ := State.faultCtx_eq_select (s := s) (x := x) (off := s.pcUnits x) (inj := false) hc
  have hsel := u.select_reselected (coreOf x)
  have hctx : u.ctx x = { s.ctx x with st := .faulted, wait := .none, asyncFlt := none } := by rw [hu.ctx, State.setCtx_ctx]
  have hsettled : s.faultIssue x code = u.select (coreOf x) := by
    rw [State.faultIssue, he, State.settleRecomputes_none]
    rw [State.NoRecompute, hsel.objs, hu.objs]
    exact hr
  rw [hsettled]
  refine ⟨?_, ?_, ?_, fun p hp => ?_⟩
  · rw [State.select_ctx_of_not_ready (by simp [hctx]), hctx]
  · rw [hsel.spad, hu.spad]; rfl
  · rw [hsel.ops, hu.ops]; rfl
  · rw [State.slot, hsel.slots, hslots]
    exact State.showFault_flt code _ hp

/-- A context that ends (R90): IDLE, with what it holds, and its START entry answered. -/
theorem State.endCtx_eq_select (s : State) (x : Nat) :
    ∃ u, (s.setCtx x { s.ctx x with st := .idle, wait := .none }).Reports u ∧ s.endCtx x = u.select (coreOf x) :=
  ⟨_, (State.endStart_reports ..).1, rfl⟩

end Sys2Proof.Machine
end

section
/-! PROOF. SCA on registers and predicates (R125, R126, R130): what each operation gives, in the arithmetic of the rules. -/

namespace Sys2Proof.Machine

/-! ## Values -/

theorem ofNat_toNat_add (a b : W64) : a + b = .ofNat 64 (a.toNat + b.toNat) := by simp [BitVec.ofNat_add]

theorem ofInt_toNat_sub (a b : W64) : a - b = .ofInt 64 ((a.toNat : Int) - b.toNat) := by
  simp [Int.sub_eq_add_neg, BitVec.ofInt_add, BitVec.ofInt_neg, BitVec.sub_eq_add_neg]

theorem ofNat_toNat_mul (a b : W64) : a * b = .ofNat 64 (a.toNat * b.toNat) := by simp [BitVec.ofNat_mul]

theorem shiftLeft_eq_ofNat (a : W64) (n : Nat) : a <<< n = .ofNat 64 (a.toNat * 2 ^ n) :=
  BitVec.eq_of_toNat_eq (by simp [Nat.shiftLeft_eq])

theorem ushiftRight_eq_ofNat (a : W64) (n : Nat) : a >>> n = .ofNat 64 (a.toNat / 2 ^ n) := by
  have h : a.toNat / 2 ^ n < 18446744073709551616 := (Nat.div_le_self ..).trans_lt a.isLt
  exact BitVec.eq_of_toNat_eq (by simp [Nat.shiftRight_eq_div_pow, Nat.mod_eq_of_lt h])

theorem sshiftRight_eq_ofInt (a : W64) (n : Nat) : a.sshiftRight n = .ofInt 64 (a.toInt / 2 ^ n) := by
  rw [BitVec.sshiftRight, Int.shiftRight_eq_div_pow]
  norm_cast

theorem ite_slt (a b : W64) : (if b.slt a then b else a) = if a.toInt ≤ b.toInt then a else b := by
  simp only [BitVec.slt, decide_eq_true_eq, ← not_lt, ite_not]

theorem ite_slt_max (a b : W64) : (if a.slt b then b else a) = if a.toInt ≤ b.toInt then b else a := by
  rcases eq_or_ne a b with rfl | h
  · simp
  · have hne : a.toInt ≠ b.toInt := mt BitVec.eq_of_toInt_eq h
    simp only [BitVec.slt, decide_eq_true_eq, lt_iff_le_and_ne, hne, ne_eq, not_false_eq_true, and_true]

theorem ite_ult (a b : W64) : (if b.ult a then b else a) = if a.toNat ≤ b.toNat then a else b := by
  simp only [BitVec.ult, decide_eq_true_eq, ← not_lt, ite_not]

theorem ite_ult_max (a b : W64) : (if a.ult b then b else a) = if a.toNat ≤ b.toNat then b else a := by
  rcases eq_or_ne a b with rfl | h
  · simp
  · have hne : a.toNat ≠ b.toNat := mt BitVec.eq_of_toNat_eq h
    simp only [BitVec.ult, decide_eq_true_eq, lt_iff_le_and_ne, hne, ne_eq, not_false_eq_true, and_true]

theorem beq_eq_decide_toNat (a b : W64) : (a == b) = decide (a.toNat = b.toNat) := by
  rw [beq_eq_decide, decide_eq_decide, BitVec.toNat_eq]

theorem bne_eq_decide_toNat (a b : W64) : (a != b) = decide (a.toNat ≠ b.toNat) := by
  rw [bne, beq_eq_decide_toNat, decide_not]

theorem add_mul_ofNat (a b : W64) (n : Nat) : a + b * .ofNat 64 n = .ofNat 64 (a.toNat + b.toNat * n) := by
  simp [BitVec.ofNat_add, BitVec.ofNat_mul]

theorem idValue_eq (s : State) (x : Nat) :
    idValue s x = .ofNat 64 (x / 8 + 2 ^ 6 * (x % 8) + 2 ^ 9 * s.arc.node.toNat) := by
  rw [idValue, Nat.mul_comm (x % 8), Nat.mul_comm s.arc.node.toNat]

/-! ## Instructions -/

theorem scaB_eq (s : State) (x : Nat) (i : Ins) : (if i.flag 0 then BitVec.ofNat 64 (i.at 63 0) else s.reg x (i.at 89 85)) = scaB s x i := rfl


section
variable (e : Fin 512 → Ins → State → Host.Outcome State Fault Refusal) {s : State} {x : Fin 512} {i : Ins} {c : Instr} (h : s.Issues x i)
  (hc : exec c s = e x i s)
include h hc

/-- An operation on SA and b writes SD. -/
theorem State.gives_scaBin {f : W64 → W64 → W64} (hw : scaWord i true true true false .b = true) (he : e x i s = scaBin f x i s) {v : W64}
    (hv : f (s.reg x (i.at 94 90)) (scaB s x i) = v) : s.Gives c (s.pastSreg x (i.at 99 95) v) :=
  hv ▸ State.gives_short h hw (hc.trans he) rfl

/-- A comparison of SA with b writes PD. -/
theorem State.gives_scaCmp {f : W64 → W64 → Bool} (hw : scaWord i false true true true .b = true) (he : e x i s = scaCmp f x i s) {v : Bool}
    (hv : f (s.reg x (i.at 94 90)) (scaB s x i) = v) : s.Gives c (s.pastPred x (i.at 84 82) v) :=
  hv ▸ State.gives_short h hw (hc.trans he) rfl

/-- An operation on predicates writes PD. -/
theorem State.gives_scaPred {pb : Bool} {f : Bool → Bool → Bool} (hw : predWord i pb = true) (he : e x i s = scaPred pb f x i s) {v : Bool}
    (hv : f ((s.ctx x).pred (i.at 92 90)) ((s.ctx x).pred (i.at 87 85)) = v) : s.Gives c (s.pastPred x (i.at 84 82) v) :=
  hv ▸ State.gives_short h hw (hc.trans he) rfl

/-- An operation on SA alone writes SD. -/
theorem State.gives_scaUn {f : W64 → W64} (hw : scaWord i true true false false .unused = true) (he : e x i s = scaUn f x i s) {v : W64}
    (hv : f (s.reg x (i.at 94 90)) = v) : s.Gives c (s.pastSreg x (i.at 99 95) v) :=
  hv ▸ State.gives_short h hw (hc.trans he) rfl

/-- A short instruction whose effect is to write SD. -/
theorem State.gives_putSd {w : Bool} (hw : w = true) {f : State → W64} (he : e x i s = .next (s.issueShort x i w (fun s => s.putSd x i (f s)))) {v : W64}
    (hv : f s = v) : s.Gives c (s.pastSreg x (i.at 99 95) v) :=
  hv ▸ State.gives_short h hw (hc.trans he) rfl

/-- A short instruction that leaves its context as `d`. -/
theorem State.gives_past {w : Bool} (hw : w = true) {f : State → State} (he : e x i s = .next (s.issueShort x i w f)) {d : Ctx}
    (hf : f s = s.setCtx x d) : s.Gives c (s.past x d) := State.gives_short h hw (hc.trans he) hf

end

end Sys2Proof.Machine

/-! ## The obligations -/

open Sys2Proof Sys2Proof.Machine

/-- Settles O11: each operation writes SD, and its value in 64-bit words is that of the rule in integers. -/
theorem scaInteger : Obligations.ScaInteger := by
  unfold Obligations.ScaInteger
  intro x i s h hw
  simp only [scaB_eq]
  refine ⟨?_, ?_, ?_, ?_, ?_, ?_, ?_, ?_, ?_, ?_, ?_, ?_, ?_⟩
  · exact State.gives_scaBin execScaAdd h rfl hw rfl (ofNat_toNat_add ..)
  · exact State.gives_scaBin execScaSub h rfl hw rfl (ofInt_toNat_sub ..)
  · exact State.gives_scaBin execScaMul h rfl hw rfl (ofNat_toNat_mul ..)
  · exact State.gives_scaBin execScaAnd h rfl hw rfl rfl
  · exact State.gives_scaBin execScaOr h rfl hw rfl rfl
  · exact State.gives_scaBin execScaXor h rfl hw rfl rfl
  · exact State.gives_scaBin execScaShl h rfl hw rfl (shiftLeft_eq_ofNat ..)
  · exact State.gives_scaBin execScaShr h rfl hw rfl (ushiftRight_eq_ofNat ..)
  · exact State.gives_scaBin execScaSar h rfl hw rfl (sshiftRight_eq_ofInt ..)
  · exact State.gives_scaBin execScaMin h rfl hw rfl (ite_slt ..)
  · exact State.gives_scaBin execScaMax h rfl hw rfl (ite_slt_max ..)
  · exact State.gives_scaBin execScaMinu h rfl hw rfl (ite_ult ..)
  · exact State.gives_scaBin execScaMaxu h rfl hw rfl (ite_ult_max ..)

/-- Settles O12: each comparison and each operation on predicates writes PD. -/
theorem scaPredicates : Obligations.ScaPredicates := by
  unfold Obligations.ScaPredicates
  intro x i s h
  simp only [scaB_eq]
  refine ⟨fun hw => ⟨?_, ?_, ?_, ?_, ?_, ?_⟩, fun hw => ⟨?_, ?_, ?_⟩, fun hw => ?_⟩
  · exact State.gives_scaCmp execScaCmpeq h rfl hw rfl (beq_eq_decide_toNat ..)
  · exact State.gives_scaCmp execScaCmpne h rfl hw rfl (bne_eq_decide_toNat ..)
  · exact State.gives_scaCmp execScaCmplt h rfl hw rfl rfl
  · exact State.gives_scaCmp execScaCmple h rfl hw rfl rfl
  · exact State.gives_scaCmp execScaCmpltu h rfl hw rfl rfl
  · exact State.gives_scaCmp execScaCmpleu h rfl hw rfl rfl
  · exact State.gives_scaPred execScaPand h rfl hw rfl rfl
  · exact State.gives_scaPred execScaPor h rfl hw rfl rfl
  · exact State.gives_scaPred execScaPxor h rfl hw rfl rfl
  · exact State.gives_scaPred execScaPnot h rfl hw rfl rfl

/-- Settles O13: each operation writes SD with its value, and SETIMM the latch. -/
theorem scaOthers : Obligations.ScaOthers := by
  unfold Obligations.ScaOthers
  intro x i s h
  simp only [scaB_eq]
  refine ⟨fun hw => ?_, fun hw => ?_, fun hw => ?_, fun hw => ⟨?_, ?_, ?_⟩, fun hw => ⟨?_, ?_⟩, fun hw => ?_⟩
  · exact State.gives_putSd execScaMaddi h rfl hw rfl (add_mul_ofNat ..)
  · exact State.gives_putSd execScaLi h rfl hw rfl rfl
  · exact State.gives_putSd execScaId h rfl hw rfl (idValue_eq ..)
  · exact State.gives_scaBin execScaFadd32 h rfl hw rfl rfl
  · exact State.gives_scaBin execScaFmul32 h rfl hw rfl rfl
  · exact State.gives_putSd execScaFfma32 h rfl hw rfl rfl
  · exact State.gives_scaUn execScaI2f32 h rfl hw rfl rfl
  · exact State.gives_scaUn execScaF2i32 h rfl hw rfl rfl
  · exact State.gives_past execScaSetimm h rfl hw rfl rfl

end

section
/-! PROOF. Instructions with a range to check (R117, R124, R127), and SCA.LD and SCA.ST. -/

namespace Sys2Proof.Machine

/-! ## Check 7 -/

theorem need_true (c : Nat) : need true c = [] := rfl

theorem need_false (c : Nat) : need false c = [c] := rfl

section
variable (e : Fin 512 → Ins → State → Host.Outcome State Fault Refusal) {s : State} {x : Fin 512} {i : Ins} {c : Instr} (h : s.Issues x i)
  (hc : exec c s = e x i s) {w : Bool} (hw : w = true) {skip run : State → State} (he : e x i s = .next (s.issue x i w skip run))
include h hc hw he

/-- An instruction that no check up to 6 stops has its effect. -/
theorem State.exec_runs : exec c s = .next (run s) := by
  rw [hc, he, hw, State.issue_runs h]

variable {ok : Bool} {go : State → State} (hrun : run s = s.checked x (need ok evBoundsFault) go)
include hrun

/-- Within its range it goes on. -/
theorem State.exec_in_range (hok : ok = true) : exec c s = .next (go s) := by
  rw [State.exec_runs e h hc hw he, hrun, hok, need_true, State.checked_none h.bounds]

/-- Out of its range it raises BOUNDS_FAULT. -/
theorem State.exec_out_of_range (hok : ok = false) : exec c s = .next (s.faultIssue x evBoundsFault) := by
  rw [State.exec_runs e h hc hw he, hrun, hok, need_false, State.checked, h.bounds]
  simp [evIllegalEncoding, evAccOvercommit, evBoundsFault]

end

/-! ## SCA.LD and SCA.ST -/

/-- The addresses that R127 admits. -/
theorem scaAddrOk_iff (a : Nat) : scaAddrOk a = true ↔ a % 8 = 0 ∧ a + 8 ≤ 0x600000 := by
  simp [scaAddrOk, spadEnd]

theorem scaAddrOk_eq_false_iff (a : Nat) : scaAddrOk a = false ↔ a % 8 ≠ 0 ∨ 0x600000 < a + 8 := by
  rw [← Bool.not_eq_true, scaAddrOk_iff]
  omega

/-- A read that no point and no detector reports finds nothing. -/
theorem State.spadCheck_ok {s : State} {k a : Nat}
    (hu : s.injArmed evSpadUncorr (srcOf 0x01 (0x200 + (s.slotOf k).getD 0)) (fun g => g / 8 == a / 8) = false)
    (hc : s.injArmed evSpadCorr (srcOf 0x01 (0x200 + (s.slotOf k).getD 0)) (fun g => g / 8 == a / 8) = false) :
    s.spadCheck k a .ok = (.ok, s) := by
  simp [State.spadCheck, hu, hc]

/-- A load without a detection writes SD with the eight bytes. -/
theorem State.loadSd_ok {s : State} {x : Nat} {i : Ins} (h : s.spadCheck (coreOf x) (scaAddr s x i) .ok = (.ok, s)) :
    s.loadSd x i .ok = s.putSd x i (.ofNat 64 (ofBytes (s.spadRead (coreOf x) (scaAddr s x i) 8))) := by
  simp [State.loadSd, h]

end Sys2Proof.Machine

/-! ## The obligations -/

open Sys2Proof Sys2Proof.Machine

/-- Settles O14: the address passes R127, the read finds nothing, and the load writes SD, the store the eight bytes. -/
theorem scaLoadStore : Obligations.ScaLoadStore := by
  unfold Obligations.ScaLoadStore
  intro x i s h a src ha hend
  have hok : scaAddrOk (scaAddr s x i) = true := (scaAddrOk_iff _).2 ⟨ha, hend⟩
  refine ⟨fun hw hu hc => ⟨_, State.exec_in_range (execScaLd · · .ok) h rfl hw rfl rfl hok, ?_⟩,
    fun hw => ⟨_, State.exec_in_range execScaSt h rfl hw rfl rfl hok, ?_⟩⟩
  · rw [State.loadSd_ok (State.spadCheck_ok hu hc)]
    exact State.setCtx_advance_reselected ..
  · exact State.advance_reselected ..

/-- Settles O15: an address that R127 rejects raises BOUNDS_FAULT, and a synchronous fault leaves registers and bytes as they are. -/
theorem scaBounds : Obligations.ScaBounds := by
  unfold Obligations.ScaBounds
  intro x i s h hr a stops hbad
  have hok : scaAddrOk (scaAddr s x i) = false := (scaAddrOk_eq_false_iff _).2 hbad
  have hf := State.faultIssue_faultsAt (s := s) (x := x) (code := evBoundsFault) (by decide) hr
  have hstops : ∀ c, exec c s = .next (s.faultIssue x evBoundsFault) → stops c := fun c hc =>
    ⟨_, hc, by rw [hf.ctx], by rw [hf.ctx], by rw [hf.ctx], hf.spad, hf.flt⟩
  exact ⟨fun hw => hstops _ (State.exec_out_of_range (execScaLd · · .ok) h rfl hw rfl rfl hok),
    fun hw => hstops _ (State.exec_out_of_range execScaSt h rfl hw rfl rfl hok)⟩

end

section
/-! PROOF. CTL (R90, R92, R122 to R124): where branches go, and how a context gives up its core. -/

namespace Sys2Proof.Machine

/-! ## Branches (R122 to R124) -/

section
variable (e : Fin 512 → Ins → State → Host.Outcome State Fault Refusal) {s : State} {x : Fin 512} {i : Ins} {c : Instr} (h : s.Issues x i)
  (hc : exec c s = e x i s) {w : Bool} (hw : w = true) {skip run : State → State} (he : e x i s = .next (s.issue x i w skip run))
include h hc hw he

/-- A branch to a target inside the text region takes its context there. -/
theorem State.gives_branch {d : Ctx} {target : W64} (hrun : run s = s.branchTo x d target) (ht : s.inText x target.toNat = true) :
    s.Gives c (s.atPc x d target) :=
  ⟨_, State.exec_in_range e h hc hw he hrun ht, State.afterIssue_reselected ..⟩

/-- An instruction that is done with its context as `d`. -/
theorem State.gives_past_of_run {d : Ctx} (hrun : run s = (s.setCtx x d).advance x) : s.Gives c (s.past x d) :=
  ⟨_, hrun ▸ State.exec_runs e h hc hw he, State.setCtx_advance_reselected ..⟩

/-- An instruction that only moves on. -/
theorem State.gives_past_self (hrun : run s = s.advance x) : s.Gives c (s.past x (s.ctx x)) :=
  ⟨_, hrun ▸ State.exec_runs e h hc hw he, State.advance_reselected ..⟩

end

/-! ## CTL.YIELD (R91, R123) -/

/-- The contexts of a core before its context `x` in round-robin order from there. -/
def rrOthers (x : Nat) : List Nat := (List.range 7).map (fun c => 8 * coreOf x + (x % 8 + 1 + c) % 8)

/-- Round robin from a context comes back to it last. -/
theorem rrFrom_self (x : Nat) : rrFrom (coreOf x) (x % 8) = rrOthers x ++ [x] := by
  have : 8 * coreOf x + (x % 8 + 1 + 7) % 8 = x := by unfold coreOf; omega
  simp [rrFrom, rrOthers, List.range_succ, this]

theorem mem_rrOthers {x y : Nat} : y ∈ rrOthers x ↔ y ∈ ctxsOf (coreOf x) ∧ y ≠ x := by
  simp only [rrOthers, ctxsOf, coreOf, List.mem_map, List.mem_range]
  constructor
  · rintro ⟨c, hc, rfl⟩
    exact ⟨⟨(x % 8 + 1 + c) % 8, by omega, rfl⟩, by omega⟩
  · rintro ⟨⟨c, hc, rfl⟩, hne⟩
    exact ⟨(c + 7 - x % 8) % 8, by omega, by omega⟩

/-- Selection from a context on takes another one while a READY one of its core has its priority or a higher one. -/
theorem State.best_ne_self {s : State} {x y : Nat} (hturn : (s.core (coreOf x)).turn = x % 8) (hy : y ∈ ctxsOf (coreOf x)) (hne : y ≠ x)
    (hready : (s.ctx y).st = .ready) (hprio : (s.ctx x).prio ≤ (s.ctx y).prio) : s.best (coreOf x) ≠ some x := by
  obtain ⟨z, hz, hm, hp⟩ := State.foldl_better_prio (s := s) (l := rrOthers x) (b := none) (.inl ⟨mem_rrOthers.2 ⟨hy, hne⟩, hready⟩)
  have hzx : z ≠ x := (mem_rrOthers.1 (hm.resolve_right (by simp))).2
  have hkeep : s.better (some z) x = some z := by
    have hle : ¬ (s.ctx z).prio < (s.ctx x).prio := BitVec.not_lt.2 (BitVec.le_trans hprio hp)
    simp [State.better, hle]
  rw [State.best_eq, hturn, rrFrom_self, List.foldl_append, hz, List.foldl_cons, List.foldl_nil, hkeep]
  exact fun h => hzx (Option.some.inj h)

/-- The state in which a context that yields lets its core select. -/
def State.yielding (s : State) (x : Nat) : State :=
  (s.setCore (coreOf x) { s.core (coreOf x) with last := some x, turn := x % 8 }).setCtx x { s.ctx x with st := .ready, pc := (s.ctx x).pc + 16 }

theorem State.yielding_ctx (s : State) (x : Nat) : (s.yielding x).ctx x = { s.ctx x with st := .ready, pc := (s.ctx x).pc + 16 } := State.setCtx_ctx ..

theorem State.yielding_ctx_ne (s : State) {x y : Nat} (h : y ≠ x) : (s.yielding x).ctx y = s.ctx y := State.setCtx_ctx_ne _ _ _ _ h

theorem State.yielding_core (s : State) (x : Nat) : (s.yielding x).core (coreOf x) = { s.core (coreOf x) with last := some x, turn := x % 8 } := by
  rw [State.yielding, State.setCtx_core, State.setCore_core]

theorem State.past_reselected_yielding (s : State) (x : Nat) : (s.past x (s.ctx x)).Reselected (s.yielding x) := by
  refine ⟨rfl, fun y => ?_⟩
  by_cases hy : y = x
  · subst hy
    rw [State.yielding_ctx, State.past, State.setCtx_ctx]
  · rw [s.yielding_ctx_ne hy, State.past, State.setCtx_ctx_ne _ _ _ _ hy]

/-- A context that has yielded is READY, or RUNNING again where no other one comes before it. -/
theorem State.yielded_st (s : State) (x : Nat) : (((s.yielding x).select (coreOf x)).ctx x).st = .ready
    ∨ (((s.yielding x).select (coreOf x)).ctx x).st = .running := by
  rcases (s.yielding x).select_ctx (coreOf x) x with h | ⟨-, -, h⟩
  · exact .inl (by rw [h, State.yielding_ctx])
  · exact .inr (by rw [h])

theorem State.yielded_ready {s : State} {x y : Nat} (hy : y ∈ ctxsOf (coreOf x)) (hne : y ≠ x) (hready : (s.ctx y).st = .ready)
    (hprio : (s.ctx x).prio ≤ (s.ctx y).prio) : (((s.yielding x).select (coreOf x)).ctx x).st = .ready := by
  have hbest : (s.yielding x).best (coreOf x) ≠ some x := by
    refine State.best_ne_self (by rw [State.yielding_core]) hy hne ?_ ?_
    · rwa [s.yielding_ctx_ne hne]
    · rwa [s.yielding_ctx_ne hne, State.yielding_ctx]
  rcases (s.yielding x).select_ctx (coreOf x) x with h | ⟨-, h, -⟩
  · rw [h, State.yielding_ctx]
  · exact absurd h hbest

/-! ## CTL.DRAIN and CTL.END (R90, R123) -/

theorem State.issuedLast_ctx (s : State) (x y : Nat) : (s.issuedLast x).ctx y = s.ctx y := rfl

theorem State.issuedLast_reselected (s : State) (x : Nat) : s.Reselected (s.issuedLast x) := State.Reselected.setCore ..

/-- A context that waits at its instruction, having issued last. -/
theorem State.issuedLast_wait (s : State) (x : Nat) (w : Wait) :
    s.Reselected ((s.issuedLast x).wait x w) ∧ ((s.issuedLast x).wait x w).ctx x = { s.ctx x with st := .waiting, wait := w } :=
  ⟨(s.issuedLast_reselected x).trans (State.wait_reselected ..), by rw [State.wait_ctx, State.issuedLast_ctx]⟩

/-- A context that ends is IDLE with the registers it has, and where no recompute ends with it the memories, operations and every other program counter stay. -/
theorem State.endCtx_settled {s : State} {x : Nat} (hr : s.NoRecompute) : ∃ u, (s.setCtx x { s.ctx x with st := .idle, wait := .none }).Reports u
    ∧ u.Reselected (s.endCtx x).settleRecomputes ∧ (s.endCtx x).settleRecomputes.ctx x = { s.ctx x with st := .idle, wait := .none } := by
  obtain ⟨u, hu, he⟩ := s.endCtx_eq_select x
  have hsel := u.select_reselected (coreOf x)
  have hctx : u.ctx x = { s.ctx x with st := .idle, wait := .none } := by rw [hu.ctx, State.setCtx_ctx]
  have hsettled : (s.endCtx x).settleRecomputes = u.select (coreOf x) := by
    rw [he, State.settleRecomputes_none]
    rw [State.NoRecompute, hsel.objs, hu.objs]
    exact hr
  rw [hsettled]
  exact ⟨u, hu, hsel, by rw [State.select_ctx_of_not_ready (by simp [hctx]), hctx]⟩

end Sys2Proof.Machine

/-! ## The obligations -/

open Sys2Proof Sys2Proof.Machine

/-- Settles O9: NOP moves on; a taken branch passes check 7 and sets the program counter, with the link or the count written; LOOP at zero moves on. -/
theorem ctlBranches : Obligations.CtlBranches := by
  unfold Obligations.CtlBranches
  intro x i s h c target n
  refine ⟨fun hw => ?_, fun hw ht => ?_, fun hw ht => ?_, fun hw ht => ?_, fun hw hn => ?_, fun hw hn ht => ?_⟩
  · exact State.gives_past_self execCtlNop h rfl hw rfl rfl
  · exact State.gives_branch execCtlBr h rfl hw rfl rfl ht
  · exact State.gives_branch execCtlBrx h rfl hw rfl rfl ht
  · exact State.gives_branch execCtlCall h rfl hw rfl rfl ht
  · exact State.gives_past_of_run execCtlLoop h rfl hw rfl 
      ((if_pos hn).trans (congrArg (fun v => (s.setCtx x (c.setSreg (i.at 94 90) v)).advance x) hn))
  · exact State.gives_branch execCtlLoop h rfl hw rfl (if_neg hn) ht

/-- Settles O10: YIELD by the order of round robin, which comes back to the context last; DRAIN and END by whether an operation is outstanding. -/
theorem ctlHolds : Obligations.CtlHolds := by
  unfold Obligations.CtlHolds
  intro x i s h hw
  refine ⟨⟨_, State.exec_runs execCtlYield h rfl hw rfl, ?_⟩, fun ho => ?_, fun ho => ?_, fun ho hr => ?_, fun ho => ?_⟩
  · refine ⟨(s.past_reselected_yielding x).trans (State.select_reselected ..), s.yielded_st x, ?_,
      fun y hy hne hready hprio => State.yielded_ready hy hne hready hprio⟩
    exact (State.select_core_last ..).trans (congrArg Core.last (s.yielding_core x))
  · exact State.gives_past_self execCtlDrain h rfl hw rfl (if_pos ho)
  · obtain ⟨hsel, hctx⟩ := s.issuedLast_wait x .drain
    refine ⟨_, State.exec_runs execCtlDrain h rfl hw rfl, ?_⟩
    rw [if_neg ho]
    exact ⟨hsel, by rw [hctx], by rw [hctx]⟩
  · have hrun := State.exec_runs execCtlEnd (c := .ctlEnd x i) h rfl hw rfl
    have hout : ((s.setCtx x { s.ctx x with latchValid := false }).issuedLast x).outstanding x = 0 := ho
    simp only [State.endOrHold, hout, if_true] at hrun
    obtain ⟨u, hu, hsel, hctx⟩ := State.endCtx_settled (s := (s.setCtx x { s.ctx x with latchValid := false }).issuedLast x) (x := x) hr
    rw [State.issuedLast_ctx, State.setCtx_ctx] at hctx
    refine ⟨_, hrun, by rw [hctx], by rw [hctx], by rw [hctx], by rw [hctx], by rw [hctx], fun y hy => ?_, ?_, ?_, ?_, ?_, ?_⟩
    · rw [hsel.pc, hu.ctx, State.setCtx_ctx_ne _ _ _ _ hy, State.issuedLast_ctx, State.setCtx_ctx_ne _ _ _ _ hy]
    · exact hsel.objMem.trans hu.objMem
    · exact hsel.spad.trans hu.spad
    · exact hsel.acc.trans hu.acc
    · exact hsel.nsb.trans hu.nsb
    · exact hsel.ops.trans hu.ops
  · have hrun := State.exec_runs execCtlEnd (c := .ctlEnd x i) h rfl hw rfl
    have hout : ((s.setCtx x { s.ctx x with latchValid := false }).issuedLast x).outstanding x ≠ 0 := ho
    simp only [State.endOrHold, hout, if_false] at hrun
    obtain ⟨hsel, hctx⟩ := (s.setCtx x { s.ctx x with latchValid := false }).issuedLast_wait x .ended
    rw [State.setCtx_ctx] at hctx
    exact ⟨_, hrun, by rw [hctx], by rw [hctx], by rw [hctx], hsel⟩

end

section
/-! PROOF. Words that checks 4 or 5 reject (R107, R117): every Photer instruction issues through the same checks, and a rejected word faults its context. -/

namespace Sys2Proof.Machine

/-! ## What the records of a MAT instruction leave alone -/

theorem State.traceDrain_frame (n : Nat) (s : State) : (s.traceDrain n).ctxs = s.ctxs ∧ (s.traceDrain n).slots = s.slots := by
  induction n generalizing s with
  | zero => exact ⟨rfl, rfl⟩
  | succ n ih =>
    unfold State.traceDrain
    split
    · exact ⟨rfl, rfl⟩
    · split
      · exact ih _
      · exact ⟨rfl, rfl⟩

/-- A trace record changes no context and no slot. -/
theorem State.trace_frame (s : State) (e : Ev) : (s.trace e).ctxs = s.ctxs ∧ (s.trace e).slots = s.slots := by
  unfold State.trace
  dsimp only
  split
  · exact State.traceDrain_frame ..
  · exact ⟨rfl, rfl⟩

theorem State.repass_frame (s t : State) (x : Nat) (i : Ins) (kind : LKind) : (s.repass t x i kind).ctxs = t.ctxs ∧ (s.repass t x i kind).slots = t.slots := by
  unfold State.repass
  dsimp only
  split
  · exact ⟨rfl, rfl⟩
  · split
    · exact State.trace_frame ..
    · exact ⟨rfl, rfl⟩

theorem State.matInjected_frame (s t : State) (x : Nat) : (s.matInjected t x).ctxs = t.ctxs ∧ (s.matInjected t x).slots = t.slots := by
  unfold State.matInjected
  split <;> exact ⟨rfl, rfl⟩

/-! ## The issue of every instruction -/

/-- Command `c` issues as `i` of context `x` with `w` as its answer to checks 4 and 5, and what it records beside leaves contexts and slots alone. -/
def State.IssuesAs (s : State) (x : Fin 512) (i : Ins) (w : Bool) (c : Instr) : Prop :=
  ∃ skip run t, exec c s = .next t ∧ t.ctxs = (s.issue x i w skip run).ctxs ∧ t.slots = (s.issue x i w skip run).slots

section
variable {s : State} {x : Fin 512} {i : Ins} {w : Bool} {c : Instr} {skip run : State → State}

theorem State.issuesAs_of_issue (h : exec c s = .next (s.issue x i w skip run)) : s.IssuesAs x i w c := ⟨_, _, _, h, rfl, rfl⟩

theorem State.issuesAs_of_matInjected (h : exec c s = .next (s.matInjected (s.issue x i w skip run) x)) : s.IssuesAs x i w c :=
  ⟨_, _, _, h, (State.matInjected_frame ..).1, (State.matInjected_frame ..).2⟩

theorem State.issuesAs_of_repass {k : LKind} (h : exec c s = .next (s.repass (s.matInjected (s.issue x i w skip run) x) x i k)) : s.IssuesAs x i w c :=
  ⟨_, _, _, h, (State.repass_frame ..).1.trans (State.matInjected_frame ..).1, (State.repass_frame ..).2.trans (State.matInjected_frame ..).2⟩

end

section
variable (s : State) (x : Fin 512) (i : Ins)

theorem State.controlWords_issue : ∀ p ∈ controlWords x i, s.IssuesAs x i p.1 p.2 := by
  simp only [controlWords, List.forall_mem_cons, List.not_mem_nil, false_imp_iff, implies_true, and_true]
  and_intros <;> exact State.issuesAs_of_issue rfl

theorem State.arithmetic_issue : ∀ c ∈ arithmetic x i, s.IssuesAs x i (scaWord i true true true false .b) c := by
  simp only [arithmetic, List.forall_mem_cons, List.not_mem_nil, false_imp_iff, implies_true, and_true]
  and_intros <;> exact State.issuesAs_of_issue rfl

theorem State.comparisons_issue : ∀ c ∈ comparisons x i, s.IssuesAs x i (scaWord i false true true true .b) c := by
  simp only [comparisons, List.forall_mem_cons, List.not_mem_nil, false_imp_iff, implies_true, and_true]
  and_intros <;> exact State.issuesAs_of_issue rfl

theorem State.scalarWords_issue : ∀ p ∈ scalarWords x i, s.IssuesAs x i p.1 p.2 := by
  simp only [scalarWords, List.forall_mem_cons, List.not_mem_nil, false_imp_iff, implies_true, and_true]
  and_intros <;> exact State.issuesAs_of_issue rfl

theorem State.tensorWords_issue : ∀ p ∈ tensorWords x i, s.IssuesAs x i (p.1 && i.sigOk (coreOf x)) p.2 := by
  simp only [tensorWords, List.forall_mem_cons, List.not_mem_nil, false_imp_iff, implies_true, and_true]
  and_intros
  iterate 7 exact State.issuesAs_of_issue rfl
  iterate 4 exact State.issuesAs_of_repass rfl
  iterate 4 exact State.issuesAs_of_matInjected rfl
  iterate 2 exact State.issuesAs_of_issue rfl

theorem State.vectorWords_issue : ∀ p ∈ vectorWords x i, s.IssuesAs x i (p.1 && i.sigOk (coreOf x)) p.2 := by
  simp only [vectorWords, List.forall_mem_cons, List.not_mem_nil, false_imp_iff, implies_true, and_true]
  and_intros <;> exact State.issuesAs_of_issue rfl

theorem State.outboundWords_issue : ∀ p ∈ outboundWords x i, s.IssuesAs x i (p.1 && i.sigOk (coreOf x)) p.2 := by
  simp only [outboundWords, List.forall_mem_cons, List.not_mem_nil, false_imp_iff, implies_true, and_true]
  and_intros <;> exact State.issuesAs_of_issue rfl

/-- Every Photer instruction issues through `State.issue`. -/
theorem State.words_issue : ∀ p ∈ shortWords x i ++ longWords x i, s.IssuesAs x i p.1 p.2 := by
  simp only [shortWords, longWords, List.forall_mem_append, List.forall_mem_map]
  exact ⟨⟨⟨⟨s.controlWords_issue x i, s.arithmetic_issue x i⟩, s.comparisons_issue x i⟩, s.scalarWords_issue x i⟩,
    ⟨s.tensorWords_issue x i, s.vectorWords_issue x i⟩, s.outboundWords_issue x i⟩

end

end Sys2Proof.Machine

/-! ## The obligation -/

open Sys2Proof Sys2Proof.Machine

/-- Settles O8: every instruction issues through the same checks, and a word that they reject is a synchronous fault. -/
theorem illegalEncoding : Obligations.IllegalEncoding := by
  unfold Obligations.IllegalEncoding
  intro x i s h hr p hp hw
  obtain ⟨skip, run, t, ht, hctxs, hslots⟩ := s.words_issue x i p hp
  have hf := State.faultIssue_faultsAt (s := s) (x := x) (code := evIllegalEncoding) (by decide) hr
  rw [hw, State.issue_illegal h] at hctxs hslots
  have hctx : t.ctx x = (s.faultIssue x evIllegalEncoding).ctx x := by rw [State.ctx, hctxs, State.ctx]
  refine ⟨t, ht, by rw [hctx, hf.ctx], by rw [hctx, hf.ctx], fun q hq => ?_⟩
  rw [State.slot, hslots]
  exact hf.flt q hq

end

section
/-! PROOF. The SETIMM latch (R121, R130): what VEC instructions do with a valid one. -/

namespace Sys2Proof.Machine

/-! ## A signal and the context that runs (R315, R320) -/

/-- `t` has the operations of `s`, and context `x` as it runs in `s`: its place and its latch. -/
structure State.Undisturbed (s t : State) (x : Nat) : Prop where
  ops : t.ops = s.ops
  st : (t.ctx x).st = (s.ctx x).st
  pc : (t.ctx x).pc = (s.ctx x).pc
  latchValid : (t.ctx x).latchValid = (s.ctx x).latchValid

namespace State.Undisturbed

variable {s t u : State} {x : Nat}

theorem refl (s : State) (x : Nat) : s.Undisturbed s x := ⟨rfl, rfl, rfl, rfl⟩

theorem trans (h : s.Undisturbed t x) (k : t.Undisturbed u x) : s.Undisturbed u x :=
  ⟨k.ops.trans h.ops, k.st.trans h.st, k.pc.trans h.pc, k.latchValid.trans h.latchValid⟩

theorem of_ctx (ho : t.ops = s.ops) (hc : t.ctx x = s.ctx x) : s.Undisturbed t x := ⟨ho, by rw [hc], by rw [hc], by rw [hc]⟩

theorem logged (h : s.Logged t) : s.Undisturbed t x := of_ctx h.ops (h.ctx x)

/-- A fold of steps that each leave the context that runs. -/
theorem foldl {α : Type} {f : State → α → State} (hf : ∀ (u : State) (a : α), (u.ctx x).st = .running → u.Undisturbed (f u a) x) (hr : (s.ctx x).st = .running)
    (l : List α) : s.Undisturbed (l.foldl f s) x := by
  induction l generalizing s with
  | nil => exact refl s x
  | cons a l ih =>
    have hstep := hf s a hr
    exact hstep.trans (ih (hstep.st.trans hr))

end State.Undisturbed

theorem State.kst_undisturbed (s : State) (k : Kst) (x : Nat) : s.Undisturbed { s with kst := k } x := .of_ctx rfl rfl

theorem State.putCounter_undisturbed (s : State) (c : Counter) (v : W32) (f : Bool) (x : Nat) : s.Undisturbed (s.putCounter c v f) x := by
  cases c with
  | ctx y n =>
    by_cases hx : x = y
    · subst hx
      refine ⟨rfl, ?_, ?_, ?_⟩ <;> simp only [State.putCounter, State.setCtx_ctx]
    · exact .of_ctx rfl (State.setCtx_ctx_ne _ _ _ _ hx)
  | job j => exact .of_ctx rfl rfl
  | sys j => exact .of_ctx rfl rfl

theorem State.leave_undisturbed {s : State} {x y : Nat} {c : Ctx} (hne : x ≠ y) (hr : (s.ctx x).st = .running) : s.Undisturbed (s.leave y c) x := by
  have hctx : (s.setCtx y c).ctx x = s.ctx x := State.setCtx_ctx_ne _ _ _ _ hne
  refine .of_ctx (State.select_reselected ..).ops ?_
  rw [State.leave, State.select_ctx_of_not_ready (by simp [hctx, hr]), hctx]

/-- The release of a waiting context leaves the one that runs. -/
theorem State.wake_undisturbed {s : State} {x y : Nat} {adv : Nat} (hr : (s.ctx x).st = .running) (hw : (s.ctx y).st = .waiting) :
    s.Undisturbed (s.wake y adv) x := by
  have hne : x ≠ y := by
    rintro rfl
    rw [hr] at hw
    cases hw
  unfold State.wake
  dsimp only
  split
  · exact State.leave_undisturbed hne hr
  · exact .of_ctx rfl (State.setCtx_ctx_ne _ _ _ _ hne)

theorem State.release_undisturbed {s : State} {x : Nat} (hr : (s.ctx x).st = .running) (c : Counter) : s.Undisturbed (s.release c) x := by
  refine .foldl (fun u y hu => ?_) hr s.ctxKeys
  split
  · split
    · split
      · exact State.wake_undisturbed hu ‹_›
      · exact .refl u x
    · exact .refl u x
  · exact .refl u x

theorem State.saturated_undisturbed (s : State) (c : Counter) (amt : Int) (inj : Bool) (x : Nat) : s.Undisturbed (s.saturated c amt inj) x := by
  have hput (v : W32) : s.Undisturbed (({ s with kst := { s.kst with sat := satInc s.kst.sat } } : State).putCounter c v true) x :=
    (s.kst_undisturbed _ x).trans (State.putCounter_undisturbed ..)
  unfold State.saturated
  dsimp only
  split
  · exact hput _
  · exact ((hput _).trans (State.kst_undisturbed ..)).trans (.logged (State.ev_logged _ _ _ _ _ _ _ (by decide)))

/-- A signal leaves the context that runs where it is. -/
theorem State.signal_undisturbed {s : State} {x : Nat} (hr : (s.ctx x).st = .running) (c : Counter) (amt : Int) : s.Undisturbed (s.signal c amt) x := by
  have hcheck := s.injCheck_logged evKeySat (satSource c) (fun a => a == nameOf c)
  unfold State.signal
  generalize s.injCheck evKeySat (satSource c) (fun a => a == nameOf c) = p at hcheck
  have hput := (State.Undisturbed.logged hcheck).trans (p.2.putCounter_undisturbed c (addSat (p.2.counter c) amt).1 (p.2.sticky c) x)
  have hsat : s.Undisturbed (if (addSat (p.2.counter c) amt).2 || p.1 then
      (p.2.putCounter c (addSat (p.2.counter c) amt).1 (p.2.sticky c)).saturated c amt p.1
      else p.2.putCounter c (addSat (p.2.counter c) amt).1 (p.2.sticky c)) x := by
    split
    · exact hput.trans (State.saturated_undisturbed ..)
    · exact hput
  exact hsat.trans (State.release_undisturbed (hsat.st.trans hr) c)

theorem State.signalShort_undisturbed {s : State} {x : Nat} (hr : (s.ctx x).st = .running) (k : Nat) (sig : Option Nat) :
    s.Undisturbed (s.signalShort k sig) x := by
  unfold State.signalShort
  split
  · split
    · exact State.signal_undisturbed hr ..
    · exact .refl s x
  · exact .refl s x

/-! ## The issue of VEC (R130) -/

theorem State.advance_ops (s : State) (x : Nat) : (s.advance x).ops = s.ops := (s.advance_reselected x).ops

theorem State.advance_nextOp (s : State) (x : Nat) : (s.advance x).nextOp = s.nextOp := (s.advance_reselected x).nextOp

theorem State.advance_pc (s : State) (x : Nat) : ((s.advance x).ctx x).pc = (s.ctx x).pc + 16 := by
  rw [(s.advance_reselected x).pc, State.past, State.setCtx_ctx]

theorem State.advance_latchValid (s : State) (x : Nat) : ((s.advance x).ctx x).latchValid = (s.ctx x).latchValid := by
  rw [(s.advance_reselected x).latchValid, State.past, State.setCtx_ctx]

theorem State.clearLatch_ctx (s : State) (x : Nat) : (s.clearLatch x).ctx x = { s.ctx x with latchValid := false } := State.setCtx_ctx ..

section
variable {s : State} {x : Fin 512} {i : Ins} {k : LKind} {c : Instr} (hc : exec c s = vecIssue k x i s) (hsig : i.sigOk (coreOf x) = true)
  (hw : vecWord (vecForm k) i = true)
include hc hsig hw

/-- A VEC instruction with an immediate field takes the latch's value, and its entry into the queue makes the latch invalid. -/
theorem State.vec_consumes_latch (h : s.Issues x i) (himm : (vecForm k).imm = true) (hl : (s.ctx x).latchValid = true)
    (hf : vecFaults (s.vecOp k x i) = []) (hr : s.Room x .vector) :
    ∃ t, exec c s = .next t ∧ (t.ctx x).latchValid = false ∧ ∃ o, t.ops = s.ops ++ [o] ∧ o.kind = k ∧ o.imm = (s.ctx x).latch := by
  let o : Op := { s.vecOp k x i with sig := i.sig, ins := i }
  have hrun : exec c s = .next (((s.entered x o).advance x).clearLatch x) := by
    have hentered : s.enqueue x o = (s.entered x o).advance x := State.enqueue_room hr
    have hnext : ((s.entered x o).advance x).nextOp ≠ s.nextOp := by
      rw [State.advance_nextOp]
      exact Nat.succ_ne_self _
    rw [hc, vecIssue, State.issueVec, hw, hsig, Bool.true_and, State.issue_runs h, State.runVec, himm, Bool.true_or, need_true, hf, List.nil_append,
      State.checked_none h.bounds, State.enqueueVec, hentered]
    simp [hnext]
  have hlatch : o.imm = (s.ctx x).latch := if_pos hl
  exact ⟨_, hrun, by rw [State.clearLatch_ctx], { o with id := s.nextOp, src := .ctx x, core := coreOf x, off := s.pcUnits x, st := .queued },
    State.advance_ops .., rfl, hlatch⟩

/-- One without an immediate field is an illegal encoding while the latch is valid. -/
theorem State.vec_refuses_latch (h : s.Issues x i) (himm : (vecForm k).imm = false) (hl : (s.ctx x).latchValid = true) :
    exec c s = .next (s.faultIssue x evIllegalEncoding) := by
  rw [hc, vecIssue, State.issueVec, hw, hsig, Bool.true_and, State.issue_runs h, State.runVec, himm, hl, Bool.not_true, Bool.or_self, need_false, State.checked]
  simp

/-- One whose predicate is false makes the latch invalid, signals and moves on. -/
theorem State.vec_skips_latch (h : s.Skips x i) : ∃ t, exec c s = .next t ∧ (t.ctx x).latchValid = false ∧ (t.ctx x).pc = (s.ctx x).pc + 16 ∧ t.ops = s.ops := by
  have hrun : exec c s = .next (((s.clearLatch x).signalShort (coreOf x) i.sig).advance x) := by
    rw [hc, vecIssue, State.issueVec, hw, hsig, Bool.true_and, State.issue_skips h, State.skipLong]
  have hctx := s.clearLatch_ctx x
  have hkeeps := State.signalShort_undisturbed (s := s.clearLatch x) (by rw [hctx]; exact h.running) (coreOf x) i.sig
  refine ⟨_, hrun, ?_, ?_, ?_⟩
  · rw [State.advance_latchValid, hkeeps.latchValid, hctx]
  · rw [State.advance_pc, hkeeps.pc, hctx]
  · rw [State.advance_ops, hkeeps.ops]
    rfl

end

/-- The VEC instructions of R170 with an immediate field. -/
def immediateVec (x : Fin 512) (i : Ins) : List (LKind × Instr) := [(.vecMuli, .vecMuli x i), (.vecAddi, .vecAddi x i), (.vecSel, .vecSel x i)]

/-- Those of R170 to R172 without one. -/
def plainVec (x : Fin 512) (i : Ins) : List (LKind × Instr) :=
  [(.vecAdd, .vecAdd x i), (.vecSub, .vecSub x i), (.vecMul, .vecMul x i), (.vecFma, .vecFma x i), (.vecMax, .vecMax x i), (.vecMin, .vecMin x i),
    (.vecAbs, .vecAbs x i), (.vecExp2, .vecExp2 x i), (.vecLog2, .vecLog2 x i), (.vecRcp, .vecRcp x i), (.vecRsqrt, .vecRsqrt x i), (.vecRsum, .vecRsum x i),
    (.vecRmax, .vecRmax x i), (.vecRamax, .vecRamax x i)]

theorem immediateVec_issue (x : Fin 512) (i : Ins) (s : State) :
    ∀ p ∈ immediateVec x i, exec p.2 s = vecIssue p.1 x i s ∧ (vecForm p.1).imm = true := by
  simp only [immediateVec, List.forall_mem_cons, List.not_mem_nil, false_imp_iff, implies_true, and_true]
  and_intros <;> rfl

theorem plainVec_issue (x : Fin 512) (i : Ins) (s : State) : ∀ p ∈ plainVec x i, exec p.2 s = vecIssue p.1 x i s ∧ (vecForm p.1).imm = false := by
  simp only [plainVec, List.forall_mem_cons, List.not_mem_nil, false_imp_iff, implies_true, and_true]
  and_intros <;> rfl

end Sys2Proof.Machine

/-! ## The obligation -/

open Sys2Proof Sys2Proof.Machine

/-- Settles O22: the entry into the queue consumes the latch, check 5 refuses it where there is no immediate field, and a skipped instruction clears it. -/
theorem setimmConsumed : Obligations.SetimmConsumed := by
  unfold Obligations.SetimmConsumed
  intro x i s hsig hl
  refine ⟨fun h k c hkc hw hf hr => ?_, fun h hr k c hkc hw => ?_, fun h k c hkc hw => ?_⟩
  · obtain ⟨hc, himm⟩ := immediateVec_issue x i s (k, c) hkc
    exact State.vec_consumes_latch hc hsig hw h himm hl hf hr
  · obtain ⟨hc, himm⟩ := plainVec_issue x i s (k, c) hkc
    have hfault := State.faultIssue_faultsAt (s := s) (x := x) (code := evIllegalEncoding) (by decide) hr
    exact ⟨_, State.vec_refuses_latch hc hsig hw h himm hl, by rw [hfault.ctx], by rw [hfault.ctx]; exact hl, hfault.ops⟩
  · have hc : exec c s = vecIssue k x i s := by
      simp only [List.mem_cons, Prod.mk.injEq, List.not_mem_nil, or_false] at hkc
      rcases hkc with ⟨rfl, rfl⟩ | ⟨rfl, rfl⟩ | ⟨rfl, rfl⟩ | ⟨rfl, rfl⟩ <;> rfl
    exact State.vec_skips_latch hc hsig hw h

end

section
/-! PROOF. A skipped product beside an operation with a number that has not been given (R121, R154): ACC_REPASS is recorded all the same. -/

namespace Sys2Proof.Machine

/-- A product whose predicate is false signals and moves on; then ACC_REPASS looks for it among the operations. -/
theorem State.matFwd_skips {s : State} {x : Fin 512} {i : Ins} (h : s.Skips x i) (hw : matProductWord .matFwd i = true) (hsig : i.sigOk (coreOf x) = true)
    (hinj : s.injOvercommit x = false) : exec (.matFwd x i) s = .next (s.repass (s.skipLong x i) x i .matFwd) := by
  have hissue (op : State → List Nat × Op) : s.matIssue x i (matProductWord .matFwd i) op = s.skipLong x i := by
    rw [State.matIssue, State.issueLong, hw, hsig, Bool.true_and, State.issue_skips h]
  show execMatFwd x i s = _
  rw [execMatFwd, matProduct, hissue, State.matInjected, hinj]
  rfl

/-- With an operation of the kind numbered beyond those given, a product of more passes than one is taken to have entered, and the trace buffer that is off drops
its record. -/
theorem State.repass_traceDrop {s t : State} {x : Nat} {i : Ins} {k : LKind}
    (hstale : t.ops.any (fun o => s.nextOp ≤ o.id && o.src == .ctx x && o.kind == k) = true)
    (hpasses : 1 < passes (shapeM ((s.productOp k x i).r 2)) (shapeN ((s.productOp k x i).r 2)) (slotsOf (matSmask i)).length)
    (hoff : bitOf t.ldg.traceCfg.toNat 24 = false) : (s.repass t x i k).ldg.traceDrop = satInc t.ldg.traceDrop := by
  rw [State.repass, hstale]
  dsimp only
  rw [if_neg (by simp), if_pos hpasses, State.ev, State.post, if_pos (by rfl), State.trace, hoff]
  rfl

/-- A product on context 0 whose predicate is p1, with its shape in s1 and one slot. -/
def skippedProduct : Ins := { psel := 1, opd := .ofNat 100 (2 ^ 71 + 2 ^ 2) }

/-- Context 0 runs with p1 false and a shape of two tile rows in s1; a product of it has number 0, and no number has been given. -/
def staleState : State :=
  { ctxs := [(0, { pc := 256, code := 0x100005, st := .running, sr := [(1, 0x1000)] })]
    objs := [(5, { handle := 0x100005, st := .fast, kind := .code, size := 1, codeText := some (256, 4096) })]
    ops := [{ id := 0, src := .ctx 0, kind := .matFwd, unit := .farray, ins := {}, core := 0, off := 16 }]
    pln := { groups := 8 } }

theorem staleState_skips : staleState.Skips 0 skippedProduct where
  running := by decide
  core := by decide
  noFault := by decide
  held := by decide
  waits := by decide
  fetch := by decide
  text := by decide
  verifies := staleState.readIns_nothing 0 skippedProduct rfl (by decide) (by decide) (by decide)
  point := by decide
  defined := by decide +kernel
  reserved := rfl
  psel := by decide
  predicate := by decide

end Sys2Proof.Machine

/-! ## The obligation -/

open Sys2Proof Sys2Proof.Machine

/-- Refutes O7: it does not ask that the numbers of operations in flight have been given (`State.Numbered`). In `staleState` a product of the context has number 0 and
none has been given, so a skipped MAT.FWD of two passes takes that product for itself and records ACC_REPASS, which changes the trace buffer's count of drops. -/
theorem not_falsePredicate : ¬ Obligations.FalsePredicate := by
  unfold Obligations.FalsePredicate
  intro h
  obtain ⟨-, hlong⟩ := h 0 skippedProduct staleState staleState_skips
  have hmem : (matProductWord .matFwd skippedProduct && skippedProduct.sigOk (coreOf 0), Instr.matFwd 0 skippedProduct) ∈ longWords 0 skippedProduct := by
    simp [longWords, tensorWords]
  obtain ⟨t, ht, hsel⟩ := hlong (by decide) (by decide) _ hmem (by decide)
  rw [State.matFwd_skips staleState_skips (by decide) (by decide) (by decide)] at ht
  have hdrop : t.ldg.traceDrop = satInc staleState.ldg.traceDrop := by
    rw [← Host.Outcome.next.inj ht]
    exact State.repass_traceDrop (by decide) (by decide) (by decide)
  have hkept : t.ldg.traceDrop = staleState.ldg.traceDrop := congrArg Ldg.traceDrop hsel.ldg
  exact absurd (hkept.symm.trans hdrop) (by decide)

end

section
/-! PROOF. What scheduling, signals and reports leave alone (R90 to R92, R120, R315, R379): operations, objects, memories and the hod's registers. -/

namespace Sys2Proof.Machine

/-! ## States that agree on operations, objects and memories -/

/-- `t` has the operations, the objects with their bytes and poisoned blocks, the scratchpads, the accumulators, the numeric state block and the hod's registers
of `s`. -/
structure State.KeepsObjects (s t : State) : Prop where
  ops : t.ops = s.ops
  objs : t.objs = s.objs
  objMem : t.objMem = s.objMem
  bad : t.bad = s.bad
  spad : t.spad = s.spad
  acc : t.acc = s.acc
  nsb : t.nsb = s.nsb
  hod : t.hod = s.hod

namespace State.KeepsObjects

variable {s t u : State}

theorem refl (s : State) : s.KeepsObjects s := ⟨rfl, rfl, rfl, rfl, rfl, rfl, rfl, rfl⟩

theorem trans (h : s.KeepsObjects t) (k : t.KeepsObjects u) : s.KeepsObjects u where
  ops := k.ops.trans h.ops
  objs := k.objs.trans h.objs
  objMem := k.objMem.trans h.objMem
  bad := k.bad.trans h.bad
  spad := k.spad.trans h.spad
  acc := k.acc.trans h.acc
  nsb := k.nsb.trans h.nsb
  hod := k.hod.trans h.hod

theorem of_reselected (h : s.Reselected t) : s.KeepsObjects t := by
  rw [h.1]
  exact ⟨rfl, rfl, rfl, rfl, rfl, rfl, rfl, rfl⟩

theorem of_logged (h : s.Logged t) : s.KeepsObjects t := by
  rw [h]
  exact ⟨rfl, rfl, rfl, rfl, rfl, rfl, rfl, rfl⟩

theorem of_reports (h : s.Reports t) : s.KeepsObjects t := by
  rw [h]
  exact ⟨rfl, rfl, rfl, rfl, rfl, rfl, rfl, rfl⟩

/-- A fold of steps each of which keeps them. -/
theorem foldl {α : Type} {f : State → α → State} (hf : ∀ (u : State) (a : α), u.KeepsObjects (f u a)) (l : List α) (s : State) :
    s.KeepsObjects (l.foldl f s) := by
  induction l generalizing s with
  | nil => exact refl s
  | cons a l ih => exact (hf s a).trans (ih _)

variable (h : s.KeepsObjects t)
include h

theorem obj (i : Nat) : t.obj i = s.obj i := by rw [State.obj, h.objs, State.obj]

theorem badBlock (i b : Nat) : t.badBlock i b = s.badBlock i b := by rw [State.badBlock, h.bad, State.badBlock]

theorem findOp (id : Nat) : t.findOp id = s.findOp id := by rw [State.findOp, h.ops, State.findOp]

theorem noRecompute (k : s.NoRecompute) : t.NoRecompute := by rwa [State.NoRecompute, h.objs]

theorem noneHeld (k : s.NoneHeld) : t.NoneHeld := by rwa [State.NoneHeld, h.ops]

end State.KeepsObjects

/-! ## Contexts -/

theorem State.setCtx_keepsObjects (s : State) (x : Nat) (c : Ctx) : s.KeepsObjects (s.setCtx x c) := ⟨rfl, rfl, rfl, rfl, rfl, rfl, rfl, rfl⟩

theorem State.select_keepsObjects (s : State) (k : Nat) : s.KeepsObjects (s.select k) := .of_reselected (s.select_reselected k)

theorem State.leave_keepsObjects (s : State) (x : Nat) (c : Ctx) : s.KeepsObjects (s.leave x c) :=
  (s.setCtx_keepsObjects x c).trans (State.select_keepsObjects ..)

theorem State.wake_keepsObjects (s : State) (x adv : Nat) : s.KeepsObjects (s.wake x adv) := by
  unfold State.wake
  dsimp only
  split
  · exact s.leave_keepsObjects ..
  · exact s.setCtx_keepsObjects ..

theorem State.wakeFetch_keepsObjects (s : State) : s.KeepsObjects s.wakeFetch :=
  .foldl (fun u x => by
    split
    · exact u.wake_keepsObjects ..
    · exact .refl u) _ s

theorem State.queueFreed_keepsObjects (s : State) (k : Nat) (q : CoreUnit) : s.KeepsObjects (s.queueFreed k q) :=
  .foldl (fun u x => by
    split
    · exact u.wake_keepsObjects ..
    · exact .refl u) _ s

theorem State.waitHeld_keepsObjects (s : State) (x : Nat) : s.KeepsObjects (s.waitHeld x) := by
  unfold State.waitHeld
  split
  · exact s.leave_keepsObjects ..
  · exact .refl s

theorem State.parkCtx_keepsObjects (s : State) (x : Nat) : s.KeepsObjects (s.parkCtx x) := by
  unfold State.parkCtx
  split
  · exact s.waitHeld_keepsObjects x
  · split
    · exact s.wake_keepsObjects ..
    · exact .refl s

theorem State.park_keepsObjects (s : State) : s.KeepsObjects s.park := .foldl State.parkCtx_keepsObjects _ s

/-- With nothing to evaluate, settlement only lets contexts wait and go on. -/
theorem State.settle_nil_keepsObjects (s : State) : s.KeepsObjects (s.settle []) := by
  have hnil : s.settleN (s.settleFuel []) [] = s := by cases s.settleFuel [] <;> rfl
  rw [State.settle, hnil]
  exact s.wakeFetch_keepsObjects.trans (State.park_keepsObjects _)

/-- With no page being recomputed, none ends. -/
theorem State.NoRecompute.settleRecomputes_keepsObjects {s : State} (h : s.NoRecompute) : s.KeepsObjects s.settleRecomputes := by
  rw [State.settleRecomputes_none h]
  exact .refl s

/-! ## The end of a context's operation (R90, R92, R382) -/

theorem State.answer_keepsObjects (s : State) (r c status result : Nat) : s.KeepsObjects (s.answer r c status result) :=
  .of_reports (State.answer_reports ..).1

theorem State.endStart_keepsObjects (s : State) (x status result : Nat) : s.KeepsObjects (s.endStart x status result) :=
  .of_reports (State.endStart_reports ..).1

theorem State.showFault_keepsObjects (s : State) (x code off : Nat) : s.KeepsObjects (s.showFault x code off) :=
  .of_reports (State.showFault_reports ..)

theorem State.endHeld_keepsObjects (s : State) (x : Nat) : s.KeepsObjects (s.endHeld x) := by
  unfold State.endHeld
  split
  · exact (((s.setCtx_keepsObjects ..).trans (State.showFault_keepsObjects ..)).trans (State.endStart_keepsObjects ..)).trans
      (State.select_keepsObjects ..)
  · exact ((s.setCtx_keepsObjects ..).trans (State.endStart_keepsObjects ..)).trans (State.select_keepsObjects ..)

theorem State.ctxGone_keepsObjects (s : State) (x : Nat) : s.KeepsObjects (s.ctxGone x) := by
  have hwake (adv : Nat) (b : Prop) [Decidable b] : s.KeepsObjects (if b then s.wake x adv else s) := by
    split
    · exact s.wake_keepsObjects ..
    · exact .refl s
  unfold State.ctxGone
  dsimp only
  split
  · exact .refl s
  · split
    · split
      · split
        · exact s.endHeld_keepsObjects x
        · exact s.setCtx_keepsObjects ..
      · exact .refl s
    · exact hwake ..
    · exact s.wake_keepsObjects ..
    · split
      · exact .refl s
      · exact s.wake_keepsObjects ..
    · exact .refl s

theorem State.msn_keepsObjects (s : State) (m : Msn) : s.KeepsObjects { s with msn := m } := ⟨rfl, rfl, rfl, rfl, rfl, rfl, rfl, rfl⟩

theorem State.preemptDone_keepsObjects (s : State) : s.KeepsObjects s.preemptDone := by
  unfold State.preemptDone
  split
  · split
    · exact (s.msn_keepsObjects _).trans (State.answer_keepsObjects ..)
    · exact .refl s
  · exact .refl s

theorem State.opGone_keepsObjects (s : State) (x : Nat) : s.KeepsObjects (s.opGone x) :=
  (s.ctxGone_keepsObjects x).trans (State.preemptDone_keepsObjects _)

/-! ## Signals (R315, R320) -/

theorem State.putCounter_keepsObjects (s : State) (c : Counter) (v : W32) (f : Bool) : s.KeepsObjects (s.putCounter c v f) := by
  cases c <;> exact ⟨rfl, rfl, rfl, rfl, rfl, rfl, rfl, rfl⟩

theorem State.kst_keepsObjects (s : State) (k : Kst) : s.KeepsObjects { s with kst := k } := ⟨rfl, rfl, rfl, rfl, rfl, rfl, rfl, rfl⟩

theorem State.saturated_keepsObjects (s : State) (c : Counter) (amt : Int) (inj : Bool) : s.KeepsObjects (s.saturated c amt inj) := by
  unfold State.saturated
  dsimp only
  split
  · exact (s.kst_keepsObjects _).trans (State.putCounter_keepsObjects ..)
  · exact (((s.kst_keepsObjects _).trans (State.putCounter_keepsObjects ..)).trans (State.kst_keepsObjects ..)).trans
      (.of_logged (State.ev_logged _ _ _ _ _ _ _ (by decide)))

theorem State.release_keepsObjects (s : State) (c : Counter) : s.KeepsObjects (s.release c) :=
  .foldl (fun u x => by
    split
    · split
      · split
        · exact u.wake_keepsObjects ..
        · exact .refl u
      · exact .refl u
    · exact .refl u) _ s

theorem State.signal_keepsObjects (s : State) (c : Counter) (amt : Int) : s.KeepsObjects (s.signal c amt) := by
  have hput (v : W32) (f : Bool) := (State.KeepsObjects.of_logged (s.injCheck_logged evKeySat (satSource c) (fun a => a == nameOf c))).trans
    (State.putCounter_keepsObjects _ c v f)
  unfold State.signal
  dsimp only
  refine State.KeepsObjects.trans ?_ (State.release_keepsObjects ..)
  split
  · exact (hput _ _).trans (State.saturated_keepsObjects ..)
  · exact hput _ _

theorem State.signalShort_keepsObjects (s : State) (k : Nat) (sig : Option Nat) : s.KeepsObjects (s.signalShort k sig) := by
  unfold State.signalShort
  split
  · split
    · exact s.signal_keepsObjects ..
    · exact .refl s
  · exact .refl s

end Sys2Proof.Machine
end

section
/-! PROOF. Operations and the object table: what the hod's small steps give on a quiet module (R265, R270 to R273). -/

namespace Sys2Proof

/-- What a table lists after a write of one key is what it listed, or what was written. -/
theorem Tab.mem_of_mem_set {α : Type} [DecidableEq α] {d v : α} {t : Tab α} {k : Nat} {p : Nat × α} (h : p ∈ Tab.set d t k v) : p ∈ t ∨ p = (k, v) := by
  simp only [Tab.set, Tab.setRange, Tab.enc, List.mem_append, List.mem_filter] at h
  rcases h with (h | h) | h
  · exact .inl h.1
  · split at h
    · cases h
    · exact .inr (List.mem_singleton.1 h)
  · exact .inl h.1

/-- A key reads as the default or as what the table lists for it. -/
theorem Tab.get_eq_or_mem {α : Type} (d : α) (t : Tab α) (k : Nat) : Tab.get d t k = d ∨ (k, Tab.get d t k) ∈ t := by
  induction t with
  | nil => exact .inl rfl
  | cons p t ih =>
    obtain ⟨a, v⟩ := p
    rw [Tab.get_cons]
    split
    · next h => exact .inr (h ▸ List.mem_cons_self)
    · exact ih.imp_right (List.mem_cons_of_mem _)

end Sys2Proof

namespace Sys2Proof.Machine

/-! ## No recompute (R225) -/

theorem State.NoRecompute.obj {s : State} (h : s.NoRecompute) (i : Nat) : (s.obj i).recompute = none := by
  rcases Tab.get_eq_or_mem {} s.objs i with e | e
  · rw [State.obj, e]
  · exact h _ e

theorem State.NoRecompute.setObj {s : State} (h : s.NoRecompute) (i : Nat) {o : Obj} (ho : o.recompute = none) : (s.setObj i o).NoRecompute := by
  intro p hp
  rcases Tab.mem_of_mem_set hp with hp | rfl
  · exact h p hp
  · exact ho

/-! ## Pins -/

/-- Removing pins changes the object table only. -/
theorem State.unpin_frame (s : State) (o : Op) : s.unpin o = { s with objs := (s.unpin o).objs } := by
  unfold State.unpin
  generalize o.pinned = l
  induction l generalizing s with
  | nil => rfl
  | cons i l ih =>
    rw [List.foldl_cons, ih]
    rfl

theorem State.NoRecompute.unpin {s : State} (h : s.NoRecompute) (o : Op) : (s.unpin o).NoRecompute := by
  unfold State.unpin
  generalize o.pinned = l
  induction l generalizing s with
  | nil => exact h
  | cons i l ih => exact ih (h.setObj i (h.obj i))

/-! ## Operations by number -/

/-- An operation that replaces one in flight is in flight. -/
theorem State.mem_setOp {s : State} {p o : Op} (hp : p ∈ s.ops) (hid : p.id = o.id) : o ∈ (s.setOp o).ops :=
  List.mem_map.2 ⟨p, hp, if_pos hid⟩

theorem State.findOp_dropOp (s : State) (id : Nat) : (s.dropOp id).findOp id = none := by
  simp [State.findOp, State.dropOp]

/-! ## Nothing held (R271, R273) -/

theorem State.NoneHeld.mono {s t : State} (h : s.NoneHeld) (hs : ∀ o ∈ t.ops, o ∈ s.ops) : t.NoneHeld := fun o ho => h o (hs o ho)

theorem State.NoneHeld.setOp {s : State} (h : s.NoneHeld) {o : Op} (ho : o.st = .started) : (s.setOp o).NoneHeld := by
  intro q hq
  obtain ⟨p, hp, rfl⟩ := List.mem_map.1 hq
  split
  · simp [ho]
  · exact h p hp

theorem State.noneHeld_of_no_ops {s : State} (h : s.ops = []) : s.NoneHeld := by
  intro o ho
  rw [h] at ho
  cases ho

theorem State.NoneHeld.heldOn {s : State} (h : s.NoneHeld) (i : Nat) : s.heldOn i = [] := by
  unfold State.heldOn
  rw [List.filterMap_eq_nil_iff.2, List.mergeSort_nil]
  · rfl
  · intro o ho
    split
    · next j a he => exact absurd he ((h o ho).1 j a)
    · rfl

theorem State.NoneHeld.capWaiters {s : State} (h : s.NoneHeld) : s.capWaiters = [] := by
  unfold State.capWaiters
  rw [List.filterMap_eq_nil_iff.2, List.mergeSort_nil]
  intro o ho
  split
  · next c p a he => exact absurd he ((h o ho).2 c p a)
  · rfl

/-- The requests on an object are settled by doing nothing when there are none. -/
theorem State.NoneHeld.settleObj_keepsObjects {s : State} (h : s.NoneHeld) (i : Nat) : s.KeepsObjects (s.settleObj i) := by
  rw [State.settleObj, h.heldOn]
  exact s.settle_nil_keepsObjects

theorem State.NoneHeld.foldl_settleObj_keepsObjects {s : State} (h : s.NoneHeld) (l : List Nat) : s.KeepsObjects (l.foldl State.settleObj s) := by
  induction l generalizing s with
  | nil => exact .refl s
  | cons i l ih =>
    have hk := h.settleObj_keepsObjects i
    exact hk.trans (ih (hk.noneHeld h))

/-! ## Capacity (R273) -/

/-- Capacity that returns changes the hod's registers only. -/
theorem State.giveUnits_frame (s : State) (home n pages : Nat) : (s.giveUnits home n pages).1 = { s with hod := (s.giveUnits home n pages).1.hod } := by
  unfold State.giveUnits
  dsimp only
  split
  · rfl
  · split <;> rfl

/-- Capacity that returns releases nothing where nothing waits for it. -/
theorem State.NoneHeld.giveUnits {s : State} (h : s.NoneHeld) (home n pages : Nat) : (s.giveUnits home n pages).2 = [] := by
  have hcap (c : Hod) : ({ s with hod := c } : State).capWaiters = [] := State.NoneHeld.capWaiters (s := { s with hod := c }) h
  unfold State.giveUnits
  dsimp only
  split
  · rfl
  · split <;> simp [hcap]

/-- An object that leaves its home: what leaves a region with it and the hod's registers change, nothing else. -/
theorem State.vacate_frame (s : State) (i : Nat) :
    (s.vacate i).1 = { s with ops := s.ops.filter (fun q => !q.leaves i), hod := (s.vacate i).1.hod } :=
  State.giveUnits_frame ..

theorem State.NoneHeld.vacate {s : State} (h : s.NoneHeld) (i : Nat) : (s.vacate i).2 = [] :=
  State.NoneHeld.giveUnits (h.mono fun _ ho => (List.mem_filter.1 ho).1) ..

end Sys2Proof.Machine
end

section
/-! PROOF. HOD operations of a context (R270, R274 to R277): the start of one that its object's state satisfies, and its completion. -/

namespace Sys2Proof.Machine

/-! ## HOD operations among the kinds -/

theorem LKind.arch_of_hodOp {k : LKind} (h : k.hodOp = true) : k.arch = false := by
  cases k <;> simp [LKind.hodOp, LKind.arch] at h ⊢

/-- A HOD operation reaches no bytes of an object. -/
theorem State.refs_of_hodOp {s : State} {o : Op} (h : o.kind.hodOp = true) : s.refs o = [] := by
  cases hk : o.kind <;> simp [hk, LKind.hodOp, State.refs] at h ⊢

theorem State.endReads_of_hodOp {s : State} {o : Op} (h : o.kind.hodOp = true) : s.endReads o = [] := by
  cases hk : o.kind <;> simp [hk, LKind.hodOp, State.endReads] at h ⊢

theorem State.startOp_of_hodOp {s : State} {o : Op} (h : o.kind.hodOp = true) : s.startOp o = s.eval o := by
  cases hk : o.kind <;> simp [hk, LKind.hodOp, State.startOp] at h ⊢

theorem State.badIn_nil (s : State) : s.badIn [] = none := by
  simp [State.badIn]

/-- An operation that reads nothing and finds nothing changes nothing by its detections. -/
theorem State.detect_nil {s : State} (h : s.Unarmed) (src k : Nat) : s.detect src k [] [] = { s := s } := s.detect_nothing src k [] h s.badIn_nil

theorem State.rampUp_of_outbound {s : State} {o : Op} (h : o.unit = .outbound) : s.rampUp o = s := by
  simp [State.rampUp, Op.arrays, h]

/-- A context's request that is satisfied awaits its completion. -/
theorem State.satisfied_ctx {s : State} {o : Op} (hx : ∃ x, o.src = .ctx x) (r : Nat) : s.satisfied o r = s.setOp { o with st := .started } := by
  obtain ⟨x, hx⟩ := hx
  simp [State.satisfied, hx]

/-! ## The start (R96, R104) -/

/-- Operation `o` of a context is at the head of core `k`'s outbound port, its checks find nothing, nothing keeps it from starting, and nothing waits. -/
structure State.StartsNow (s : State) (k : Nat) (o : Op) : Prop where
  head : s.head k .outbound = some o
  ctx : ∃ x, o.src = .ctx x
  free : s.unitFree o = true
  calm : s.warned = false
  checks : s.faults8 o = []
  unarmed : s.Unarmed
  noRecompute : s.NoRecompute
  noneHeld : s.NoneHeld
  unpinned : o.pinned = []

/-- `t` follows the start of `o` in `s`: `o` awaits its completion, and the objects are those of `u`. -/
structure State.Started (s u : State) (o : Op) (t : State) : Prop where
  op : ∃ q ∈ t.ops, q.id = o.id ∧ q.st = .started
  objMem : t.objMem = s.objMem
  nsb : t.nsb = s.nsb
  objs : t.objs = u.objs
  spad : t.spad = u.spad

theorem State.Started.obj {s u t : State} {o : Op} (h : s.Started u o t) (i : Nat) : t.obj i = u.obj i := by rw [State.obj, h.objs, State.obj]

namespace State.StartsNow

variable {s : State} {k : Nat} {o : Op} (h : s.StartsNow k o)
include h

theorem mem : o ∈ s.ops := List.mem_of_find?_eq_some h.head

theorem outbound : o.unit = .outbound := by
  have := List.find?_some h.head
  simp only [Bool.and_eq_true, beq_iff_eq] at this
  exact this.1.2

/-- The start of a HOD operation evaluates it at once. -/
theorem operationStart (hk : o.kind.hodOp = true) :
    s.operationStart k .outbound [] = (((s.eval o).1.settle (s.eval o).2).queueFreed k .outbound).settleRecomputes := by
  have hinj (code src : Nat) : s.injArmed code src = false := s.injArmed_unarmed code src _ h.unarmed
  simp [State.operationStart, h.head, h.free, h.calm, h.checks, hinj, State.outReads, LKind.arch_of_hodOp hk, State.detect_nil h.unarmed,
    State.rampUp_of_outbound h.outbound, State.startOp_of_hodOp hk]

/-- A HOD operation that is satisfied in `u` has started, and what it changed stands. -/
theorem started (hk : o.kind.hodOp = true) {u : State} {q : Op} {r : Nat} (he : s.eval o = (u.satisfied q r, [])) (hsrc : q.src = o.src)
    (hid : q.id = o.id) (hmem : ∃ p ∈ u.ops, p.id = o.id) (hr : u.NoRecompute) (hm : u.objMem = s.objMem) (hn : u.nsb = s.nsb) :
    s.Started u o (s.operationStart k .outbound []) := by
  obtain ⟨p, hp, hpid⟩ := hmem
  have hqueue := (State.settle_nil_keepsObjects (u.setOp { q with st := .started })).trans (State.queueFreed_keepsObjects _ k .outbound)
  have hend := hqueue.trans (hqueue.noRecompute hr).settleRecomputes_keepsObjects
  rw [h.operationStart hk, he, State.satisfied_ctx (hsrc ▸ h.ctx) r]
  refine ⟨⟨{ q with st := .started }, ?_, hid, rfl⟩, hend.objMem.trans hm, hend.nsb.trans hn, hend.objs, hend.spad⟩
  rw [hend.ops]
  exact State.mem_setOp hp (hpid.trans hid.symm)

end State.StartsNow

/-! ## What each HOD operation does at its start (R270, R275, R276) -/

/-- Object `i` with one more pin, which operation `o` holds. -/
def State.pinnedBy (s : State) (o : Op) (i : Nat) : State :=
  (s.setObj i { s.obj i with pins := (s.obj i).pins + 1 }).setOp { o with pinned := [i] }

theorem State.pinnedBy_obj (s : State) (o : Op) (i : Nat) : (s.pinnedBy o i).obj i = { s.obj i with pins := (s.obj i).pins + 1 } :=
  State.setObj_obj ..

theorem State.pinFor_of_unpinned {s : State} {o : Op} (h : o.pinned = []) (i : Nat) : s.pinFor o i = (s.pinnedBy o i, { o with pinned := [i] }) := by
  simp [State.pinFor, h, State.pinnedBy]

section
variable {s : State} {o : Op} {i : Nat} (hi : hIdx o.hodHandle = i)
include hi

theorem State.eval_hodPin (hk : o.kind = .hodPin) (hp : o.pinned = []) (hr : (s.obj i).st = .fast ∨ (s.obj i).st = .slow) :
    s.eval o = ((s.pinnedBy o i).satisfied { o with pinned := [i] }, []) := by
  rcases hr with hr | hr <;> simp [State.eval, hk, hi, State.evalPin, State.pinFor_of_unpinned hp, State.pinnedBy_obj, hr]

theorem State.eval_hodUnpin (hk : o.kind = .hodUnpin) (hx : ∃ x, o.src = .ctx x) (h : s.NoneHeld) :
    s.eval o = ((s.setObj i { s.obj i with pins := (s.obj i).pins - 1 }).satisfied o, []) := by
  have hheld : ((s.setObj i { s.obj i with pins := (s.obj i).pins - 1 }).satisfied o).NoneHeld := by
    rw [State.satisfied_ctx hx]
    exact State.NoneHeld.setOp (s := s.setObj ..) h rfl
  simp only [State.eval, hk, hi]
  exact congrArg (Prod.mk _) (hheld.heldOn i)

theorem State.eval_hodPromote_in_footing (hk : o.kind = .hodPromote) (hp : o.pinned = []) (hr : (s.obj i).st = .fast) (hh : (s.obj i).home = 0) :
    s.eval o = ((s.pinnedBy o i).satisfied { o with pinned := [i] } (o.regs.getD 1 0).toNat, []) := by
  simp [State.eval, hk, hi, State.evalPromote, State.pinFor_of_unpinned hp, State.pinnedBy_obj, hr, hh]

theorem State.eval_hodDemote_in_undercroft (hk : o.kind = .hodDemote) (hr : (s.obj i).st = .slow) (hh : (s.obj i).home = 1) (ht : o.target.1 = 1) :
    s.eval o = (s.satisfied o, []) := by
  simp [State.eval, hk, hi, State.evalDemote, hr, hh, ht]

/-- A page that is dropped releases nothing where nothing waits for capacity. -/
theorem State.eval_hodDrop (hk : o.kind = .hodDrop) (h : s.NoneHeld) (hd : s.mayDrop i = true) : s.eval o = ((s.dropPage i).1.satisfied o, []) := by
  have hnone : (s.dropPage i).2 = [] := State.NoneHeld.vacate (s := s.setObj i { s.obj i with st := .dropped }) h i
  have hr : (s.obj i).st = .fast ∨ (s.obj i).st = .slow := by
    simp only [State.mayDrop, Bool.and_eq_true, Bool.or_eq_true, beq_iff_eq] at hd
    exact hd.1.1.2
  rcases hr with hr | hr <;> simp [State.eval, hk, hi, State.evalDrop, hr, hd, hnone]

theorem State.eval_hodTrim (hk : o.kind = .hodTrim) (hr : (s.obj i).st = .fast ∨ (s.obj i).st = .slow) (hsucc : (s.obj i).succ = false)
    (hfill : fld o.hodArg 31 0 ≤ (s.obj i).fill) : s.eval o = ((s.setObj i ((s.obj i).setP 1 31 0 (fld o.hodArg 31 0))).satisfied o, []) := by
  rcases hr with hr | hr <;> simp [State.eval, hk, hi, State.evalTrim, hr, hsucc, Nat.not_lt.2 hfill]

/-- APPEND to a page with room for the tokens: its FILL rises, and the result line names no new page. -/
theorem State.eval_hodAppend_fits (hk : o.kind = .hodAppend) (hr : (s.obj i).st = .fast ∨ (s.obj i).st = .slow) (hsucc : (s.obj i).succ = false)
    (hfits : (s.obj i).fill + fld o.hodArg 31 0 ≤ (s.obj i).cap) :
    s.eval o = (((s.setObj i ((s.obj i).setP 1 31 0 ((s.obj i).fill + fld o.hodArg 31 0))).appendLine o (s.obj i).handle.toNat 0
      ((s.obj i).fill + fld o.hodArg 31 0)).satisfied o, []) := by
  rcases hr with hr | hr <;> simp [State.eval, hk, hi, State.evalAppend, hr, hsucc, hfits]

/-- The checks of APPEND and TRIM at their start refuse a page that has a successor (R277). -/
theorem State.succ_of_faults8 (hk : o.kind = .hodAppend ∨ o.kind = .hodTrim) (h : s.faults8 o = []) : (s.obj i).succ = false := by
  subst hi
  rcases hk with hk | hk <;> simp_all [State.faults8, State.hodFaults8, need]

end

/-- A drop changes the page's state, its capacity, and what was to leave a region with it. -/
theorem State.dropPage_frame (s : State) (i : Nat) : (s.dropPage i).1 = { s.setObj i { s.obj i with st := .dropped } with
    ops := s.ops.filter (fun q => !q.leaves i), hod := (s.dropPage i).1.hod } := State.vacate_frame ..

theorem State.dropPage_obj (s : State) (i : Nat) : (s.dropPage i).1.obj i = { s.obj i with st := .dropped } := by
  rw [State.dropPage_frame]
  exact State.setObj_obj ..

namespace State.StartsNow

variable {s : State} {k : Nat} {o : Op} (h : s.StartsNow k o)
include h

/-- A pin that the operation has taken: PIN, and PROMOTE of an object in footing. -/
theorem pinned_started (hk : o.kind.hodOp = true) {i r : Nat} (he : s.eval o = ((s.pinnedBy o i).satisfied { o with pinned := [i] } r, [])) :
    s.Started (s.pinnedBy o i) o (s.operationStart k .outbound []) :=
  h.started hk he rfl rfl ⟨_, State.mem_setOp (s := s.setObj ..) h.mem rfl, rfl⟩ (h.noRecompute.setObj i (h.noRecompute.obj i)) rfl rfl

/-- A change of the object's entry: UNPIN and TRIM. -/
theorem setObj_started (hk : o.kind.hodOp = true) {i : Nat} {ob : Obj} (he : s.eval o = ((s.setObj i ob).satisfied o, []))
    (hr : ob.recompute = (s.obj i).recompute) : s.Started (s.setObj i ob) o (s.operationStart k .outbound []) :=
  h.started hk he rfl rfl ⟨o, h.mem, rfl⟩ (h.noRecompute.setObj i (hr.trans (h.noRecompute.obj i))) rfl rfl

theorem dropPage_started {i : Nat} (hi : hIdx o.hodHandle = i) (hk : o.kind = .hodDrop) (hd : s.mayDrop i = true) :
    s.Started (s.dropPage i).1 o (s.operationStart k .outbound []) := by
  refine h.started (by rw [hk]; rfl) (State.eval_hodDrop hi hk h.noneHeld hd) rfl rfl ⟨o, ?_, rfl⟩ ?_ ?_ ?_ <;> rw [State.dropPage_frame]
  · exact List.mem_filter.2 ⟨h.mem, by simp [Op.leaves, hk]⟩
  · exact h.noRecompute.setObj _ (h.noRecompute.obj _)
  · rfl
  · rfl

theorem appendLine_started {i : Nat} (hi : hIdx o.hodHandle = i) (hk : o.kind = .hodAppend) (hr : (s.obj i).st = .fast ∨ (s.obj i).st = .slow)
    (hsucc : (s.obj i).succ = false) (hfits : (s.obj i).fill + fld o.hodArg 31 0 ≤ (s.obj i).cap) :
    s.Started ((s.setObj i ((s.obj i).setP 1 31 0 ((s.obj i).fill + fld o.hodArg 31 0))).appendLine o (s.obj i).handle.toNat 0
      ((s.obj i).fill + fld o.hodArg 31 0)) o (s.operationStart k .outbound []) :=
  h.started (by rw [hk]; rfl) (State.eval_hodAppend_fits hi hk hr hsucc hfits) rfl rfl ⟨o, h.mem, rfl⟩ (h.noRecompute.setObj i (h.noRecompute.obj i)) rfl rfl

end State.StartsNow

/-! ## The completion (R97, R272, R275) -/

/-- What the end of an outbound operation does before it leaves the operations in flight: its signal is given, and its pin stays or goes. -/
def State.signalled (s : State) (o : Op) : State :=
  let t := s.signalShort o.core o.sig
  if o.keepsPin then t else t.unpin o

/-- Pins aside, a signal that is given and a pin that goes change no object. -/
theorem State.signalled_keepsObjects (s : State) (o : Op) : s.KeepsObjects { s.signalled o with objs := s.objs } := by
  have hsig : s.KeepsObjects { s.signalShort o.core o.sig with objs := s.objs } := by
    have h := s.signalShort_keepsObjects o.core o.sig
    exact ⟨h.ops, rfl, h.objMem, h.bad, h.spad, h.acc, h.nsb, h.hod⟩
  unfold State.signalled
  dsimp only
  split
  · exact hsig
  · rw [State.unpin_frame]
    exact hsig

theorem State.signalled_pins {s : State} {o : Op} {i : Nat} (h : o.pinned = [i]) :
    ((s.signalled o).obj i).pins = if o.keepsPin then (s.obj i).pins else (s.obj i).pins - 1 := by
  have hobj := (s.signalShort_keepsObjects o.core o.sig).obj i
  unfold State.signalled
  dsimp only
  split
  · rw [hobj]
  · simp [State.unpin, h, hobj]

theorem State.NoRecompute.signalled {s : State} (h : s.NoRecompute) (o : Op) : (s.signalled o).NoRecompute := by
  have hsig := (s.signalShort_keepsObjects o.core o.sig).noRecompute h
  unfold State.signalled
  dsimp only
  split
  · exact hsig
  · exact hsig.unpin o

namespace State.EndsOutbound

variable {s : State} {id : Nat} {o : Op} (h : s.EndsOutbound id o) (hk : o.kind.hodOp = true)
include h hk

theorem completable : s.completable o = true := by
  have hst := h.started
  cases hkind : o.kind <;> simp [hkind, LKind.hodOp, State.completable, hst] at hk ⊢

/-- The completion of a HOD operation has no effect but its end. -/
theorem longOpComplete_eq : s.longOpComplete id [] = (s.finishOp o).settle [] := by
  simp only [State.longOpComplete, h.found, h.completable hk, h.unit, State.endReads_of_hodOp hk, State.detect_nil h.unarmed, h.reached]
  cases hkind : o.kind <;> simp [hkind, LKind.hodOp] at hk ⊢

/-- The completion ends the operation: nothing waits on the objects that it reaches. -/
theorem longOpComplete_keepsObjects : ((s.signalled o).dropOp id).KeepsObjects (s.longOpComplete id []) := by
  obtain ⟨x, hx⟩ := h.ctx
  have hsig := s.signalled_keepsObjects o
  have hgone := State.opGone_keepsObjects ((s.signalled o).dropOp id) x
  have hnone : ((s.signalled o).dropOp id).NoneHeld := h.none.mono fun q hq => hsig.ops ▸ (List.mem_filter.1 hq).1
  have hrec : ((s.signalled o).dropOp id).NoRecompute := h.quiet.recompute.signalled o
  have hheld := hgone.trans ((hgone.noneHeld hnone).foldl_settleObj_keepsObjects o.pinned.eraseDups)
  have hend := hheld.trans (hheld.noRecompute hrec).settleRecomputes_keepsObjects
  have he : s.finishOp o = (o.pinned.eraseDups.foldl State.settleObj (((s.signalled o).dropOp id).opGone x)).settleRecomputes := by
    simp [State.finishOp, hx, State.refs_of_hodOp hk, State.peerTraffic, State.signalled, h.number]
  rw [h.longOpComplete_eq hk, he]
  exact hend.trans (State.settle_nil_keepsObjects _)

end State.EndsOutbound

end Sys2Proof.Machine
end

section
/-! PROOF. The ends of a move, of a recovery and of a request held on capacity (R267, R272, R273, R283, R285), and the obligation on objects. -/

namespace Sys2Proof.Machine

/-- With no operation in flight, an object that leaves its home only returns its capacity. -/
theorem State.vacate_of_no_ops {s : State} (h : s.ops = []) (i : Nat) : ∃ c : Hod, s.vacate i = ({ s with hod := c }, []) := by
  have hops : s.ops.filter (fun q => !q.leaves i) = s.ops := by rw [h]; rfl
  refine ⟨(s.vacate i).1.hod, Prod.ext ?_ ((State.noneHeld_of_no_ops h).vacate i)⟩
  rw [State.vacate_frame, hops]

/-! ## Moves (R267, R272) -/

/-- A move that ends (R267): the object is resident in the new home with its bytes, and with no operation in flight nothing is released. -/
theorem State.switchHome_spec {s : State} (h : s.ops = []) (i : Nat) (m : Move) :
    let r := s.switchHome i m
    r.2 = [] ∧ r.1.ops = [] ∧ r.1.objMem = s.objMem
      ∧ (r.1.obj i).home = m.toHome ∧ (r.1.obj i).move = none ∧ (r.1.obj i).st = if m.toHome = 0 then .fast else .slow := by
  obtain ⟨c, hc⟩ := State.vacate_of_no_ops h i
  have hsent (u : State) (hh : Nat) : u.Sent (u.givePeer i m.toNode hh) := (State.Sent.refl u).sendMsg _
  simp only [State.switchHome, hc, State.setObj_obj, and_true, true_and, State.setObj_ops, State.setObj_objMem]
  split
  · rw [(hsent _ _).ops, (hsent _ _).objMem]
    exact ⟨h, rfl⟩
  · exact ⟨h, rfl⟩

/-- HOD_MOVE_COMPLETE of a move of the hod's own, of a sound object, with no operation in flight. -/
theorem State.hodMoveComplete_keepsObjects {s : State} {i : Nat} {m : Move} (hu : s.Unarmed) (hm : (s.obj i).move = some m) (hg : m.region = none)
    (ho : m.op = none) (hp : (s.obj i).st ≠ .poisoned) (hb : s.bad = []) (h : s.ops = []) :
    (s.switchHome i m).1.KeepsObjects (s.hodMoveComplete i []) := by
  have hsound : s.badIn (s.moveReads i m) = none := by simp [State.badIn, hb]
  obtain ⟨hw, hops, -⟩ := State.switchHome_spec h i m
  have he : s.hodMoveComplete i [] = (s.switchHome i m).1.settle [] := by
    have hheld := (State.noneHeld_of_no_ops hops).heldOn i
    simp [State.hodMoveComplete, hm, hp, s.detect_nothing _ _ _ hu hsound, hg, State.moved, ho, hw, hheld]
  rw [he]
  exact State.settle_nil_keepsObjects _

/-! ## Recovery (R283) -/

theorem State.newPlace_obj (s : State) (i : Nat) : (s.newPlace i).obj i = { s.obj i with place := s.free, moved := [] } := State.setObj_obj ..

/-- Object `i` of `t` is resident and sound with the bytes that it has in `s`, and no recovery of it goes on. -/
structure State.Restored (s t : State) (i : Nat) : Prop where
  objMem : t.objMem = s.objMem
  resident : (t.obj i).st = .fast ∨ (t.obj i).st = .slow
  recover : (t.obj i).recover = none
  sound : ∀ b < 2 ^ 28, t.badBlock i b = 0

namespace State.Restored

variable {s t u : State} {i : Nat}

theorem keepsObjects (h : s.Restored t i) (k : t.KeepsObjects u) : s.Restored u i where
  objMem := k.objMem.trans h.objMem
  resident := k.obj i ▸ h.resident
  recover := k.obj i ▸ h.recover
  sound b hb := (k.badBlock i b).trans (h.sound b hb)

theorem newPlace (h : s.Restored t i) : s.Restored (t.newPlace i) i where
  objMem := h.objMem
  resident := by rw [State.newPlace_obj]; exact h.resident
  recover := by rw [State.newPlace_obj]; exact h.recover
  sound := h.sound

/-- The marks of an object cleared, and its entry resident. -/
theorem setObj {l : Tab Nat} {o : Obj} (hm : t.objMem = s.objMem) (hb : t.bad = Tab.clearRange l (badKey i 0) (2 ^ 28)) (hst : o.st = .fast ∨ o.st = .slow)
    (hr : o.recover = none) : s.Restored (t.setObj i o) i where
  objMem := hm
  resident := by rwa [State.setObj_obj]
  recover := by rwa [State.setObj_obj]
  sound b hlt := by
    have hkey : badKey i 0 ≤ badKey i b ∧ badKey i b < badKey i 0 + 2 ^ 28 := by simp only [badKey]; omega
    rw [State.badBlock, State.setObj_bad, hb, Tab.get_clearRange, if_pos hkey]

end State.Restored

/-- A recovery ends (R283), and with no operation in flight it releases nothing. -/
theorem State.recovered_restored {s : State} (h : s.ops = []) (i src : Nat) : (s.recovered i src).2 = [] ∧ s.Restored (s.recovered i src).1 i := by
  have hev (u : State) (n : Nat) (l : List Byte) (inj : Bool) : u.KeepsObjects (u.ev (srcOf 0x05 0) evHodRecovered 0 n l inj) :=
    .of_logged (State.ev_logged _ _ _ _ _ _ _ (by decide))
  have hst (n : Nat) : (if n = 0 then ObjSt.fast else .slow) = .fast ∨ (if n = 0 then ObjSt.fast else .slow) = .slow := by
    split
    · exact .inl rfl
    · exact .inr rfl
  have hheld : s.heldOn i = [] := (State.noneHeld_of_no_ops h).heldOn i
  obtain ⟨c, hc⟩ := State.vacate_of_no_ops h i
  cases hm : (s.obj i).move.isSome <;>
    simp only [State.recovered, hm, hc, hheld, if_true, if_false, Bool.false_eq_true, List.append_nil, true_and]
  · refine State.Restored.keepsObjects ?_ (hev ..)
    exact .setObj rfl rfl (hst _) rfl
  · refine State.Restored.keepsObjects (State.Restored.newPlace ?_) (hev ..)
    exact .setObj rfl rfl (hst _) rfl

theorem State.readFlash_nothing {s : State} (h : s.Unarmed) (seq : Nat) (seqs : List Nat) : s.readFlash seq seqs [] = (false, [], s) := by
  simp [State.readFlash, State.injCheck, s.injArmed_unarmed _ _ _ h]

/-- RECOVERY_COMPLETE of a source other than a recompute, with nothing that the detectors find. -/
theorem State.recoveryComplete_restored {s : State} {i src : Nat} (hu : s.Unarmed) (hr : (s.obj i).recover = some src)
    (hp : (s.obj i).st = .poisoned) (hsrc : src ≠ 1) (h : s.ops = []) : s.Restored (s.recoveryComplete i []) i := by
  obtain ⟨hw, hrest⟩ := State.recovered_restored h i src
  have he : s.recoveryComplete i [] = (s.recovered i src).1.settle [] := by
    cases hm : s.imageOf i with
    | none => simp [State.recoveryComplete, hr, hp, hsrc, hm, State.detect_nil hu, hw]
    | some m =>
      rcases eq_or_ne src 3 with rfl | h3
      · simp [State.recoveryComplete, hr, hp, hm, State.detect_nil hu, State.readFlash_nothing hu, hw]
      · simp [State.recoveryComplete, hr, hp, hsrc, hm, h3, State.detect_nil hu, hw]
  rw [he]
  exact hrest.keepsObjects (State.settle_nil_keepsObjects _)

/-! ## A request past its bound (R107, R228, R273) -/

/-- The faults of a context's operation leave of it no more than its pins. -/
theorem State.asyncFault_keepsObjects {s : State} {o : Op} {x code : Nat} (hx : o.src = .ctx x) (hc : isTraceCode code = false) (inj : Bool)
    (key w44 : Option Nat) : ((s.unpin o).dropOp o.id).KeepsObjects (s.asyncFault o code inj key w44) := by
  have hclear (u : State) : u.KeepsObjects (u.clearUnits o.id) := ⟨rfl, rfl, rfl, rfl, rfl, rfl, rfl, rfl⟩
  simp only [State.asyncFault, hx]
  refine (hclear _).trans (State.KeepsObjects.trans ?_ (State.opGone_keepsObjects _ x))
  refine State.KeepsObjects.trans ?_ (.of_logged (State.ev_logged _ _ _ _ _ _ _ hc))
  split
  · exact State.showFault_keepsObjects ..
  · exact State.setCtx_keepsObjects ..

/-- HOD_FAULT with the bit of PAGE_EXHAUSTED. -/
def Hod.exhausted (h : Hod) : Hod := { h with fault := setBit h.fault 2 true }

theorem Hod.exhausted_fault (h : Hod) : h.exhausted.fault.getLsbD 2 = true := by
  simp [Hod.exhausted, setBit]

theorem State.exhausted_keepsObjects {s : State} {o : Op} {x : Nat} (hx : o.src = .ctx x) (inj : Bool) :
    ((({ s with hod := s.hod.exhausted } : State).unpin o).dropOp o.id).KeepsObjects (s.exhausted o inj) := by
  simp only [State.exhausted, hx]
  split <;> exact State.asyncFault_keepsObjects hx (by decide) ..

/-- PAGE_EXHAUSTED of a context's request that has waited past HOD_APPEND_LIMIT. -/
theorem State.pageExhausted_keepsObjects {s : State} {id since prio n x : Nat} {o : Op} (hu : s.Unarmed) (hr : s.NoRecompute) (ho : s.findOp id = some o)
    (hst : o.st = .heldCap since prio n) (hx : o.src = .ctx x) (hlimit : fld s.hod.limit.toNat 47 0 < s.pln.cclk.toNat - since) :
    ((({ s with hod := s.hod.exhausted } : State).unpin o).dropOp o.id).KeepsObjects (s.pageExhausted id) := by
  have hex := s.exhausted_keepsObjects hx false
  have hrec : (({ s with hod := s.hod.exhausted } : State).unpin o).NoRecompute := State.NoRecompute.unpin (s := { s with hod := s.hod.exhausted }) hr o
  have he : s.pageExhausted id = (s.exhausted o false).settleRecomputes := by
    simp [State.pageExhausted, ho, hst, hx, s.injArmed_unarmed _ _ _ hu, hlimit]
  rw [he]
  exact hex.trans (hex.noRecompute hrec).settleRecomputes_keepsObjects

end Sys2Proof.Machine

/-! ## The obligation -/

open Sys2Proof Sys2Proof.Machine

/-- Settles O35: a HOD operation that its object's state satisfies changes one entry of the object table and awaits its completion; what follows each command, the
settlement of requests and the selection of contexts, keeps operations, objects and memories (`State.KeepsObjects`). -/
theorem objectMoves : Obligations.ObjectMoves := by
  unfold Obligations.ObjectMoves
  intro s hu
  refine ⟨?_, ?_, ?_, ?_, ?_⟩
  · -- HOD operations at their start
    intro k o x hhead hx hfree hcalm hchecks hquiet hnone hpin i ob n resident starts
    have h : s.StartsNow k o := ⟨hhead, ⟨x, hx⟩, hfree, hcalm, hchecks, hu, hquiet.recompute, hnone, hpin⟩
    have hstarts {u : State} {done : State → Prop} (hs : s.Started u o (s.operationStart k .outbound [])) (hd : ∀ t, s.Started u o t → done t) : starts done :=
      ⟨_, rfl, hs.op, hs.objMem, hs.nsb, hd _ hs⟩
    refine ⟨fun hk hr => ?_, fun hk => ?_, fun hk hr hh => ?_, fun hk hr hh ht => ?_, fun hk hd => ?_, fun hk hr hfill => ?_, fun hk hr hfits => ?_⟩
    · refine hstarts (h.pinned_started (by rw [hk]; rfl) (State.eval_hodPin rfl hk hpin hr)) fun t hs => ?_
      rw [hs.obj, State.pinnedBy_obj]
    · refine hstarts (h.setObj_started (by rw [hk]; rfl) (State.eval_hodUnpin rfl hk ⟨x, hx⟩ hnone) rfl) fun t hs => ?_
      rw [hs.obj, State.setObj_obj]
    · refine hstarts (h.pinned_started (by rw [hk]; rfl) (State.eval_hodPromote_in_footing rfl hk hpin hr hh)) fun t hs => ?_
      rw [hs.obj, State.pinnedBy_obj]
    · exact hstarts (h.started (by rw [hk]; rfl) (State.eval_hodDemote_in_undercroft rfl hk hr hh ht) rfl rfl ⟨o, h.mem, rfl⟩ hquiet.recompute rfl rfl)
        fun t hs => hs.obj i
    · refine hstarts (h.dropPage_started rfl hk hd) fun t hs => ?_
      rw [hs.obj, State.dropPage_obj]
      exact ⟨rfl, rfl⟩
    · have hsucc := State.succ_of_faults8 rfl (.inr hk) hchecks
      refine hstarts (h.setObj_started (by rw [hk]; rfl) (State.eval_hodTrim rfl hk hr hsucc hfill) rfl) fun t hs => ?_
      rw [hs.obj, State.setObj_obj]
    · have hsucc := State.succ_of_faults8 rfl (.inl hk) hchecks
      refine hstarts (h.appendLine_started rfl hk hr hsucc hfits) fun t hs => ⟨?_, hs.spad⟩
      rw [hs.obj]
      exact State.setObj_obj ..
  · -- HOD operations at their completion
    intro id i o h hk _
    have hend := h.longOpComplete_keepsObjects hk
    have hsig := s.signalled_keepsObjects o
    refine ⟨_, rfl, ?_, hend.objMem.trans hsig.objMem, hend.spad.trans hsig.spad, hend.acc.trans hsig.acc, hend.nsb.trans hsig.nsb, fun hpin => ?_⟩
    · rw [hend.findOp, State.findOp_dropOp]
    · rw [hend.obj]
      exact State.signalled_pins hpin
  · -- moves
    intro i m _ hm hg ho hp hb hops
    obtain ⟨-, -, hmem, hhome, hmove, hst⟩ := State.switchHome_spec hops i.val m
    have hend := State.hodMoveComplete_keepsObjects hu hm hg ho hp hb hops
    refine ⟨_, rfl, ?_, ?_, ?_, hend.objMem.trans hmem⟩
    · rw [hend.obj, hhome]
    · rw [hend.obj, hmove]
    · rw [hend.obj, hst]
  · -- recoveries
    intro i src _ hr hp hsrc hops
    have hend := State.recoveryComplete_restored hu hr hp hsrc hops
    exact ⟨_, rfl, hend.resident, hend.recover, hend.sound, hend.objMem⟩
  · -- requests held on capacity
    intro id since prio n o x hrec ho hid hst hx hlimit
    have hend := State.pageExhausted_keepsObjects hu hrec ho hst hx hlimit
    refine ⟨_, rfl, ?_, ?_⟩
    · rw [hend.findOp, hid, State.findOp_dropOp]
    · rw [hend.hod, State.dropOp_hod, State.unpin_frame]
      exact s.hod.exhausted_fault

end

section
/-! PROOF. What footing keeps while requests are evaluated (R249, R256 to R258, R270): the regions that retire, the repair records, and the spare rows used. -/

namespace Sys2Proof.Machine

/-- `t` retires the regions that `s` retires and has used the same spare rows; it has the repair records of `s`, and later ones perhaps. -/
structure State.KeepsRepairs (s t : State) : Prop where
  retiring : t.ftg.retiring = s.ftg.retiring
  repairs : s.ftg.repairs ⊆ t.ftg.repairs
  spares (i : Nat) : (t.stack i).spares = (s.stack i).spares

theorem State.Logged.ftg {s t : State} (h : s.Logged t) : t.ftg = s.ftg := by rw [h]

namespace State.KeepsRepairs

theorem refl (s : State) : s.KeepsRepairs s := ⟨rfl, List.Subset.refl _, fun _ => rfl⟩

variable {s t u : State} (h : s.KeepsRepairs u)
include h

theorem trans (k : u.KeepsRepairs t) : s.KeepsRepairs t :=
  ⟨k.retiring.trans h.retiring, List.Subset.trans h.repairs k.repairs, fun i => (k.spares i).trans (h.spares i)⟩

/-- A change outside footing. -/
theorem outside (hf : t.ftg = u.ftg) (hs : t.ftgStacks = u.ftgStacks) : s.KeepsRepairs t :=
  h.trans ⟨by rw [hf], by rw [hf]; exact List.Subset.refl _, fun i => by rw [State.stack, hs, State.stack]⟩

theorem logged (k : u.Logged t) : s.KeepsRepairs t := h.outside k.ftg k.ftgStacks

theorem reselected (k : u.Reselected t) : s.KeepsRepairs t := h.outside (by rw [k.1]) (by rw [k.1])

theorem reports (k : u.Reports t) : s.KeepsRepairs t := h.outside (by rw [k]) (by rw [k])

theorem sent (k : u.Sent t) : s.KeepsRepairs t := h.outside (by rw [k.frame]) (by rw [k.frame])

/-- A fold of operations each of which keeps them. -/
theorem foldl {α : Type} (f : State → α → State) (l : List α) (e : ∀ (v : State) (a : α), s.KeepsRepairs v → s.KeepsRepairs (f v a)) :
    s.KeepsRepairs (l.foldl f u) := by
  induction l generalizing u with
  | nil => exact h
  | cons a l ih => exact ih (e u a h)

/-! ## State outside footing -/

theorem setCtx (x : Nat) (c : Ctx) : s.KeepsRepairs (u.setCtx x c) := h.outside rfl rfl
theorem setSlot (x : Nat) (c : Slot) : s.KeepsRepairs (u.setSlot x c) := h.outside rfl rfl
theorem setObj (x : Nat) (c : Obj) : s.KeepsRepairs (u.setObj x c) := h.outside rfl rfl
theorem setOp (o : Op) : s.KeepsRepairs (u.setOp o) := h.outside rfl rfl
theorem dropOp (i : Nat) : s.KeepsRepairs (u.dropOp i) := h.outside rfl rfl
theorem hod (c : Hod) : s.KeepsRepairs { u with hod := c } := h.outside rfl rfl
theorem objWrite (i off : Nat) (b : List Byte) : s.KeepsRepairs (u.objWrite i off b) := h.outside rfl rfl
theorem objZero (i : Nat) : s.KeepsRepairs (u.objZero i) := h.outside rfl rfl
theorem fresh : s.KeepsRepairs u.fresh.2 := h.outside rfl rfl
theorem newPlace (i : Nat) : s.KeepsRepairs (u.newPlace i) := h.outside rfl rfl
theorem install (i : Nat) (o : Obj) : s.KeepsRepairs (u.install i o) := h.outside rfl rfl
theorem injReport : s.KeepsRepairs u.injReport := h.outside rfl rfl
theorem request (kind : LKind) (src : OpSrc) (i : Nat) (words : List Nat) : s.KeepsRepairs (u.request kind src i words).1 := h.outside rfl rfl
theorem markLine (i blk line : Nat) : s.KeepsRepairs (u.markLine i blk line) := h.outside rfl rfl

theorem sendMsg (m : Msg) : s.KeepsRepairs (u.sendMsg m) := h.sent ((State.Sent.refl u).sendMsg m)

/-! ## Events -/

theorem traceDrain (n : Nat) : s.KeepsRepairs (State.traceDrain n u) := by
  induction n generalizing u with
  | zero => exact h
  | succ n ih =>
    unfold State.traceDrain
    split
    · exact h
    · split
      · exact ih (h.outside rfl rfl)
      · exact h

theorem post (e : Ev) : s.KeepsRepairs (u.post e) := by
  cases hc : isTraceCode e.code with
  | false => exact h.logged (u.post_logged e hc)
  | true =>
    rw [State.post, if_pos hc]
    unfold State.trace
    dsimp only
    split
    · refine State.KeepsRepairs.traceDrain ?_ 64
      exact h.outside rfl rfl
    · exact h.outside rfl rfl

theorem ev (src code key w44 : Nat) (rest : List Byte) (inj : Bool) : s.KeepsRepairs (u.ev src code key w44 rest inj) := h.post _

/-! ## Contexts and completions -/

theorem select (k : Nat) : s.KeepsRepairs (u.select k) := h.reselected (u.select_reselected k)

theorem leave (x : Nat) (c : Ctx) : s.KeepsRepairs (u.leave x c) := (h.setCtx x c).select _

theorem wake (x adv : Nat) : s.KeepsRepairs (u.wake x adv) := by
  unfold State.wake
  dsimp only
  split
  · exact h.leave ..
  · exact h.setCtx ..

theorem answer (r c status result : Nat) : s.KeepsRepairs (u.answer r c status result) := h.reports (u.answer_reports ..).1

theorem endStart (x status result : Nat) : s.KeepsRepairs (u.endStart x status result) := h.reports (u.endStart_reports ..).1

theorem showFault (x code off : Nat) : s.KeepsRepairs (u.showFault x code off) := h.reports (u.showFault_reports ..)

theorem endHeld (x : Nat) : s.KeepsRepairs (u.endHeld x) := by
  unfold State.endHeld
  split
  · exact (((h.setCtx ..).showFault ..).endStart ..).select _
  · exact ((h.setCtx ..).endStart ..).select _

theorem ctxGone (x : Nat) : s.KeepsRepairs (u.ctxGone x) := by
  unfold State.ctxGone
  dsimp only
  repeat' split
  all_goals first | exact h | exact h.endHeld _ | exact h.setCtx .. | exact h.wake ..

theorem preemptDone : s.KeepsRepairs u.preemptDone := by
  unfold State.preemptDone
  split
  · split
    · refine State.KeepsRepairs.answer ?_ ..
      exact h.outside rfl rfl
    · exact h
  · exact h

theorem opGone (x : Nat) : s.KeepsRepairs (u.opGone x) := (h.ctxGone x).preemptDone

theorem waitHeld (x : Nat) : s.KeepsRepairs (u.waitHeld x) := by
  unfold State.waitHeld
  split
  · exact h.leave ..
  · exact h

theorem parkCtx (x : Nat) : s.KeepsRepairs (u.parkCtx x) := by
  unfold State.parkCtx
  split
  · exact h.waitHeld ..
  · split
    · exact h.wake ..
    · exact h

theorem wakeFetch : s.KeepsRepairs u.wakeFetch := by
  refine h.foldl _ _ (fun _ _ k => ?_)
  split
  · exact k.wake ..
  · exact k

/-! ## Capacity (R266, R273, R285) -/

theorem takeUnits (home n : Nat) : s.KeepsRepairs (u.takeUnits home n) := by
  unfold State.takeUnits
  repeat' split
  all_goals exact h.outside rfl rfl

theorem giveUnits (home n pages : Nat) : s.KeepsRepairs (u.giveUnits home n pages).1 := by
  unfold State.giveUnits
  split
  · exact h
  · dsimp only
    split <;> exact h.outside rfl rfl

theorem giveDest (o : Obj) : s.KeepsRepairs (u.giveDest o).1 := by
  unfold State.giveDest
  repeat' split
  all_goals first | exact h | exact h.giveUnits ..

theorem vacate (i : Nat) : s.KeepsRepairs (u.vacate i).1 := by
  refine State.KeepsRepairs.giveUnits ?_ ..
  exact h.outside rfl rfl

theorem dropPage (i : Nat) : s.KeepsRepairs (u.dropPage i).1 := (h.setObj ..).vacate _

theorem pick (c : List (Nat × Nat)) : s.KeepsRepairs (u.pick c).2 := by
  unfold State.pick
  split
  · exact h
  · exact h.fresh

theorem reclaim (home n lim k : Nat) : s.KeepsRepairs (u.reclaim home n lim k).1 := by
  induction k generalizing u with
  | zero => exact h
  | succ k ih =>
    have hp := h.pick (u.dropCands home lim)
    unfold State.reclaim
    split
    · exact h
    · split
      · rename_i e
        rwa [e] at hp
      · rename_i e
        rw [e] at hp
        exact ih (hp.dropPage _)

theorem evictFor (n k : Nat) : s.KeepsRepairs (u.evictFor n k) := by
  induction k generalizing u with
  | zero => exact h
  | succ k ih =>
    have hp := h.pick u.evictCands
    unfold State.evictFor
    split
    · exact h
    · split
      · rename_i e
        rwa [e] at hp
      · rename_i e
        rw [e] at hp
        exact ih ((hp.takeUnits ..).setObj ..)

theorem obtain (home n lim : Nat) (append : Bool) : s.KeepsRepairs (u.obtain home n lim append).2.1 := by
  have k := h.reclaim home n lim u.objs.length
  unfold State.obtain
  dsimp only
  repeat' split
  all_goals first | exact h | exact h.takeUnits .. | exact k.takeUnits .. | exact k | exact k.evictFor ..

/-! ## Requests that are held or end (R107, R270) -/

theorem holdObj (o : Op) (i : Nat) : s.KeepsRepairs (u.holdObj o i) := by
  unfold State.holdObj
  repeat' split
  all_goals exact h.outside rfl rfl

theorem holdCap (o : Op) (p : Nat) : s.KeepsRepairs (u.holdCap o p) := by
  unfold State.holdCap
  split <;> exact h.outside rfl rfl

theorem unpin (o : Op) : s.KeepsRepairs (u.unpin o) := h.foldl _ _ (fun _ _ k => k.setObj ..)

theorem endRing (o : Op) (status result : Nat) : s.KeepsRepairs (u.endRing o status result) := by
  unfold State.endRing
  split
  · refine State.KeepsRepairs.answer ?_ ..
    split <;> exact (h.unpin o).outside rfl rfl
  · exact h

theorem satisfied (o : Op) (result : Nat) : s.KeepsRepairs (u.satisfied o result) := by
  unfold State.satisfied
  split
  · exact h.setOp _
  · exact h.endRing ..

theorem refusal (i : Nat) : s.KeepsRepairs (u.refusal i) := State.KeepsRepairs.ev (h.hod _) ..

theorem refuse (o : Op) (i : Nat) : s.KeepsRepairs (u.refuse o i) := by
  unfold State.refuse
  dsimp only
  split
  · exact (h.refusal _).setOp _
  · exact (h.refusal _).endRing ..

theorem asyncFault (o : Op) (code : Nat) (inj : Bool) (key w44 : Option Nat) : s.KeepsRepairs (u.asyncFault o code inj key w44) := by
  have k : s.KeepsRepairs (((u.unpin o).dropOp o.id).clearUnits o.id) := (h.unpin o).outside rfl rfl
  unfold State.asyncFault
  dsimp only
  split
  · exact k.endRing ..
  · exact k
  · exact k
  · refine State.KeepsRepairs.opGone (State.KeepsRepairs.ev ?_ ..) _
    split
    · exact k.showFault ..
    · exact k.setCtx ..

theorem uncode (o : Op) : s.KeepsRepairs (u.uncode o) := by
  unfold State.uncode
  split
  · exact h.setObj ..
  · exact h

theorem exhausted (o : Op) (inj : Bool) : s.KeepsRepairs (u.exhausted o inj) := by
  unfold State.exhausted
  dsimp only
  split
  · split <;> exact (h.hod _).asyncFault ..
  · exact ((h.uncode o).refusal _).endRing ..
  · exact h
  · exact h

theorem awaitCap (o : Op) (p : Nat) : s.KeepsRepairs (u.awaitCap o p) := by
  unfold State.awaitCap
  repeat' split
  all_goals first | exact h.holdCap .. | exact h.exhausted .. | exact h.injReport.exhausted ..

/-! ## Recompute and recovery (R225, R281 to R284) -/

theorem startRecipe (i x : Nat) : s.KeepsRepairs (u.startRecipe i x) := by
  unfold State.startRecipe
  dsimp only
  split
  · exact h
  · exact (h.setObj ..).leave ..

theorem startRecipes : s.KeepsRepairs u.startRecipes := by
  refine h.foldl _ _ (fun _ _ k => ?_)
  split
  · exact (k.startRecipe ..).hod _
  · exact k

theorem beginRecompute (src : OpSrc) (i home : Nat) : s.KeepsRepairs (u.beginRecompute src i home).2.1 := by
  have k := h.obtain home (u.obj i).size (u.obj i).prio true
  unfold State.beginRecompute
  dsimp only
  split
  · exact State.KeepsRepairs.startRecipes ((((k.objZero i).setObj ..).newPlace i).hod _)
  · exact k

theorem askRecompute (o : Op) (i home : Nat) : s.KeepsRepairs (u.askRecompute o i home).1 := by
  have k := h.beginRecompute o.src i home
  unfold State.askRecompute
  split
  · exact h.holdObj ..
  · dsimp only
    split
    · exact k.holdObj ..
    · exact k.awaitCap ..

theorem noCopy (i : Nat) (inj : Bool) : s.KeepsRepairs (u.noCopy i inj) := State.KeepsRepairs.ev ((h.setObj ..).hod _) ..

theorem recoverIn (i src home : Nat) : s.KeepsRepairs (u.recoverIn i src home) := by
  have k := (h.takeUnits home (u.obj i).size).setObj i { u.obj i with recover := some src, move := some { toHome := home } }
  unfold State.recoverIn
  dsimp only
  split
  · exact State.KeepsRepairs.startRecipes ((k.objZero i).hod _)
  · split
    · exact k.sendMsg _
    · exact k

theorem usable (i skip : Nat) : s.KeepsRepairs (u.usable i skip).2 := by
  unfold State.usable
  split
  · exact h.fresh
  · exact h

theorem reclaimIf (b : Prop) [Decidable b] (n : Nat) : s.KeepsRepairs (if b then u.reclaim 0 n 4 u.objs.length else (u, [])).1 := by
  split
  · exact h.reclaim ..
  · exact h

theorem recoverFrom (i skip : Nat) (wait : Bool) : s.KeepsRepairs (u.recoverFrom i skip wait).1 := by
  unfold State.recoverFrom
  dsimp only
  by_cases hw : u.warned = true
  · rw [if_pos hw]
    exact h.request ..
  rw [if_neg hw]
  split
  · exact h.injReport.noCopy ..
  have k := h.usable i skip
  generalize u.usable i skip = r at k ⊢
  obtain ⟨none | src, v⟩ := r
  · exact k.noCopy ..
  dsimp only at k ⊢
  have k1 := k.reclaimIf ((u.obj i).home = 0) (u.obj i).size
  generalize (if (u.obj i).home = 0 then v.reclaim 0 (u.obj i).size 4 v.objs.length else (v, [])) = a at k1 ⊢
  have k2 := k1.reclaimIf ((u.obj i).home = 1) (u.obj i).size
  generalize (if (u.obj i).home = 1 then a.1.reclaim 0 (u.obj i).size 4 a.1.objs.length else (a.1, [])) = b at k2 ⊢
  have k3 := k2.evictFor (u.obj i).size b.1.objs.length
  have k4 := k3.request .recover .hod i [i, src - 1]
  repeat' split
  · exact k.recoverIn ..
  · exact k1.recoverIn ..
  · exact k1.recoverIn ..
  · exact k2.recoverIn ..
  · exact k4.holdCap ..
  · exact k4
  · exact k3.noCopy ..

theorem poison (i addr : Nat) (inj : Bool) : s.KeepsRepairs (u.poison i addr inj).1 := by
  unfold State.poison
  dsimp only
  split
  · exact h
  have k : s.KeepsRepairs (match ((u.obj i).move.bind Move.op).bind u.findOp with | some q => u.holdObj q i | none => u) := by
    split
    · exact h.holdObj ..
    · exact h
  generalize u.recomputing i = run
  cases run <;> simp only [if_true, if_false, Bool.false_eq_true]
  · refine State.KeepsRepairs.recoverFrom (State.KeepsRepairs.ev (State.KeepsRepairs.hod (State.KeepsRepairs.setObj ?_ ..) _) ..) ..
    exact k.giveDest _
  · refine State.KeepsRepairs.ev (State.KeepsRepairs.hod (State.KeepsRepairs.setObj ?_ ..) _) ..
    exact k

theorem csumMismatch (src i b : Nat) (inj : Bool) : s.KeepsRepairs (u.csumMismatch src i b inj) := by
  unfold State.csumMismatch
  split
  · exact h
  · exact h.ev ..

theorem verify (src : Nat) (rs : List ObjRef) : s.KeepsRepairs (u.verify src rs).2.1 := by
  unfold State.verify
  split
  · exact ((h.csumMismatch ..).csumMismatch ..).poison ..
  · split
    · dsimp only
      split
      · exact ((h.injReport.csumMismatch ..).injReport.csumMismatch ..).poison ..
      · exact h.injReport.csumMismatch ..
    · exact h

end State.KeepsRepairs

end Sys2Proof.Machine
end

section
/-! PROOF. Requests and detections in footing: their evaluation keeps the regions that retire, the repair records and the spare rows used. -/

namespace Sys2Proof.Machine

namespace State.KeepsRepairs

variable {s u : State} (h : s.KeepsRepairs u)
include h

/-! ## State against request (R270) -/

theorem pinFor (o : Op) (i : Nat) : s.KeepsRepairs (u.pinFor o i).1 := by
  unfold State.pinFor
  split
  · exact h
  · exact (h.setObj ..).setOp _

theorem beginMove (o : Op) (i home node : Nat) : s.KeepsRepairs (u.beginMove o i home node).1 := by
  have k := h.obtain home (u.obj i).size 4 false
  unfold State.beginMove
  dsimp only
  split
  · exact h.holdObj ..
  · split
    · refine State.KeepsRepairs.setObj (State.KeepsRepairs.setOp ?_ _) ..
      split
      · exact k.sendMsg _
      · exact k
    · exact k.awaitCap ..

theorem evalPromote (o : Op) (i : Nat) : s.KeepsRepairs (u.evalPromote o i).1 := by
  have k := h.pinFor o i
  unfold State.evalPromote
  dsimp only
  repeat' split
  all_goals first | exact k.satisfied .. | exact k.holdObj .. | exact k.beginMove .. | exact k.askRecompute ..

theorem evalDemote (o : Op) (i : Nat) : s.KeepsRepairs (u.evalDemote o i).1 := by
  unfold State.evalDemote
  dsimp only
  repeat' split
  all_goals first | exact h.refuse .. | exact h.satisfied .. | exact h.holdObj .. | exact h.beginMove .. | exact (h.setObj ..).satisfied ..

theorem evalDrop (o : Op) (i : Nat) : s.KeepsRepairs (u.evalDrop o i).1 := by
  unfold State.evalDrop
  dsimp only
  repeat' split
  all_goals first | exact (h.dropPage i).satisfied .. | exact h.satisfied .. | exact h.holdObj .. | exact h.refuse ..

theorem appendLine (o : Op) (a b c : Nat) : s.KeepsRepairs (u.appendLine o a b c) := h.outside rfl rfl

theorem evalAppend (o : Op) (i : Nat) : s.KeepsRepairs (u.evalAppend o i).1 := by
  have k := h.obtain (u.obj i).home (u.obj i).size (u.obj i).prio true
  have fits (p : Obj) (a b c : Nat) : s.KeepsRepairs (((u.setObj i p).appendLine o a b c).satisfied o) :=
    ((h.setObj ..).appendLine ..).satisfied ..
  unfold State.evalAppend
  dsimp only
  split
  case h_4 => exact h.holdObj ..
  all_goals
    split
    · exact h.asyncFault ..
    · split
      · exact fits ..
      · split
        · exact h.awaitCap ..
        · by_cases e : (u.obtain (u.obj i).home (u.obj i).size (u.obj i).prio true).1 = true
          · rw [if_pos e]
            exact State.KeepsRepairs.satisfied (State.KeepsRepairs.appendLine (State.KeepsRepairs.setObj (State.KeepsRepairs.install k.fresh ..) ..) ..) ..
          · rw [if_neg e]
            exact k.awaitCap ..

theorem evalTrim (o : Op) (i : Nat) : s.KeepsRepairs (u.evalTrim o i).1 := by
  unfold State.evalTrim
  dsimp only
  repeat' split
  all_goals first | exact h.asyncFault .. | exact (h.setObj ..).satisfied .. | exact h.holdObj ..

theorem evalPin (o : Op) (i : Nat) : s.KeepsRepairs (u.evalPin o i).1 := by
  have k := h.pinFor o i
  unfold State.evalPin
  dsimp only
  split
  all_goals first | exact k.satisfied .. | exact k.askRecompute .. | exact k.holdObj ..

theorem evalUnpin (o : Op) (i : Nat) : s.KeepsRepairs (u.evalUnpin o i).1 := (h.setObj ..).satisfied ..

theorem freeObj (i : Nat) : s.KeepsRepairs (u.freeObj i).1 := by
  have k : s.KeepsRepairs (if (u.obj i).st = .dropped then (u, []) else u.vacate i).1 := by
    split
    · exact h
    · exact h.vacate _
  unfold State.freeObj
  dsimp only
  generalize (if (u.obj i).st = .dropped then (u, []) else u.vacate i) = r at k ⊢
  refine State.KeepsRepairs.outside (State.KeepsRepairs.foldl ?_ _ (u.heldAt i) (fun _ _ k => ?_)) rfl rfl
  · exact (k.giveDest (u.obj i)).outside rfl rfl
  · split
    · split
      · exact k
      · exact k.asyncFault ..
    · exact k

theorem evalDestroy (o : Op) (i : Nat) : s.KeepsRepairs (u.evalDestroy o i).1 := by
  unfold State.evalDestroy
  repeat' split
  all_goals first | exact h.refuse .. | exact h.holdObj .. | exact (h.endRing o stOk 0).freeObj i

theorem evalCreate (o : Op) : s.KeepsRepairs (u.evalCreate o).1 := by
  have k := h.obtain (fld (o.words.getD 2 0) 1 0) (o.words.getD 3 0) 4 false
  unfold State.evalCreate
  split
  · exact h.refuse ..
  · dsimp only
    split
    · exact (k.install ..).endRing ..
    · exact k.awaitCap ..

theorem evalLeave (o : Op) : s.KeepsRepairs (u.evalLeave o).1 := by
  unfold State.evalLeave
  dsimp only
  split
  · exact h.holdObj ..
  generalize (if o.words.getD 2 0 < 2 ^ 20 then 0 else 1) = home
  have k := h.obtain home (2 ^ (u.obj (o.words.getD 0 0)).pg) 4 false
  generalize u.obtain home (2 ^ (u.obj (o.words.getD 0 0)).pg) 4 false = r at k ⊢
  repeat' split
  · exact k.giveUnits ..
  · exact k
  · exact k.holdObj ..
  · exact (k.setOp _).setObj ..
  · exact ((k.setOp _).takeUnits ..).setObj ..
  · exact k.holdCap ..

theorem evalRecover (o : Op) : s.KeepsRepairs (u.evalRecover o).1 := by
  unfold State.evalRecover
  dsimp only
  split
  · exact (h.dropOp _).recoverFrom ..
  · exact h.dropOp _

theorem evalRecv (o : Op) : s.KeepsRepairs (u.evalRecv o).1 := by
  unfold State.evalRecv
  repeat' split
  all_goals first | exact h.askRecompute .. | exact h.holdObj .. | exact h.setOp _

/-! ## Arch operations (R302 to R304) -/

theorem writeHalf (o : Op) (j : Nat) (b : Bool) (data : List Byte) : s.KeepsRepairs (u.writeHalf o j b data) := by
  unfold State.writeHalf
  split
  · exact h.foldl _ _ (fun _ _ k => k.objWrite ..)
  · exact h.objWrite ..

theorem sendHalf (o : Op) (kind chunk hop : Nat) (f : Bool) (data : List Byte) : s.KeepsRepairs (u.sendHalf o kind chunk hop f data) :=
  h.sent ((State.Sent.refl u).sendHalf o kind chunk hop f data)

theorem gather (c j : Nat) (f : Bool) : s.KeepsRepairs (u.gather c j f) := h.sent ((State.Sent.refl u).gather c j f)

theorem startColl (o : Op) : s.KeepsRepairs (u.startColl o) := by
  unfold State.startColl
  dsimp only
  split
  · refine State.KeepsRepairs.sendHalf (State.KeepsRepairs.gather (State.KeepsRepairs.writeHalf (State.KeepsRepairs.sendHalf
      (State.KeepsRepairs.gather (State.KeepsRepairs.writeHalf ?_ ..) ..) ..) ..) ..) ..
    exact h.outside rfl rfl
  · refine State.KeepsRepairs.sendHalf (State.KeepsRepairs.sendHalf ?_ ..) ..
    exact h.outside rfl rfl

theorem launch (o : Op) : s.KeepsRepairs (u.launch o) := by
  unfold State.launch
  split
  · exact (h.setOp _).sendMsg _
  · exact (h.setOp _).sent ((State.Sent.refl _).link ..)
  all_goals first | exact h.startColl _ | exact h.setOp _

theorem pinEach (o : Op) (f : ObjRef → Bool) (l : List ObjRef) :
    s.KeepsRepairs (l.foldl (fun (p : State × Op) r => if f r then p.1.pinFor p.2 (hIdx r.h) else p) (u, o)).1 := by
  induction l generalizing u o with
  | nil => exact h
  | cons r l ih =>
    rw [List.foldl_cons]
    split
    · exact ih (h.pinFor o (hIdx r.h)) _
    · exact ih h o

theorem evalAccess (o : Op) : s.KeepsRepairs (u.evalAccess o).1 := by
  unfold State.evalAccess
  split
  · split
    · exact h.askRecompute ..
    · exact h.holdObj ..
  dsimp only
  have k : s.KeepsRepairs (if o.kind.arch then u.verify (srcOf 0x07 o.arcCourse) ((u.refs o).filter (fun r => !r.wr)) else (false, u, [])).2.1 := by
    split
    · exact h.verify ..
    · exact h
  generalize (if o.kind.arch = true then u.verify (srcOf 0x07 o.arcCourse) ((u.refs o).filter (fun r => !r.wr)) else (false, u, [])) = r at k ⊢
  obtain ⟨hit, v, w⟩ := r
  cases hit
  · exact State.KeepsRepairs.launch (State.KeepsRepairs.pinEach k o (fun r => o.kind.pins && !(o.kind.arch && r.wr)) _) _
  · exact State.KeepsRepairs.holdObj k ..

/-! ## Detections (R100, R189, R249 to R256, R280) -/

theorem record (r : Repair) : s.KeepsRepairs (u.record r) :=
  h.trans ⟨rfl, List.subset_append_left .., fun _ => rfl⟩

/-- A stack that has used the spare rows it had. -/
theorem setStack (i : Nat) (k : Stack) (hk : k.spares = (u.stack i).spares) : s.KeepsRepairs (u.setStack i k) := by
  refine h.trans ⟨rfl, List.Subset.refl _, fun j => ?_⟩
  by_cases hj : j = i
  · rw [hj, State.setStack_stack, hk]
  · rw [State.setStack_stack_ne _ _ _ _ hj]

theorem spadDetect (k addr : Nat) (c inj : Bool) : s.KeepsRepairs (u.spadDetect k addr c inj) := by
  unfold State.spadDetect State.markFailed
  dsimp only
  repeat' split
  all_goals first | exact h | exact (h.setSlot ..).ev .. | exact ((h.setSlot ..).ev ..).setSlot .. | exact (((h.setSlot ..).ev ..).setSlot ..).record _

theorem rowFails (r : RowId) (inj : Bool) : s.KeepsRepairs (u.rowFails r inj) := by
  unfold State.rowFails
  dsimp only
  repeat' split
  all_goals first | exact h | exact h.setStack _ _ rfl | exact h.ev .. | exact h.injReport.ev ..

theorem ftgCorr (r : RowId) (lane addr : Nat) (inj : Bool) : s.KeepsRepairs (u.ftgCorr r lane addr inj) := by
  unfold State.ftgCorr
  dsimp only
  generalize hv : ((u.setStack _ _).ev _ _ _ _ _ _) = v
  have k : s.KeepsRepairs v := hv ▸ (h.setStack _ _ (by rfl)).ev ..
  split
  · exact k.rowFails ..
  · exact k

theorem ftgUncorr (r : RowId) (addr i blk : Nat) (reads inj : Bool) : s.KeepsRepairs (u.ftgUncorr r addr i blk reads inj) := by
  unfold State.ftgUncorr
  dsimp only
  refine State.KeepsRepairs.rowFails (State.KeepsRepairs.post ?_ _) ..
  split
  · exact h.setStack _ _ rfl
  · exact (h.setStack _ _ (by rfl)).markLine ..

theorem sideUncorr (r : RowId) (addr : Nat) (l : List (Nat × Nat)) (stays inj : Bool) : s.KeepsRepairs (u.sideUncorr r addr l stays inj) := by
  unfold State.sideUncorr
  dsimp only
  refine State.KeepsRepairs.rowFails (State.KeepsRepairs.post ?_ _) ..
  split
  · refine (h.setStack _ _ (by rfl)).foldl _ _ (fun _ _ k => ?_)
    exact k.outside rfl rfl
  · exact h.setStack _ _ rfl

theorem empty (g : Nat) : s.KeepsRepairs (u.empty g) := by
  unfold State.empty
  dsimp only
  refine State.KeepsRepairs.foldl ?_ _ _ (fun _ _ k => k.request ..)
  split <;> exact h.hod _

theorem quarantine (src g : Nat) (inj : Bool) : s.KeepsRepairs (u.quarantine src g inj) := by
  unfold State.quarantine
  dsimp only
  split
  · exact h
  · refine State.KeepsRepairs.empty (State.KeepsRepairs.ev ?_ ..) _
    exact h.outside rfl rfl

theorem ucfCorr (ch addr : Nat) (inj : Bool) : s.KeepsRepairs (u.ucfCorr ch addr inj) := by
  refine State.KeepsRepairs.ev ?_ ..
  exact h.outside rfl rfl

theorem ucfUncorr (ch addr i blk : Nat) (inj : Bool) : s.KeepsRepairs (u.ucfUncorr ch addr i blk inj) := by
  unfold State.ucfUncorr
  dsimp only
  generalize hv : (State.ev _ (srcOf 0x04 ch) evUcfUncorr _ _ _ _) = v
  have k : s.KeepsRepairs v := by
    refine hv ▸ State.KeepsRepairs.ev ?_ ..
    split <;> exact h.outside rfl rfl
  split
  · exact k.quarantine ..
  · exact k

theorem mtrCorr (slice addr : Nat) (inj : Bool) : s.KeepsRepairs (u.mtrCorr slice addr inj) := by
  refine State.KeepsRepairs.ev ?_ ..
  exact h.outside rfl rfl

theorem mtrUncorr (slice addr case cls handle : Nat) (inj : Bool) : s.KeepsRepairs (u.mtrUncorr slice addr case cls handle inj) := by
  refine State.KeepsRepairs.post ?_ _
  exact h.outside rfl rfl

/-- A report keeps them where the detector's own effect does. -/
theorem reported (code src addr unit : Nat) (f : State → Bool → State) (e : ∀ (v : State) (b : Bool), s.KeepsRepairs v → s.KeepsRepairs (f v b)) :
    s.KeepsRepairs (u.reported code src addr unit f) := by
  unfold State.reported
  split
  · exact e _ _ h.injReport
  · exact e _ _ h

omit h in
theorem foundPoison {f : Found} (hf : s.KeepsRepairs f.s) (i addr : Nat) (inj : Bool) : s.KeepsRepairs (f.poison i addr inj).s := hf.poison ..

omit h in
theorem injMismatch {f : Found} (hf : s.KeepsRepairs f.s) (src code at_ addr i b : Nat) (r : State → State)
    (hr : ∀ v : State, s.KeepsRepairs v → s.KeepsRepairs (r v)) : s.KeepsRepairs (f.injMismatch src code at_ addr i b r).s := by
  unfold Found.injMismatch
  dsimp only
  split
  · exact foundPoison ((hr _ (hf.csumMismatch ..).injReport).csumMismatch ..) ..
  · exact hf.csumMismatch ..

theorem mismatchEach (src : Nat) (l : List (Nat × Nat)) (inj : Bool) : s.KeepsRepairs (l.foldl (fun s p => s.csumMismatch src p.1 p.2 inj) u) :=
  h.foldl _ _ (fun _ _ k => k.csumMismatch ..)

omit h in
theorem poisonEach {f : Found} (hf : s.KeepsRepairs f.s) (l : List (Nat × Nat)) (inj : Bool) :
    s.KeepsRepairs (l.foldl (fun f p => f.poison p.1 (f.s.blockAddr p.1 p.2) inj) f).s := by
  induction l generalizing f with
  | nil => exact hf
  | cons p l ih => exact ih (foundPoison hf ..)

omit h in
/-- A line of the side-table that does not read (R255). -/
theorem detectSide {f : Found} (hf : s.KeepsRepairs f.s) (src k : Nat) (rs : List ObjRef) (addr : Nat) (stays : Bool) :
    s.KeepsRepairs (Found.detect src k rs f (.side addr stays)).s := by
  unfold Found.detect
  dsimp only
  generalize f.s.injAt evFtgUncorr (rowAt addr).src addr 256 = inj
  generalize (f.s.sideBlocks addr).filter (fun p => f.s.poisonable p.1) = lost
  generalize lost.filter (fun p => rs.any (fun q => hIdx q.h == p.1 && q.verifies p.2)) = mine
  have h0 : s.KeepsRepairs (if inj then f.s.injReport else f.s) := by
    split
    · exact hf.injReport
    · exact hf
  have h1 := (h0.sideUncorr (rowAt addr) addr lost (stays && !inj) inj).mismatchEach src mine inj
  have twice (v : State) (hv : s.KeepsRepairs v) : s.KeepsRepairs (lost.foldl (fun (f : Found) (p : Nat × Nat) => f.poison p.1 (f.s.blockAddr p.1 p.2) inj)
      { f with s := mine.foldl (fun s p => s.csumMismatch src p.1 p.2 inj) v }).s :=
    poisonEach (hv.mismatchEach src mine inj) lost inj
  cases inj <;> simp only [if_true, if_false, Bool.false_eq_true] at h1 ⊢
  · split
    · exact twice _ h1
    · exact h1
  · split
    · exact twice _ (h1.injReport.sideUncorr ..)
    · exact h1

omit h in
/-- A detection of a reader. -/
theorem detectOne {f : Found} (hf : s.KeepsRepairs f.s) (src k : Nat) (rs : List ObjRef) (d : Detect) : s.KeepsRepairs (Found.detect src k rs f d).s := by
  cases d with
  | spad =>
    unfold Found.detect
    dsimp only
    exact hf.reported _ _ _ _ _ (fun _ _ k => k.spadDetect ..)
  | mtrCorr =>
    unfold Found.detect
    dsimp only
    exact hf.reported _ _ _ _ _ (fun _ _ k => k.mtrCorr ..)
  | mtrClean =>
    unfold Found.detect
    dsimp only
    exact hf.reported _ _ _ _ _ (fun _ _ k => k.mtrUncorr ..)
  | mtrCombine =>
    unfold Found.detect
    dsimp only
    exact hf.reported _ _ _ _ _ (fun _ _ k => k.mtrUncorr ..)
  | ftgCorr =>
    unfold Found.detect
    dsimp only
    exact hf.reported _ _ _ _ _ (fun _ _ k => k.ftgCorr ..)
  | ucfCorr =>
    unfold Found.detect
    dsimp only
    exact hf.reported _ _ _ _ _ (fun _ _ k => k.ucfCorr ..)
  | side addr stays => exact detectSide hf ..
  | flash _ => exact hf
  | mtrDirty addr i b =>
    have hr := hf.reported evMtrUncorr (srcOf 0x02 (mortarSlice addr)) addr 256
      (fun s inj => s.mtrUncorr (mortarSlice addr) addr 2 2 (s.obj i).handle.toNat inj) (fun _ _ k => k.mtrUncorr ..)
    unfold Found.detect
    dsimp only
    split
    · exact hr
    · refine foundPoison ?_ ..
      dsimp only
      split
      · exact hr
      · exact hr.markLine ..
  | ftgUncorr addr i b =>
    have hr (reads : Bool) := hf.reported evFtgUncorr (rowAt addr).src addr 256 (fun s inj => s.ftgUncorr (rowAt addr) addr i b reads inj)
      (fun _ _ k => k.ftgUncorr ..)
    unfold Found.detect
    dsimp only
    split
    · exact injMismatch (hr _) _ _ _ _ _ _ _ (fun _ k => k.ftgUncorr ..)
    · exact hr _
  | ucfUncorr addr i b =>
    have hr := hf.reported evUcfUncorr (srcOf 0x04 (ucfChannel addr)) addr 256 (fun s inj => s.ucfUncorr (ucfChannel addr) addr i b inj)
      (fun _ _ k => k.ucfUncorr ..)
    unfold Found.detect
    dsimp only
    split
    · exact injMismatch hr _ _ _ _ _ _ _ (fun _ k => k.ucfUncorr ..)
    · exact hr
  | csum i b =>
    unfold Found.detect
    dsimp only
    split
    · exact hf
    · exact hf.csumMismatch ..
  | csumTwice i b =>
    unfold Found.detect
    dsimp only
    split
    · exact hf
    · exact foundPoison ((hf.csumMismatch ..).csumMismatch ..) ..

omit h in
theorem detectEach {f : Found} (hf : s.KeepsRepairs f.s) (src k : Nat) (rs : List ObjRef) (l : List Detect) :
    s.KeepsRepairs (l.foldl (Found.detect src k rs) f).s := by
  induction l generalizing f with
  | nil => exact hf
  | cons d l ih => exact ih (detectOne hf src k rs d)

theorem armedAt (src : Nat) (rs : List ObjRef) : s.KeepsRepairs (u.armedAt src rs).2 := by
  unfold State.armedAt
  dsimp only
  repeat' split
  all_goals first | exact h | exact h.fresh

theorem detect (src k : Nat) (rs : List ObjRef) (ds : List Detect) : s.KeepsRepairs (u.detect src k rs ds).s := by
  have hd : s.KeepsRepairs (ds.foldl (Found.detect src k rs) { s := u }).s := detectEach h ..
  exact State.KeepsRepairs.verify (detectEach (State.KeepsRepairs.armedAt hd ..) ..) ..

/-! ## Accesses of the host (R375) -/

theorem bar2Refuse (r : ObjRef) : s.KeepsRepairs (u.bar2Refuse r) := by
  have k : s.KeepsRepairs (u.hifFault 1) := h.outside rfl rfl
  unfold State.bar2Refuse
  dsimp only
  split
  · exact k.ev ..
  · exact k

theorem late (id : Nat) (r : HostRsp) : s.KeepsRepairs (u.late id r) := h.outside rfl rfl

theorem peerTraffic (rs : List ObjRef) : s.KeepsRepairs (u.peerTraffic rs) := by
  refine h.foldl _ _ (fun _ _ k => ?_)
  dsimp only
  repeat' split
  all_goals first | exact k | exact k.sendMsg _

theorem evalHost (o : Op) : s.KeepsRepairs (u.evalHost o).1 := by
  have hd := h.dropOp o.id
  have k := h.detect bar2Src 0 [{ h := o.words.getD 1 0, lo := o.words.getD 2 0, n := o.words.getD 3 0, wr := o.kind == .hostWrite }] o.found
  unfold State.evalHost
  dsimp only
  split
  · exact h.holdObj ..
  split
  · split
    · exact hd.bar2Refuse _
    · exact (hd.bar2Refuse _).late ..
  split
  · exact hd
  split
  · exact h.holdObj ..
  split
  · split
    · exact h.askRecompute ..
    · exact h.holdObj ..
  split
  · split
    · exact k.holdObj ..
    · exact ((k.dropOp _).objWrite ..).peerTraffic _
  · split
    · refine State.KeepsRepairs.late ?_ ..
      exact (k.dropOp o.id).outside rfl rfl
    · exact ((k.dropOp _).late ..).peerTraffic _

/-! ## Settlement -/

theorem eval (o : Op) : s.KeepsRepairs (u.eval o).1 := by
  unfold State.eval
  dsimp only
  split
  · exact h.evalPin ..
  · exact h.evalUnpin ..
  · exact h.evalPromote ..
  · exact h.evalPromote ..
  · exact h.evalDemote ..
  · exact h.evalDemote ..
  · exact h.evalDrop ..
  · exact h.evalAppend ..
  · exact h.evalTrim ..
  · exact h.evalDestroy ..
  · exact h.evalCreate ..
  · exact h.evalLeave ..
  · exact h.evalRecover ..
  · exact h.evalHost ..
  · exact h.evalHost ..
  · exact h.evalRecv ..
  · exact h.evalAccess ..

theorem settleN (n : Nat) (l : List Nat) : s.KeepsRepairs (u.settleN n l) := by
  induction n generalizing u l with
  | zero => exact h
  | succ n ih =>
    cases l with
    | nil => exact h
    | cons id rest =>
      unfold State.settleN
      split
      · exact ih (h.eval _) _
      · exact ih h _

theorem park : s.KeepsRepairs u.park := h.foldl _ _ (fun _ x k => k.parkCtx x)

/-- Settlement keeps them. -/
theorem settle (l : List Nat) : s.KeepsRepairs (u.settle l) := ((h.settleN _ l).wakeFetch).park

end State.KeepsRepairs

end Sys2Proof.Machine
end

section
/-! PROOF. Repair, retirement, scrub and temperature of footing (R250, R251, R257, R258), and the obligation. -/

namespace Sys2Proof.Machine

/-! ## Repair of a row (R257, R258) -/

theorem State.mem_record (s : State) (q : Repair) : q ∈ (s.record q).ftg.repairs := List.mem_append_right _ (List.mem_singleton_self q)

@[simp] theorem State.record_ops (s : State) (q : Repair) : (s.record q).ops = s.ops := rfl
@[simp] theorem State.record_stack (s : State) (q : Repair) (i : Nat) : (s.record q).stack i = s.stack i := rfl

/-- A row that a spare row replaces: its bank has used one more, which the record names. -/
theorem State.repairRow_spare {s : State} {p : PendingRow} (hinj : p.inj = false) (hplace : p.inPlace = false) :
    ∃ (k : Stack) (u : State) (q : Repair), s.repairRow p = u.record q ∧ (s.setStack p.row.stack.val k).Logged u
      ∧ k.spares = Tab.set 0 (s.stack p.row.stack.val).spares p.row.bankKey (Tab.get 0 (s.stack p.row.stack.val).spares p.row.bankKey + 1)
      ∧ q.typ = 2 ∧ q.row = some p.row ∧ q.spare = Tab.get 0 (s.stack p.row.stack.val).spares p.row.bankKey := by
  simp only [State.repairRow, hplace, hinj, Bool.false_eq_true, if_false]
  exact ⟨_, _, _, rfl, State.ev_logged _ _ _ _ _ _ _ (by decide), rfl, rfl, rfl, rfl⟩

/-- The event of a row written back in place, and the record of one that no injection made fail (R258). -/
def State.writtenBack (s : State) (p : PendingRow) : State :=
  let k := s.stack p.row.stack.val
  let k := { k with pendingRows := k.pendingRows.filter (fun q => q.row != p.row), rowErr := k.rowErr.filter (fun q => q.1 != p.row) }
  let t := (s.setStack p.row.stack.val k).ev p.row.src evRowRepaired p.row.region 0 (p.row.bytes ++ toBytes 1 0xFF) p.inj
  if p.inj then t else t.record { typ := 2, row := some p.row, spare := 0xFF, seq := s.ldg.next }

/-- A row whose region begins to retire. -/
def State.retires (s : State) (p : PendingRow) : State :=
  { s with ftg := { s.ftg with retiring := s.ftg.retiring ++ [(p.row.region, p.row, p.inj)] } }

theorem State.writtenBack_keepsRepairs (s : State) (p : PendingRow) : s.KeepsRepairs (s.writtenBack p) := by
  unfold State.writtenBack
  dsimp only
  split
  · exact ((State.KeepsRepairs.refl s).setStack _ _ (by rfl)).ev ..
  · exact (((State.KeepsRepairs.refl s).setStack _ _ (by rfl)).ev ..).record _

theorem State.writtenBack_retired (s : State) (p : PendingRow) : (s.writtenBack p).ftg.retired = s.ftg.retired := by
  have hev (t : State) : (t.ev p.row.src evRowRepaired p.row.region 0 (p.row.bytes ++ toBytes 1 0xFF) p.inj).ftg = t.ftg :=
    (State.ev_logged _ _ _ _ _ _ _ (by decide)).ftg
  unfold State.writtenBack
  dsimp only
  split
  · rw [hev]
    rfl
  · rw [State.record, hev]
    rfl

theorem State.writtenBack_record {s : State} {p : PendingRow} (h : p.inj = false) :
    ∃ q ∈ (s.writtenBack p).ftg.repairs, q.typ = 2 ∧ q.row = some p.row ∧ q.spare = 0xFF := by
  simp only [State.writtenBack, h, Bool.false_eq_true, if_false]
  exact ⟨_, State.mem_record .., rfl, rfl, rfl⟩

/-- A row written back in place, in a region that is not out of use: the region becomes RETIRING and its pages must leave. -/
theorem State.repairRow_inPlace {s : State} {p : PendingRow} (hplace : p.inPlace = true) (hout : s.regionOut p.row.region = false) :
    s.repairRow p = ((s.writtenBack p).retires p).empty p.row.region := by
  have h : (s.writtenBack p).regionOut p.row.region = false := by
    rw [State.regionOut, s.writtenBack_retired, (s.writtenBack_keepsRepairs p).retiring]
    exact hout
  rw [State.repairRow, if_pos hplace]
  exact if_neg (Bool.eq_false_iff.1 h)

/-- A soft repair without a detection: the row's repair, and the evaluation of the requests that it makes. -/
theorem State.softRepair_repairRow {s : State} {r : RowId} {p : PendingRow} (hp : (s.stack r.stack.val).pendingRows.find? (fun p => p.row == r) = some p) :
    p.row = r ∧ s.softRepair r [] = (s.repairRow p).settle (((s.repairRow p).ops.filter (fun o => s.nextOp ≤ o.id)).map Op.id) := by
  refine ⟨by simpa using List.find?_some hp, ?_⟩
  rw [State.softRepair, hp]
  rfl

/-- No operation has a number that is still to be given. -/
theorem State.Numbered.filter_new {s : State} (h : s.Numbered) : s.ops.filter (fun o => s.nextOp ≤ o.id) = [] :=
  List.filter_eq_nil_iff.2 fun o ho => by simpa using h o ho

/-! ## Retirement (R258) -/

theorem State.regionEmpty_retires {s : State} {g : Nat} {r : RowId} (hg : s.ftg.retiring.find? (fun q => q.1 == g) = some (g, r, false))
    (he : s.emptied g = true) :
    ∃ u : State, u.Logged (s.regionEmpty g) ∧ g ∈ u.ftg.retired ∧ u.hod.allocFast = s.hod.allocFast - 32
      ∧ (∃ q ∈ u.ftg.repairs, q.typ = 4 ∧ q.region = g) ∧ u.objMem = s.objMem := by
  simp only [State.regionEmpty, hg, he, Bool.not_true, Bool.false_eq_true, if_false]
  exact ⟨_, State.ev_logged _ _ _ _ _ _ _ (by decide), List.mem_append_right _ (List.mem_singleton_self g), rfl,
    ⟨_, State.mem_record .., rfl, rfl⟩, rfl⟩

/-! ## Scrub (R250) -/

theorem execScrub_quiet {s : State} {r : RowId} (hr : r.region ∉ s.ftg.retired) (ht : (s.stack r.stack.val).train = 1) (hq : s.Quiet) :
    execScrub r [] s = .next (s.setStack r.stack.val { s.stack r.stack.val with scrub := !lastOfStack r }) := by
  rw [execScrub, if_neg (by simp [hr, ht])]
  exact congrArg _ (State.settle_nil hq.fetch hq.held)

/-! ## Temperature (R251) -/

/-- A reading of one stack's temperature. -/
def State.readStackTemp (temps : Vector (BitVec 8) 8) (s : State) (i : Nat) : State :=
  let k := s.stack i
  let t := temps.toList.getD i 0
  if k.train = 1 then
    s.setStack i { k with
      temp := t, tmax := if k.tmax.toNat < t.toNat then t else k.tmax
      rmult := if s.pln.throttling then 2 else refreshCode k.rmult t.toNat }
  else s

theorem execFootingTempReading_foldl (temps : Vector (BitVec 8) 8) (s : State) :
    execFootingTempReading temps s = .next ((List.range 8).foldl (State.readStackTemp temps) s) := rfl

theorem State.readStackTemp_objMem (temps : Vector (BitVec 8) 8) (s : State) (i : Nat) : (s.readStackTemp temps i).objMem = s.objMem := by
  unfold State.readStackTemp
  dsimp only
  split <;> rfl

theorem State.readStackTemp_stack_ne (temps : Vector (BitVec 8) 8) (s : State) {i j : Nat} (h : j ≠ i) :
    (s.readStackTemp temps i).stack j = s.stack j := by
  unfold State.readStackTemp
  dsimp only
  split
  · exact State.setStack_stack_ne _ _ _ _ h
  · rfl

/-- A trained stack shows its reading, and the greatest one (R251). -/
theorem State.readStackTemp_spec {s : State} {i : Nat} (temps : Vector (BitVec 8) 8) (h : (s.stack i).train = 1) :
    ((s.readStackTemp temps i).stack i).temp = temps.toList.getD i 0
      ∧ ((s.readStackTemp temps i).stack i).tmax.toNat = max (s.stack i).tmax.toNat (temps.toList.getD i 0).toNat := by
  rw [State.readStackTemp, if_pos h, State.setStack_stack]
  refine ⟨rfl, ?_⟩
  dsimp only
  split <;> omega

theorem State.foldl_readStackTemp_objMem (temps : Vector (BitVec 8) 8) (l : List Nat) (s : State) :
    (l.foldl (State.readStackTemp temps) s).objMem = s.objMem := by
  induction l generalizing s with
  | nil => rfl
  | cons i l ih => rw [List.foldl_cons, ih, State.readStackTemp_objMem]

theorem State.foldl_readStackTemp_stack_ne (temps : Vector (BitVec 8) 8) {l : List Nat} (s : State) {j : Nat} (h : j ∉ l) :
    (l.foldl (State.readStackTemp temps) s).stack j = s.stack j := by
  induction l generalizing s with
  | nil => rfl
  | cons i l ih =>
    rw [List.mem_cons, not_or] at h
    rw [List.foldl_cons, ih _ h.2, State.readStackTemp_stack_ne _ _ h.1]

/-- Each stack is read once, in the state that it was in. -/
theorem State.foldl_readStackTemp_spec {s : State} {l : List Nat} {j : Nat} (temps : Vector (BitVec 8) 8) (hl : l.Nodup) (hj : j ∈ l)
    (h : (s.stack j).train = 1) :
    ((l.foldl (State.readStackTemp temps) s).stack j).temp = temps.toList.getD j 0
      ∧ ((l.foldl (State.readStackTemp temps) s).stack j).tmax.toNat = max (s.stack j).tmax.toNat (temps.toList.getD j 0).toNat := by
  induction l generalizing s with
  | nil => cases hj
  | cons i l ih =>
    obtain ⟨hi, hl⟩ := List.nodup_cons.1 hl
    rw [List.foldl_cons]
    by_cases he : j = i
    · subst he
      rw [State.foldl_readStackTemp_stack_ne temps _ hi]
      exact State.readStackTemp_spec temps h
    · have hs := s.readStackTemp_stack_ne temps he
      rw [← hs] at h ⊢
      exact ih hl (List.mem_of_ne_of_mem he hj) h

end Sys2Proof.Machine

/-! ## The obligation -/

open Sys2Proof Sys2Proof.Machine

/-- Settles O34: a repair's event and record are followed by the evaluation of requests, which keeps the regions that retire, the records and the spare rows used
(`State.KeepsRepairs.settle`); a quiet module has nothing to evaluate after a scrub, and a reading takes each stack once. -/
theorem footingUpkeep : Obligations.FootingUpkeep := by
  unfold Obligations.FootingUpkeep
  intro s _
  refine ⟨?_, ?_, ?_, ?_, ?_, ?_⟩
  · -- a row that a spare row replaces
    intro r p hn hp hinj hplace
    obtain ⟨rfl, hsoft⟩ := State.softRepair_repairRow hp
    obtain ⟨k, u, q, he, hl, hk, hq⟩ := State.repairRow_spare (s := s) hinj hplace
    rw [he, State.record_ops, hl.ops, State.setStack_ops, hn.filter_new, List.map_nil] at hsoft
    have hkeep := (State.KeepsRepairs.refl (u.record q)).settle []
    refine ⟨_, congrArg Host.Outcome.next hsoft, ?_, ⟨q, hkeep.repairs (u.mem_record q), hq⟩, ?_⟩
    · rw [hkeep.spares, State.record_stack, State.stack, hl.ftgStacks, ← State.stack, State.setStack_stack, hk, Tab.get_set]
    · exact (State.settle_nil_keepsObjects _).objMem.trans hl.objMem
  · -- a row written back in place
    intro r p hp hplace hout
    obtain ⟨rfl, hsoft⟩ := State.softRepair_repairRow hp
    have hback := s.writtenBack_keepsRepairs p
    have hkeep := ((State.KeepsRepairs.refl ((s.writtenBack p).retires p)).empty p.row.region).settle
      (((s.repairRow p).ops.filter (fun o => s.nextOp ≤ o.id)).map Op.id)
    rw [← State.repairRow_inPlace hplace hout, ← hsoft] at hkeep
    refine ⟨_, rfl, ⟨p.inj, ?_⟩, fun hinj => ?_, ?_⟩
    · rw [hkeep.retiring]
      exact List.mem_append_right _ (List.mem_singleton_self _)
    · obtain ⟨q, hq, hrec⟩ := State.writtenBack_record (s := s) hinj
      exact ⟨q, hkeep.repairs hq, hrec⟩
    · rw [hkeep.spares]
      exact congrArg (Tab.get 0 · _) (hback.spares _)
  · -- retirement
    intro g r hg he
    obtain ⟨u, hl, hretired, halloc, ⟨q, hq, htyp, hregion⟩, hmem⟩ := State.regionEmpty_retires hg he
    exact ⟨_, rfl, hl.ftg ▸ hretired, hl.hod ▸ halloc, ⟨q, hl.ftg ▸ hq, htyp, hregion⟩, hl.objMem.trans hmem⟩
  · -- scrub
    intro r hr ht hq
    exact ⟨_, execScrub_quiet hr ht hq, by rw [State.setStack_stack], rfl, rfl⟩
  · -- refresh
    intro i hi
    exact congrArg Host.Outcome.next (if_pos hi)
  · -- temperature
    intro v i ht
    obtain ⟨htemp, hmax⟩ := State.foldl_readStackTemp_spec v List.nodup_range (List.mem_range.2 i.isLt) (ht i)
    have hv : v.toList.getD i.val 0 = v[i] := by simp
    rw [hv] at htemp hmax
    exact ⟨_, execFootingTempReading_foldl v s, htemp, hmax, State.foldl_readStackTemp_objMem ..⟩

end

section
/-! PROOF. Link ports (R288 to R292): what a pair that sends leaves of its ports and its stream, how a flit takes its turn, replay, and training in service. -/

namespace Sys2Proof

/-- The header, the CRC and the FEC of a flit are good (R289). -/
def Flit.good (f : Flit) : Bool := f.fecOk && f.crcOk && Machine.flitFields f

/-- The state and the width in which a training in service leaves a port (R291, R292). -/
def Training.outcome (r : Training) (port : Nat) : Nat × Nat :=
  let n := Machine.popCount 9 r.failed.toNat
  if r.partner = false then (0, 0) else if 6 ≤ n then (4, 0) else if r.pport.val ≠ Machine.matching port then (4, 0) else if 2 ≤ n then (3, 4) else (2, 8)

end Sys2Proof

namespace Sys2Proof.Machine

/-! ## What sending leaves of ports and pairs (R288, R290) -/

/-- What a pair does with the flits that wait (R290): nothing, or some of them go out. -/
theorem State.pump_cases (s : State) (k : Nat) :
    s.pump k = s ∨ ∃ n b m, s.pump k = (s.setPair k { s.pair k with next := n, backlog := b }).putFlits k m := by
  unfold State.pump
  dsimp only
  generalize (if ((s.port (2 * k)).inUse || (s.port (2 * k + 1)).inUse) = true then min (s.pair k).backlog (2048 - ((s.pair k).next - (s.pair k).acked).toNat)
    else 0) = n
  split
  · exact .inl rfl
  · exact .inr ⟨_, _, _, rfl⟩

/-- `t` has the ports and pairs of `s` but for what sending moves: the bytes that a port has sent, and a pair's next SEQ and waiting flits. -/
structure State.Carries (s t : State) : Prop where
  port (j : Nat) : t.port j = { s.port j with tx := (t.port j).tx }
  pair (j : Nat) : t.pair j = { s.pair j with next := (t.pair j).next, backlog := (t.pair j).backlog }

namespace State.Carries

variable {s t u : State}

theorem refl (s : State) : s.Carries s := ⟨fun _ => rfl, fun _ => rfl⟩

theorem trans (h : s.Carries t) (k : t.Carries u) : s.Carries u where
  port j := by rw [k.port, h.port]
  pair j := by rw [k.pair, h.pair]

/-- The payload that a port sends is counted on it. -/
theorem setPort_tx (s : State) (p : Nat) (n : W64) : s.Carries (s.setPort p { s.port p with tx := n }) where
  port j := by
    by_cases hj : j = p
    · subst hj
      rw [State.setPort_port]
    · rw [State.setPort_port_ne _ _ _ _ hj]
  pair _ := rfl

theorem setPair_next (s : State) (k : Nat) (n : BitVec 12) (b : Nat) : s.Carries (s.setPair k { s.pair k with next := n, backlog := b }) where
  port _ := rfl
  pair j := by
    by_cases hj : j = k
    · subst hj
      rw [State.setPair_pair]
    · rw [State.setPair_pair_ne _ _ _ _ hj]

theorem putFlits (s : State) (k n : Nat) : s.Carries (s.putFlits k n) := by
  have hfresh : s.Carries s.fresh.2 := ⟨fun _ => rfl, fun _ => rfl⟩
  unfold State.putFlits
  dsimp only
  split
  · exact (hfresh.trans (setPort_tx ..)).trans (setPort_tx ..)
  · split <;> exact setPort_tx ..

theorem pump (s : State) (k : Nat) : s.Carries (s.pump k) := by
  obtain he | ⟨n, b, m, he⟩ := s.pump_cases k
  · rw [he]
    exact refl s
  · rw [he]
    exact (setPair_next ..).trans (putFlits ..)

variable (h : s.Carries t) (j : Nat)
include h

theorem state : (t.port j).state = (s.port j).state := by rw [h.port]
theorem width : (t.port j).width = (s.port j).width := by rw [h.port]
theorem replay : (t.port j).replay = (s.port j).replay := by rw [h.port]
theorem expect : (t.pair j).expect = (s.pair j).expect := by rw [h.pair]
theorem nak : (t.pair j).nak = (s.pair j).nak := by rw [h.pair]
theorem early : (t.pair j).early = (s.pair j).early := by rw [h.pair]
theorem acked : (t.pair j).acked = (s.pair j).acked := by rw [h.pair]

end State.Carries

theorem State.pump_objMem (s : State) (k : Nat) : (s.pump k).objMem = s.objMem := ((State.Sent.refl s).pump k).objMem

/-! ## Injection points that are not armed (R441) -/

theorem State.injCheck_unarmed {s : State} (h : s.Unarmed) (code src : Nat) (ok : Nat → Bool) : s.injCheck code src ok = (false, s) := by
  rw [State.injCheck, if_neg (by simp [s.injArmed_unarmed _ _ _ h])]

/-! ## Flits (R288 to R290) -/

@[simp] theorem Pair.ack_expect (p : Pair) (a : BitVec 12) : (p.ack a).expect = p.expect := by
  unfold Pair.ack
  split <;> rfl

@[simp] theorem Pair.ack_nak (p : Pair) (a : BitVec 12) : (p.ack a).nak = p.nak := by
  unfold Pair.ack
  split <;> rfl

@[simp] theorem Pair.ack_early (p : Pair) (a : BitVec 12) : (p.ack a).early = p.early := by
  unfold Pair.ack
  split <;> rfl

/-- With none of the early flits next in turn, none is taken. -/
theorem State.takeEarly_none {s : State} {k : Nat} (h : ∀ e ∈ (s.pair k).early, e.1 ≠ (s.pair k).expect) (n : Nat) : s.takeEarly k n = s := by
  cases n with
  | zero => rfl
  | succ n =>
    have hfind : (s.pair k).early.find? (fun e => e.1 == (s.pair k).expect) = none := List.find?_eq_none.2 fun e he => by simpa using h e he
    rw [State.takeEarly, hfind]

@[simp] theorem State.takeFlit_pair (s : State) (k port : Nat) (counts : Bool) :
    (s.takeFlit k port counts).pair k = { s.pair k with expect := (s.pair k).expect + 1 } := State.setPair_pair ..

/-- The state once the FEC counters of a port have counted a codeword (R289). -/
def State.counted (s : State) (port : Nat) (f : Flit) : State := s.setPort port ((s.port port).fec f)

section
variable {s : State} {port : Nat} {f : Flit} (hu : s.Unarmed) (hin : (s.port port).inUse = true)
include hu hin

/-- R290: an invalid flit is discarded with a NAK, and so are those that were kept. -/
theorem State.flitReceive_invalid (hf : f.good = false) :
    s.flitReceive port f = (s.counted port f).setPair (pairOf port) { s.pair (pairOf port) with nak := true, early := [] } := by
  have hbad : (!f.fecOk || !f.crcOk || !flitFields f) = true := by simpa [Flit.good, or_assoc, Decidable.or_iff_not_imp_left] using hf
  simp only [State.flitReceive, hin, State.injCheck_unarmed hu, hbad]
  rfl

/-- The flit expected is taken, whichever port of the pair carried it; none of the early ones follows it. -/
theorem State.flitReceive_expected (hf : f.good = true) (hs : sequenced f = true) (hseq : f.seq = (s.pair (pairOf port)).expect)
    (hnext : ∀ e ∈ (s.pair (pairOf port)).early, e.1 ≠ f.seq + 1) :
    s.flitReceive port f = ((((s.counted port f).setPair (pairOf port) { (s.pair (pairOf port)).ack f.ack with nak := false }).takeFlit (pairOf port) port
      (f.typ != 4))).pump (pairOf port) := by
  simp only [Flit.good, Bool.and_eq_true] at hf
  obtain ⟨⟨hfec, hcrc⟩, hfields⟩ := hf
  simp only [State.flitReceive, hin, State.injCheck_unarmed hu, hfec, hcrc, hfields, hs, State.setPort_pair, Pair.ack_expect, if_pos hseq]
  exact congrArg (State.pump · _) (State.takeEarly_none (by simpa [← hseq] using hnext) _)

/-- A good flit ahead of its turn, within the window, that has not come before is kept. -/
theorem State.flitReceive_early (hf : f.good = true) (hs : sequenced f = true) (hseq : f.seq ≠ (s.pair (pairOf port)).expect)
    (hnak : (s.pair (pairOf port)).nak = false) (hwin : (f.seq - (s.pair (pairOf port)).expect).toNat < 2048)
    (hnew : ∀ e ∈ (s.pair (pairOf port)).early, e.1 ≠ f.seq) :
    s.flitReceive port f = ((s.counted port f).setPair (pairOf port)
      { (s.pair (pairOf port)).ack f.ack with early := (s.pair (pairOf port)).early ++ [(f.seq, port, f.typ != 4)] }).pump (pairOf port) := by
  simp only [Flit.good, Bool.and_eq_true] at hf
  obtain ⟨⟨hfec, hcrc⟩, hfields⟩ := hf
  have hany : (s.pair (pairOf port)).early.any (fun e => e.1 == f.seq) = false := List.any_eq_false.2 fun e he => by simpa using hnew e he
  simp only [State.flitReceive, hin, State.injCheck_unarmed hu, hfec, hcrc, hfields, hs, State.setPort_pair, Pair.ack_expect, Pair.ack_nak, Pair.ack_early,
    if_neg hseq, hnak, hany, decide_eq_false (Nat.not_le.2 hwin)]
  rfl

end

/-! ## Replay (R290) -/

/-- The trace buffer takes no port and no pair. -/
theorem State.trace_links (s : State) (e : Ev) : (s.trace e).ports = s.ports ∧ (s.trace e).pairs = s.pairs := by
  have hdrain (n : Nat) (u : State) : (State.traceDrain n u).ports = u.ports ∧ (State.traceDrain n u).pairs = u.pairs := by
    induction n generalizing u with
    | zero => exact ⟨rfl, rfl⟩
    | succ n ih =>
      unfold State.traceDrain
      split
      · exact ⟨rfl, rfl⟩
      · split
        · exact ih _
        · exact ⟨rfl, rfl⟩
  unfold State.trace
  dsimp only
  split
  · exact hdrain ..
  · exact ⟨rfl, rfl⟩

theorem State.Logged.ports {s t : State} (h : s.Logged t) : t.ports = s.ports := by rw [h]
theorem State.Logged.pairs {s t : State} (h : s.Logged t) : t.pairs = s.pairs := by rw [h]

/-- An event takes no port and no pair. -/
theorem State.ev_links (s : State) (src code key w44 : Nat) (rest : List Byte) (inj : Bool) :
    (s.ev src code key w44 rest inj).ports = s.ports ∧ (s.ev src code key w44 rest inj).pairs = s.pairs := by
  cases hc : isTraceCode code with
  | true =>
    have he : s.ev src code key w44 rest inj = s.trace (evOf src code key w44 rest inj) := if_pos hc
    rw [he]
    exact s.trace_links _
  | false =>
    have h := s.ev_logged src code key w44 rest inj hc
    exact ⟨h.ports, h.pairs⟩

theorem State.ev_port (s : State) (src code key w44 : Nat) (rest : List Byte) (inj : Bool) (j : Nat) :
    (s.ev src code key w44 rest inj).port j = s.port j := by
  rw [State.port, (s.ev_links ..).1, State.port]

/-- The NAKs in succession that have named `seq`, the one that arrives among them. -/
def Pair.naks (p : Pair) (seq : BitVec 12) : Nat :=
  match p.resent with
  | some (r, n) => if r = seq then n + 1 else 1
  | none => 1

theorem Pair.naks_eight {p : Pair} {seq : BitVec 12} (h : p.resent = some (seq, 7)) : p.naks seq = 8 := by simp [Pair.naks, h]

theorem Pair.naks_ne_eight {p : Pair} {seq : BitVec 12} (h : ∀ n, p.resent = some (seq, n) → n < 7) : p.naks seq ≠ 8 := by
  unfold Pair.naks
  split
  · next r n he =>
    split
    · next hr =>
      have := h n (hr ▸ he)
      omega
    · decide
  · decide

/-- The state once a NAK has been counted and its sender has gone back to the SEQ that it names. -/
def State.goesBack (s : State) (port : Nat) (seq : BitVec 12) : State :=
  let q := s.port port
  let p := s.pair (pairOf port)
  ((s.setPort port { q with replay := satInc q.replay, fault := setBit q.fault 0 true }).ev (srcOf 0x06 port) evLnkReplay port).setPair (pairOf port)
    { p with acked := seq, resent := if p.naks seq = 8 then none else some (seq, p.naks seq) }

theorem State.goesBack_port (s : State) (port : Nat) (seq : BitVec 12) :
    (s.goesBack port seq).port port = { s.port port with replay := satInc (s.port port).replay, fault := setBit (s.port port).fault 0 true } :=
  (State.ev_port ..).trans (State.setPort_port ..)

theorem State.goesBack_acked (s : State) (port : Nat) (seq : BitVec 12) : ((s.goesBack port seq).pair (pairOf port)).acked = seq :=
  congrArg Pair.acked (State.setPair_pair ..)

theorem State.Carries.resend (s : State) (k m : Nat) (b : Bool) : s.Carries ((if b then s.putFlits k m else s).pump k) := by
  cases b with
  | true => exact (State.Carries.putFlits ..).trans (State.Carries.pump ..)
  | false => exact State.Carries.pump ..

/-- A NAK: the port retrains at the eighth in succession, and what is resent goes out. -/
theorem State.nakReceived_carries {s : State} {port : Nat} (hin : (s.port port).inUse = true) (seq : BitVec 12) :
    (if (s.pair (pairOf port)).naks seq = 8 then (s.goesBack port seq).retrain port else s.goesBack port seq).Carries (s.nakReceived port seq) := by
  rw [State.nakReceived, if_neg (c := (!(s.port port).inUse) = true) (by simp [hin])]
  exact State.Carries.resend ..

theorem State.retrain_port (s : State) (port : Nat) :
    (s.retrain port).port port = { s.port port with state := 5, fault := setBit (s.port port).fault 1 true } := State.setPort_port ..

/-! ## Training in service (R291, R292) -/

theorem State.courseCheck_ports (s : State) (port : Nat) (was inj : Bool) : (s.courseCheck port was inj).ports = s.ports := by
  unfold State.courseCheck
  dsimp only
  split
  · exact (State.ev_links ..).1
  · rfl

theorem State.lostSlots_ports (s : State) (port : Nat) : (s.lostSlots port).ports = s.ports := by
  unfold State.lostSlots
  dsimp only
  split <;> rfl

/-- What follows a training leaves the port as the training left it. -/
theorem State.trained_end (s : State) (port : Nat) (was inj : Bool) (j : Nat) :
    let t := ((s.courseCheck port was inj).lostSlots port).pump (pairOf port)
    ((t.port j).state, (t.port j).width) = ((s.port j).state, (s.port j).width) := by
  have h := State.Carries.pump ((s.courseCheck port was inj).lostSlots port) (pairOf port)
  have hp : ((s.courseCheck port was inj).lostSlots port).port j = s.port j := by
    rw [State.port, State.lostSlots_ports, State.courseCheck_ports, State.port]
  dsimp only
  rw [h.state, h.width, hp]

theorem State.trained_outcome {s : State} (hu : s.Unarmed) (port : Nat) (r : Training) :
    ((s.trained port r).port port).state = (r.outcome port).1 ∧ ((s.trained port r).port port).width = (r.outcome port).2 := by
  rw [← Prod.mk.injEq]
  simp only [State.trained, State.injCheck_unarmed hu, State.trained_end, Bool.or_false, Bool.false_eq_true, if_false, Training.outcome]
  cases hp : r.partner with
  | false => simp [State.ev_port]
  | true =>
    by_cases h6 : 6 ≤ popCount 9 r.failed.toNat
    · simp [h6, State.ev_port]
    · by_cases hm : r.pport.val = matching port
      · by_cases h2 : 2 ≤ popCount 9 r.failed.toNat
        · simp [h6, hm, h2, State.ev_port]
        · by_cases h1 : popCount 9 r.failed.toNat = 1 <;> simp [h6, hm, h2, h1, State.ev_port]
      · simp [h6, hm, State.ev_port]

end Sys2Proof.Machine

/-! ## The obligation -/

open Sys2Proof Sys2Proof.Machine

/-- Settles O36: a flit, a NAK and a training each leave the port and its pair as one equation says, up to what sending moves (`State.Carries`). -/
theorem linkPorts : Obligations.LinkPorts := by
  unfold Obligations.LinkPorts
  intro s p hu
  refine ⟨fun hin => ⟨?_, ?_, ?_, ?_, ?_, ?_⟩, ?_⟩
  · -- the flit expected
    intro f hfec hcrc hfields hs hseq hnext
    have he := State.flitReceive_expected hu hin (by simp [Flit.good, hfec, hcrc, hfields]) hs hseq hnext
    refine ⟨_, congrArg Host.Outcome.next he, ?_, ?_, State.pump_objMem ..⟩
    · rw [(State.Carries.pump ..).expect, State.takeFlit_pair, State.setPair_pair, hseq]
      exact congrArg (· + 1) (Pair.ack_expect ..)
    · rw [(State.Carries.pump ..).nak, State.takeFlit_pair, State.setPair_pair]
  · -- a flit ahead of its turn
    intro f hfec hcrc hfields hs hseq hnak hwin hnew
    have he := State.flitReceive_early hu hin (by simp [Flit.good, hfec, hcrc, hfields]) hs hseq hnak hwin hnew
    refine ⟨_, congrArg Host.Outcome.next he, ?_, ?_⟩
    · rw [(State.Carries.pump ..).expect, State.setPair_pair, Pair.ack_expect]
    · rw [(State.Carries.pump ..).early, State.setPair_pair]
  · -- an invalid flit
    intro f hf
    have hbad : f.good = false := by
      rcases hf with hf | hf | hf | hf
      · simp [Flit.good, hf]
      · simp [Flit.good, hf]
      · simp [Flit.good, flitFields, Nat.not_le.2 hf]
      · simp only [Flit.good, flitFields, beq_eq_false_iff_ne.2 hf, Bool.and_false]
    refine ⟨_, congrArg Host.Outcome.next (State.flitReceive_invalid hu hin hbad), ?_, ?_, rfl⟩ <;> rw [State.setPair_pair]
  · -- a NAK that is not the eighth
    intro q hq
    have hc := State.nakReceived_carries hin q
    rw [if_neg (Pair.naks_ne_eight hq)] at hc
    exact ⟨_, rfl, by rw [hc.state, State.goesBack_port], by rw [hc.replay, State.goesBack_port], by rw [hc.acked, State.goesBack_acked]⟩
  · -- the eighth
    intro q hq
    have hc := State.nakReceived_carries hin q
    rw [if_pos (Pair.naks_eight hq)] at hc
    exact ⟨_, rfl, by rw [hc.state, State.retrain_port]⟩
  · -- loss of lock
    refine ⟨_, congrArg Host.Outcome.next (if_pos hin), ?_, ?_, rfl⟩ <;> rw [State.retrain_port]
    simp [setBit]
  · -- training
    intro r hst
    dsimp only
    obtain ⟨hstate, hwidth⟩ := State.trained_outcome hu p.val r
    refine ⟨_, congrArg Host.Outcome.next (if_pos hst), ?_, ?_, ?_, ?_, ?_⟩ <;> rw [hstate]
    · intro hp
      simp [Training.outcome, hp]
    · intro hp h6
      simp [Training.outcome, hp, h6]
    · intro hp h6 hm
      simp [Training.outcome, hp, Nat.not_le.2 h6, hm]
    · intro hp h2 h6 hm
      rw [hwidth]
      simp [Training.outcome, hp, Nat.not_le.2 h6, hm, h2]
    · intro hp h1 hm
      have h6 : ¬6 ≤ popCount 9 r.failed.toNat := by omega
      have h2 : ¬2 ≤ popCount 9 r.failed.toNat := by omega
      rw [hwidth]
      simp [Training.outcome, hp, h6, hm, h2]

end

section
/-! PROOF. What contexts that go on leave alone (R90 to R92, R315, R320, R379), the arch among it; the value that a signal leaves. -/

namespace Sys2Proof.Machine

/-! ## Contexts that go on -/

/-- `t` is `s` but for what scheduling and reports change: the contexts and the cores, completions and mason's entry in progress, and what an event changes. Beside
what `State.KeepsObjects` says, the arch and keystone are the same. -/
def State.GoesOn (s t : State) : Prop :=
  t = { s with
    ctxs := t.ctxs
    cores := t.cores
    slots := t.slots
    hostMem := t.hostMem
    ldg := t.ldg
    hif := t.hif
    arc := { s.arc with hold := t.arc.hold }
    msn := { s.msn with busy := t.msn.busy }
    gge := { s.gge with alert := t.gge.alert }
    pln := { s.pln with stopped := t.pln.stopped, noJob := t.pln.noJob } }

namespace State.GoesOn

variable {s t u : State}

theorem refl (s : State) : s.GoesOn s := rfl

theorem trans (h : s.GoesOn t) (k : t.GoesOn u) : s.GoesOn u := by
  unfold State.GoesOn at h k ⊢
  rw [k, h]

theorem of_reselected (h : s.Reselected t) : s.GoesOn t := by
  rw [h.1]
  rfl

theorem of_reports (h : s.Reports t) : s.GoesOn t := by
  rw [h]
  rfl

theorem of_logged (h : s.Logged t) : s.GoesOn t := by
  rw [h]
  rfl

/-- A fold of steps each of which lets contexts go on. -/
theorem foldl {α : Type} {f : State → α → State} (hf : ∀ (u : State) (a : α), u.GoesOn (f u a)) (l : List α) (s : State) : s.GoesOn (l.foldl f s) := by
  induction l generalizing s with
  | nil => exact refl s
  | cons a l ih => exact (hf s a).trans (ih _)

variable (h : s.GoesOn t)
include h

theorem keepsObjects : s.KeepsObjects t := by
  rw [h]
  exact ⟨rfl, rfl, rfl, rfl, rfl, rfl, rfl, rfl⟩

theorem kst : t.kst = s.kst := by rw [h]
theorem arc : t.arc = { s.arc with hold := t.arc.hold } := by rw [h]
theorem colls : t.arc.colls = s.arc.colls := by rw [h.arc]
theorem done : t.arc.done = s.arc.done := by rw [h.arc]
theorem outbox : t.arc.outbox = s.arc.outbox := by rw [h.arc]
theorem posted : t.arc.posted = s.arc.posted := by rw [h.arc]

end State.GoesOn

theorem State.setCtx_goesOn (s : State) (x : Nat) (c : Ctx) : s.GoesOn (s.setCtx x c) := rfl

theorem State.select_goesOn (s : State) (k : Nat) : s.GoesOn (s.select k) := .of_reselected (s.select_reselected k)

theorem State.leave_goesOn (s : State) (x : Nat) (c : Ctx) : s.GoesOn (s.leave x c) := (s.setCtx_goesOn x c).trans (State.select_goesOn ..)

theorem State.wake_goesOn (s : State) (x adv : Nat) : s.GoesOn (s.wake x adv) := by
  unfold State.wake
  dsimp only
  split
  · exact s.leave_goesOn ..
  · exact s.setCtx_goesOn ..

/-- A context that is released where a condition holds. -/
theorem State.wake_if_goesOn (s : State) (x adv : Nat) (p : Prop) [Decidable p] : s.GoesOn (if p then s.wake x adv else s) := by
  split
  · exact s.wake_goesOn ..
  · exact .refl s

theorem State.wakeOn_goesOn (s : State) (w : Wait) : s.GoesOn (s.wakeOn w) := .of_reselected (s.wakeOn_reselected w)

/-! ## Settlement with nothing to evaluate (R92, R270) -/

theorem State.waitHeld_goesOn (s : State) (x : Nat) : s.GoesOn (s.waitHeld x) := by
  unfold State.waitHeld
  split
  · exact s.leave_goesOn ..
  · exact .refl s

theorem State.parkCtx_goesOn (s : State) (x : Nat) : s.GoesOn (s.parkCtx x) := by
  unfold State.parkCtx
  split
  · exact s.waitHeld_goesOn x
  · exact s.wake_if_goesOn ..

theorem State.park_goesOn (s : State) : s.GoesOn s.park := .foldl State.parkCtx_goesOn _ s

theorem State.settle_nil_goesOn (s : State) : s.GoesOn (s.settle []) := by
  have hnil : s.settleN (s.settleFuel []) [] = s := by cases s.settleFuel [] <;> rfl
  have hfetch : s.GoesOn s.wakeFetch := .foldl (fun u _ => u.wake_if_goesOn ..) _ s
  rw [State.settle, hnil]
  exact hfetch.trans (State.park_goesOn _)

theorem State.NoneHeld.foldl_settleObj_goesOn {s : State} (h : s.NoneHeld) (l : List Nat) : s.GoesOn (l.foldl State.settleObj s) := by
  induction l generalizing s with
  | nil => exact .refl s
  | cons i l ih =>
    have hi : s.GoesOn (s.settleObj i) := by
      rw [State.settleObj, h.heldOn]
      exact s.settle_nil_goesOn
    exact hi.trans (ih (hi.keepsObjects.noneHeld h))

/-- The contexts held on the outcome of a step go on (R77). -/
theorem State.wakeOutcome_goesOn (s : State) : s.GoesOn s.wakeOutcome := s.park_goesOn.trans (.foldl (fun u _ => u.wake_if_goesOn ..) _ _)

/-! ## The end of a context's operation (R90, R92, R382) -/

theorem State.answer_goesOn (s : State) (r c status result : Nat) : s.GoesOn (s.answer r c status result) := .of_reports (State.answer_reports ..).1

theorem State.endStart_goesOn (s : State) (x status result : Nat) : s.GoesOn (s.endStart x status result) := .of_reports (State.endStart_reports ..).1

theorem State.endHeld_goesOn (s : State) (x : Nat) : s.GoesOn (s.endHeld x) := by
  unfold State.endHeld
  split
  · exact (((s.setCtx_goesOn ..).trans (.of_reports (State.showFault_reports ..))).trans (State.endStart_goesOn ..)).trans (State.select_goesOn ..)
  · exact ((s.setCtx_goesOn ..).trans (State.endStart_goesOn ..)).trans (State.select_goesOn ..)

theorem State.ctxGone_goesOn (s : State) (x : Nat) : s.GoesOn (s.ctxGone x) := by
  unfold State.ctxGone
  dsimp only
  split
  · exact .refl s
  · split
    · split
      · split
        · exact s.endHeld_goesOn x
        · exact s.setCtx_goesOn ..
      · exact .refl s
    · exact s.wake_if_goesOn ..
    · exact s.wake_goesOn ..
    · split
      · exact .refl s
      · exact s.wake_goesOn ..
    · exact .refl s

theorem State.preemptDone_goesOn (s : State) : s.GoesOn s.preemptDone := by
  unfold State.preemptDone
  split
  · split
    · have hbusy : s.GoesOn { s with msn := { s.msn with busy := none } } := rfl
      exact hbusy.trans (State.answer_goesOn ..)
    · exact .refl s
  · exact .refl s

theorem State.opGone_goesOn (s : State) (x : Nat) : s.GoesOn (s.opGone x) := (s.ctxGone_goesOn x).trans (State.preemptDone_goesOn _)

/-! ## Signals (R315, R320) -/

theorem State.release_goesOn (s : State) (c : Counter) : s.GoesOn (s.release c) :=
  .foldl (fun u _ => by
    split
    · split
      · exact u.wake_if_goesOn ..
      · exact .refl u
    · exact .refl u) _ s

/-- `t` is `s` but for what a signal changes: keystone's counters and registers, and contexts that go on. -/
def State.Signals (s t : State) : Prop := ({ s with kst := t.kst } : State).GoesOn t

namespace State.Signals

variable {s t u : State}

theorem refl (s : State) : s.Signals s := rfl

theorem of_goesOn (h : s.GoesOn t) : s.Signals t := by
  unfold State.Signals
  rw [h.kst]
  exact h

theorem trans (h : s.Signals t) (k : t.Signals u) : s.Signals u := by
  unfold State.Signals State.GoesOn at h k ⊢
  rw [k, h]

theorem kst (s : State) (k : Kst) : s.Signals { s with kst := k } := rfl

theorem putCounter (s : State) (c : Counter) (v : W32) (f : Bool) : s.Signals (s.putCounter c v f) := by
  cases c <;> rfl

theorem saturated (s : State) (c : Counter) (amt : Int) (inj : Bool) : s.Signals (s.saturated c amt inj) := by
  unfold State.saturated
  dsimp only
  split
  · exact (kst s _).trans (putCounter ..)
  · exact (((kst s _).trans (putCounter ..)).trans (kst ..)).trans (of_goesOn (.of_logged (State.ev_logged _ _ _ _ _ _ _ (by decide))))

theorem signal (s : State) (c : Counter) (amt : Int) : s.Signals (s.signal c amt) := by
  have hcheck := of_goesOn (.of_logged (s.injCheck_logged evKeySat (satSource c) (fun a => a == nameOf c)))
  unfold State.signal
  dsimp only
  refine Signals.trans ?_ (of_goesOn (State.release_goesOn ..))
  split
  · exact (hcheck.trans (putCounter ..)).trans (saturated ..)
  · exact hcheck.trans (putCounter ..)

theorem signalShort (s : State) (k : Nat) (sig : Option Nat) : s.Signals (s.signalShort k sig) := by
  unfold State.signalShort
  split
  · split
    · exact signal ..
    · exact refl s
  · exact refl s

variable (h : s.Signals t)
include h

theorem keepsObjects : s.KeepsObjects t := by
  rw [h]
  exact ⟨rfl, rfl, rfl, rfl, rfl, rfl, rfl, rfl⟩

theorem colls : t.arc.colls = s.arc.colls := GoesOn.colls (s := { s with kst := t.kst }) h
theorem done : t.arc.done = s.arc.done := GoesOn.done (s := { s with kst := t.kst }) h
theorem posted : t.arc.posted = s.arc.posted := GoesOn.posted (s := { s with kst := t.kst }) h

end State.Signals

/-! ## The value of a counter of the job or of the system -/

section
variable {c : Counter} (hc : ∀ x n, c ≠ .ctx x n)
include hc

theorem State.counter_of_kst {s t : State} (h : t.kst = s.kst) : t.counter c = s.counter c := by
  cases c with
  | ctx x n => exact absurd rfl (hc x n)
  | job j => rw [State.counter, h, State.counter]
  | sys j => rw [State.counter, h, State.counter]

theorem State.putCounter_counter (s : State) (v : W32) (f : Bool) : (s.putCounter c v f).counter c = v := by
  cases c with
  | ctx x n => exact absurd rfl (hc x n)
  | job j => exact Tab.get_set ..
  | sys j => exact Tab.get_set ..

/-- The registers of keystone beside its counters. -/
theorem State.counter_kst_registers (s : State) (sat fault : W32) :
    ({ s with kst := { s.kst with sat := sat, fault := fault } } : State).counter c = s.counter c := by
  cases c with
  | ctx x n => exact absurd rfl (hc x n)
  | job j => rfl
  | sys j => rfl

theorem State.saturated_counter (s : State) (amt : Int) (inj : Bool) : (s.saturated c amt inj).counter c = s.counter c := by
  have hput : (({ s with kst := { s.kst with sat := satInc s.kst.sat } } : State).putCounter c
      (({ s with kst := { s.kst with sat := satInc s.kst.sat } } : State).counter c) true).counter c = s.counter c :=
    (State.putCounter_counter hc ..).trans (s.counter_kst_registers hc _ s.kst.fault)
  unfold State.saturated
  dsimp only
  split
  · exact hput
  · rw [State.counter_of_kst hc (State.ev_logged _ _ _ _ _ _ _ (by decide)).kst]
    exact (State.counter_kst_registers hc _ _ _).trans hput

/-- A signal leaves the sum, saturated (R315). -/
theorem State.signal_counter (s : State) (amt : Int) : (s.signal c amt).counter c = (addSat (s.counter c) amt).1 := by
  have hcheck : (s.injCheck evKeySat (satSource c) (fun a => a == nameOf c)).2.counter c = s.counter c :=
    State.counter_of_kst hc (s.injCheck_logged ..).kst
  unfold State.signal
  dsimp only
  rw [State.counter_of_kst hc (State.release_goesOn ..).kst, hcheck]
  split
  · rw [State.saturated_counter hc, State.putCounter_counter hc]
  · rw [State.putCounter_counter hc]

end

end Sys2Proof.Machine
end

section
/-! PROOF. Messages of the arch (R297, R302, R306, R307, R309): their turn, sends and circulations, and the end of an operation of the arch. -/

namespace Sys2Proof.Machine

/-! ## What sending leaves of the arch (R296, R298) -/

theorem State.putFlits_arc (s : State) (k n : Nat) : (s.putFlits k n).arc = s.arc := by
  unfold State.putFlits
  dsimp only
  split
  · rfl
  · split <;> rfl

theorem State.pump_arc (s : State) (k : Nat) : (s.pump k).arc = s.arc := by
  obtain he | ⟨n, b, m, he⟩ := s.pump_cases k
  · rw [he]
  · rw [he, State.putFlits_arc]
    rfl

theorem State.countTx_arc (s : State) (c : Nat) (f : Bool) (n : Nat) : (s.countTx c f n).arc = s.arc := State.pump_arc ..

theorem State.link_colls (s : State) (m : Msg) (c : Nat) (f : Bool) : (s.link m c f).arc.colls = s.arc.colls := by
  unfold State.link
  dsimp only
  rw [State.countTx_arc]

theorem State.sendMsg_colls (s : State) (m : Msg) : (s.sendMsg m).arc.colls = s.arc.colls := by
  unfold State.sendMsg
  split
  · exact s.link_colls ..
  · rfl

theorem State.Sent.keepsObjects {s t : State} (h : s.Sent t) : s.KeepsObjects t := by
  rw [h.frame]
  exact ⟨rfl, rfl, rfl, rfl, rfl, rfl, rfl, rfl⟩

theorem State.Sent.done {s t : State} (h : s.Sent t) : t.arc.done = s.arc.done := by rw [h.frame]

/-- What an operation reached in a peer's footing crosses the links; the running collectives stay. -/
theorem State.peerTraffic_sent (s : State) (rs : List ObjRef) : s.Sent (s.peerTraffic rs) ∧ (s.peerTraffic rs).arc.colls = s.arc.colls := by
  induction rs generalizing s with
  | nil => exact ⟨.refl s, rfl⟩
  | cons r rs ih =>
    have hsend (m : Msg) : s.Sent ((s.sendMsg m).peerTraffic rs) ∧ ((s.sendMsg m).peerTraffic rs).arc.colls = s.arc.colls :=
      ⟨((State.Sent.refl s).sendMsg m).trans (ih _).1, (ih _).2.trans (s.sendMsg_colls m)⟩
    rw [State.peerTraffic, List.foldl_cons]
    dsimp only
    split
    · exact ih s
    · split <;> exact hsend _

/-! ## The end of an outbound operation (R97, R302) -/

theorem State.Signals.dropOp {s t : State} (h : s.Signals t) (id : Nat) : (s.dropOp id).Signals (t.dropOp id) := by
  rw [h]
  rfl

/-- An operation of a context that took no pin ends: what it sent to a peer goes out, it is no longer in flight, its signal is given, and contexts go on. -/
theorem State.finishOp_signals {s : State} {o : Op} (hx : ∃ x, o.src = .ctx x) (hp : o.pinned = []) (hr : s.NoRecompute) (hn : s.NoneHeld) :
    ((s.peerTraffic (s.refs o)).dropOp o.id).Signals (s.finishOp o) := by
  obtain ⟨x, hx⟩ := hx
  let u := s.peerTraffic (s.refs o)
  have hu : s.KeepsObjects u := (s.peerTraffic_sent _).1.keepsObjects
  have hgone := ((State.Signals.signalShort u o.core o.sig).dropOp o.id).trans (.of_goesOn (State.opGone_goesOn _ x))
  have hnone : (u.dropOp o.id).NoneHeld := hn.mono fun q hq => hu.ops ▸ (List.mem_filter.1 hq).1
  have hheld := hgone.trans (.of_goesOn ((hgone.keepsObjects.noneHeld hnone).foldl_settleObj_goesOn ((s.refs o).map (fun r => hIdx r.h)).eraseDups))
  have hrec := hheld.keepsObjects.noRecompute (s := u.dropOp o.id) (hu.noRecompute hr)
  have he : s.finishOp o = ((s.refs o).map (fun r => hIdx r.h)).eraseDups.foldl State.settleObj (((u.signalShort o.core o.sig).dropOp o.id).opGone x) := by
    rw [← State.settleRecomputes_none hrec]
    simp [State.finishOp, hx, hp, State.unpin, u]
  rw [he]
  exact hheld

/-- The kinds of the arch's operations that only signal and end when they are done (R302). -/
def LKind.arcSingle (k : LKind) : Bool := k ∈ [LKind.arcSend, .arcRecv, .arcCirc, .arcOvor]

namespace State.EndsOutbound

variable {s : State} {id : Nat} {o : Op} (h : s.EndsOutbound id o)
include h

theorem completable_arch (hk : o.kind.arcSingle = true ∨ o.kind.collective = true) : s.completable o = true ∧ s.endReads o = [] := by
  have hst := h.started
  cases hkind : o.kind <;> simp [hkind, LKind.arcSingle, LKind.collective, State.completable, State.endReads, hst] at hk ⊢

theorem longOpComplete_single (hk : o.kind.arcSingle = true) : s.longOpComplete id [] = (s.finishOp o).settle [] := by
  obtain ⟨hc, hr⟩ := h.completable_arch (.inl hk)
  simp only [State.longOpComplete, h.found, hc, h.unit, hr, State.detect_nil h.unarmed, h.reached]
  cases hkind : o.kind <;> simp [hkind, LKind.arcSingle] at hk ⊢

theorem longOpComplete_collective (hk : o.kind.collective = true) : s.longOpComplete id [] = ((s.endColl o).finishOp o).settle [] := by
  obtain ⟨hc, hr⟩ := h.completable_arch (.inr hk)
  simp only [State.longOpComplete, h.found, hc, h.unit, hr, State.detect_nil h.unarmed, h.reached]
  cases hkind : o.kind <;> simp [hkind, LKind.collective] at hk ⊢

/-- The end of an operation that took no pin, after what its kind changes of the arch. -/
theorem finishOp_settle (hp : o.pinned = []) (a : Arc) :
    let u : State := { s with arc := a }
    ((u.peerTraffic (u.refs o)).dropOp id).Signals ((u.finishOp o).settle []) := by
  have hend := State.finishOp_signals (s := { s with arc := a }) h.ctx hp h.quiet.recompute h.none
  rw [h.number] at hend
  exact hend.trans (.of_goesOn (State.settle_nil_goesOn _))

end State.EndsOutbound

/-! ## Arrivals in their turn (R297) -/

theorem State.Arrives.arriveIn {s : State} {m : Msg} (h : s.Arrives m) (f : State → State × Bool) :
    s.arriveIn m f = if (f s).2 then (f s).1 else (f s).1.waitIn m := by
  rw [State.arriveIn, State.arrive, if_neg (by simp [h.epoch]), if_neg (by simp [h.dst]), if_neg (by simp [h.inOrder])]

/-- A message that comes behind one of its source and channel waits with it. -/
theorem State.arriveIn_behind {s : State} {m : Msg} (he : m.epoch = s.kst.epoch) (hd : m.dst = s.arc.node)
    (hq : s.arc.heldIn.any (fun q => q.src == m.src && msgVc q == msgVc m) = true) (f : State → State × Bool) : s.arriveIn m f = s.waitIn m := by
  rw [State.arriveIn, State.arrive, if_neg (by simp [he]), if_neg (by simp [hd]), if_pos hq]

theorem State.Arrives.arriveIn_taken {s t : State} {m : Msg} (h : s.Arrives m) {f : State → State × Bool} (hf : f s = (t, true)) : s.arriveIn m f = t := by
  rw [h.arriveIn, hf]
  rfl

theorem State.Arrives.arriveIn_waits {s : State} {m : Msg} (h : s.Arrives m) {f : State → State × Bool} (hf : f s = (s, false)) :
    s.arriveIn m f = s.waitIn m := by
  rw [h.arriveIn, hf]
  rfl

/-! ## The signal behind a message's data (R297, R314) -/

/-- Another module signals no context counter. -/
theorem shortName_ne_ctx {k n : Nat} {c : Counter} (hn : 0x100 ≤ n) (h : shortName k n = some c) (x : Fin 512) (j : Fin 32) : c ≠ .ctx x j := by
  rintro rfl
  rw [shortName, if_neg (Nat.not_lt.2 hn)] at h
  split at h
  · cases h
  · split at h <;> cases h

theorem State.msgSignal_signals (s : State) (m : Msg) : s.Signals (s.msgSignal m) := by
  unfold State.msgSignal
  split
  · split
    · exact .refl s
    · exact .signalShort ..
  · exact .refl s

theorem State.msgSignal_counter {s : State} {m : Msg} {n : BitVec 12} {c : Counter} (hm : m.ctr = some n) (hn : 0x100 ≤ n.toNat)
    (hc : shortName 0 n.toNat = some c) : (s.msgSignal m).counter c = (addSat (s.counter c) 1).1 := by
  have he : s.msgSignal m = s.signal c 1 := by
    simp only [State.msgSignal, hm, if_neg (Nat.not_lt.2 hn), State.signalShort, hc]
  rw [he, State.signal_counter (shortName_ne_ctx hn hc)]

/-! ## Sends and circulations (R302, R306, R307, R309) -/

/-- The receive has its data and runs; it is no longer posted. -/
def State.recvFilled (s : State) (m : Msg) (o : Op) : State :=
  let t := s.objWrite (hIdx o.arcDst) o.arcDoff m.data
  { t.setOp { o with st := .started } with arc := { t.arc with posted := t.arc.posted.filter (fun i => i != o.id) } }

section
variable {s : State} {m : Msg} (hu : s.Unarmed)
include hu

theorem State.sendArrived_recv {o : Op} (hr : s.recvFor m = some o) (hl : m.len = o.arcLen) (hn : s.arcRunning (s.arcUnit o) < 64)
    (ha : (s.refs o).all (s.reaches o.src) = true) :
    s.sendArrived m = (((((s.recvFilled m o).msgSignal m).complete m).wakeOn .recvLimit), true) := by
  simp only [State.sendArrived, s.injArmed_unarmed _ _ _ hu, hr, hl, if_neg (Nat.not_le.2 hn), ha, Bool.false_eq_true, if_false, ne_eq,
    not_true, if_true]
  rfl

theorem State.sendArrived_crowded {o : Op} (hr : s.recvFor m = some o) (hl : m.len = o.arcLen) (hn : 64 ≤ s.arcRunning (s.arcUnit o)) :
    s.sendArrived m = (s, false) := by
  simp [State.sendArrived, s.injArmed_unarmed _ _ _ hu, hr, hl, hn]

theorem State.sendArrived_noRecv (hr : s.recvFor m = none) : s.sendArrived m = (s.noRecv m.course.val, true) := by
  simp [State.sendArrived, s.injArmed_unarmed _ _ _ hu, hr]

theorem State.circArrived_target (ht : s.circTarget m = true) :
    s.circArrived m = if s.reaches (.ring 0 0 0 0) { h := m.tag.toNat, lo := m.off, n := m.data.length, wr := true } = true then
      (((s.objWrite (hIdx m.tag.toNat) m.off m.data).msgSignal m).complete m, true) else (s, false) := by
  simp only [State.circArrived, s.injArmed_unarmed _ _ _ hu, ht]
  rfl

end

theorem State.noRecv_spec (s : State) (c : Nat) :
    (s.noRecv c).objMem = s.objMem ∧ (s.noRecv c).arc.fault.getLsbD 0 = true ∧ (s.noRecv c).arc.posted = s.arc.posted := by
  have h := State.GoesOn.of_logged
    (({ s with arc := { s.arc with fault := setBit s.arc.fault 0 true } } : State).ev_logged (srcOf 0x07 c) evArcNorecv 0 0 [] false (by decide))
  refine ⟨h.keepsObjects.objMem, ?_, h.posted⟩
  rw [State.noRecv, h.arc]
  simp [setBit]

end Sys2Proof.Machine

/-! ## The obligation -/

open Sys2Proof Sys2Proof.Machine

/-- Settles O38: a message in its turn is handled by its kind's equation; its signal, its completion and the contexts that go on leave the objects and the
posted receives alone (`State.Signals`, `State.Sent`, `State.GoesOn`). -/
theorem sendsArrive : Obligations.SendsArrive := by
  unfold Obligations.SendsArrive
  intro s m hm
  refine ⟨?_, ?_, ?_, ?_, ?_, ?_, ?_⟩
  · -- a send with a receive
    intro o hr hl hn ha
    let u := s.recvFilled m o
    have hsig := u.msgSignal_signals m
    have hsent := (State.Sent.refl (u.msgSignal m)).complete m false
    have hwake := ((u.msgSignal m).complete m).wakeOn_goesOn .recvLimit
    have hkeep := (hsig.keepsObjects.trans hsent.keepsObjects).trans hwake.keepsObjects
    have hkst := hwake.kst.trans hsent.kst
    refine ⟨_, congrArg Host.Outcome.next (hm.arriveIn_taken (State.sendArrived_recv hm.unarmed hr hl hn ha)), hkeep.objMem, ?_, hkeep.nsb, ?_, ?_⟩
    · rw [hwake.posted, hsent.posted, hsig.posted]
      simp [u, State.recvFilled]
    · intro hc
      rw [hkst, State.msgSignal, hc]
      rfl
    · intro n c hc hn hname
      rw [State.counter_of_kst (shortName_ne_ctx hn hname) hkst, State.msgSignal_counter hc hn hname]
      rw [State.counter_of_kst (shortName_ne_ctx hn hname) (t := s.recvFilled m o) (s := s) rfl]
  · -- a send for which 64 operations run
    intro o hr hl hn
    exact congrArg Host.Outcome.next (hm.arriveIn_waits (State.sendArrived_crowded hm.unarmed hr hl hn))
  · -- a send without a receive
    intro hr
    exact ⟨_, congrArg Host.Outcome.next (hm.arriveIn_taken (State.sendArrived_noRecv hm.unarmed hr)), s.noRecv_spec _⟩
  · -- a circulation
    intro ht ha
    have he := State.circArrived_target hm.unarmed ht
    rw [if_pos ha] at he
    let u := s.objWrite (hIdx m.tag.toNat) m.off m.data
    have hsig := u.msgSignal_signals m
    have hsent := (State.Sent.refl (u.msgSignal m)).complete m false
    have hkeep := hsig.keepsObjects.trans hsent.keepsObjects
    exact ⟨_, congrArg Host.Outcome.next (hm.arriveIn_taken he), hkeep.objMem, hsent.posted.trans hsig.posted, hkeep.nsb⟩
  · -- a circulation whose object is held
    intro ht ha
    have he := State.circArrived_target hm.unarmed ht
    rw [if_neg (by simp [ha])] at he
    exact congrArg Host.Outcome.next (hm.arriveIn_waits he)
  · -- what comes behind
    intro p he hd hq
    exact ⟨congrArg Host.Outcome.next (State.arriveIn_behind he hd hq _), congrArg Host.Outcome.next (State.arriveIn_behind he hd hq _)⟩
  · -- the end of an operation
    intro id o h hk hp
    have hsingle : o.kind.arcSingle = true := decide_eq_true hk
    have hend := (h.finishOp_settle hp s.arc).keepsObjects
    have hsent := (s.peerTraffic_sent (s.refs o)).1.keepsObjects
    refine ⟨_, congrArg Host.Outcome.next (h.longOpComplete_single hsingle), ?_, hend.objMem.trans hsent.objMem, hend.spad.trans hsent.spad,
      hend.acc.trans hsent.acc, hend.nsb.trans hsent.nsb⟩
    exact (hend.findOp id).trans (State.findOp_dropOp ..)

end

section
/-! PROOF. Collectives (R302 to R305): the end of one, a partial at the owner of its chunk and on its way, and a gathered half. -/

namespace Sys2Proof.Machine

/-! ## The end of a collective (R302, R313) -/

theorem State.endColl_coll (s : State) (o : Op) : (s.endColl o).arc.coll o.arcCourse = none := by
  simp [Arc.coll, State.endColl]

theorem Arc.coll_congr {a b : Arc} (h : a.colls = b.colls) (c : Nat) : a.coll c = b.coll c := by rw [Arc.coll, h, Arc.coll]

/-! ## Messages of a running collective (R302, R303) -/

theorem State.badIn_of_bad_nil {s : State} (h : s.bad = []) (rs : List ObjRef) : s.badIn rs = none := by rw [State.badIn, h]; rfl

/-- Message `m` is of the collective `o` that runs here, whose objects are within reach and sound. -/
structure State.Matches (s : State) (m : Msg) (q : Coll) (o : Op) : Prop where
  coll : s.arc.coll m.course = some q
  number : q.k = m.tag.toNat
  found : s.findOp q.op = some o
  fits : collMatches o m = true
  reached : (s.refs o).all (s.reaches o.src) = true
  sound : s.bad = []

/-- The collective `o` has taken the half that `m` carries, as state `t`: it is acknowledged, and `o` may be done. -/
def State.tookHalf (t : State) (m : Msg) : State := ((t.complete m).collCheck m.course).settle []

/-- Such a message is taken. -/
theorem State.Arrives.collArrived {s : State} {m : Msg} {q : Coll} {o : Op} (ha : s.Arrives m) (h : s.Matches m q o) (rs : Op → List ObjRef)
    (take : State → Op → State) : s.arriveIn m (fun s => s.collArrived m rs [] take) = (take s o).tookHalf m := by
  refine ha.arriveIn_taken ?_
  simp only [State.collArrived, s.injArmed_unarmed _ _ _ ha.unarmed, h.coll, h.number, h.found, h.fits, h.reached,
    s.detect_nothing _ _ _ ha.unarmed (State.badIn_of_bad_nil h.sound _), Bool.false_eq_true, if_false, ne_eq, not_true, Bool.not_true]
  rfl

/-- What follows leaves the objects' bytes and the numeric state, and what went out has gone out. -/
theorem State.tookHalf_spec (t : State) (m : Msg) :
    (t.tookHalf m).objMem = t.objMem ∧ (t.tookHalf m).nsb = t.nsb ∧ ∀ p ∈ t.arc.outbox, p ∈ (t.tookHalf m).arc.outbox := by
  have hsent := (State.Sent.refl t).complete m false
  have hcheck (u : State) : (u.collCheck m.course).objMem = u.objMem ∧ (u.collCheck m.course).nsb = u.nsb ∧ (u.collCheck m.course).arc = u.arc := by
    unfold State.collCheck
    split
    · exact ⟨rfl, rfl, rfl⟩
    · split
      · split <;> exact ⟨rfl, rfl, rfl⟩
      · exact ⟨rfl, rfl, rfl⟩
  obtain ⟨hmem, hnsb, harc⟩ := hcheck (t.complete m)
  have hend := ((t.complete m).collCheck m.course).settle_nil_goesOn
  refine ⟨hend.keepsObjects.objMem.trans (hmem.trans hsent.objMem), hend.keepsObjects.nsb.trans (hnsb.trans hsent.nsb), fun p hp => ?_⟩
  rw [State.tookHalf, hend.outbox, harc]
  exact hsent.grows p hp

/-! ## Halves (R304, R305) -/

/-- Without a tensor of its own, a result's half is written at its chunk's place. -/
theorem State.writeHalf_bytes {s : State} {o : Op} (h : o.tds = []) (j : Nat) (second : Bool) (data : List Byte) :
    s.writeHalf o j second data = s.objWrite (hIdx o.arcDst) (o.arcDoff + (if o.kind = .arcRscat then 0 else j * (if o.kind = .arcAgath then o.arcLen else o.resLen))
      + (if second then (if o.kind = .arcAgath then o.arcLen else o.resLen) / 2 else 0)) data := by
  rw [State.writeHalf, h]

theorem halfBytes_bytes {o : Op} (h : o.tds = []) (vs : List W32) : halfBytes o vs = (bytesOf vs, false) := by
  rw [halfBytes, h]

/-- This module's terms added to a partial (R304), as bytes. -/
def State.partialSum (s : State) (o : Op) (m : Msg) : List Byte := bytesOf ((wordsOf m.data).zipWith (fadd32 .rne) (s.ownTerms o m.chunk (!m.following)))

/-- The owner of a chunk writes its half into the result of ARC.RSCAT. -/
theorem State.takePartial_owner {s : State} {o : Op} {m : Msg} (hk : o.kind = .arcRscat) (ht : o.tds = []) (hc : m.chunk = s.arc.at o.arcCourse) :
    (s.takePartial o m).nsb = s.nsb ∧ (s.takePartial o m).objMem
      = Mem.write s.objMem (objKey (hIdx o.arcDst) (o.arcDoff + if m.following then 0 else o.resLen / 2)) (s.partialSum o m) := by
  let w := s.writeHalf o (s.arc.at o.arcCourse) (!m.following) (s.partialSum o m)
  have hsent : State.Sent { w with overflow := s.overflow || false } (s.takePartial o m) := by
    rw [State.takePartial, if_pos hc, State.finalHalf, halfBytes_bytes ht]
    simp only [hk, reduceCtorEq, if_false]
    split
    · exact (State.Sent.refl _).setColl ..
    · exact .refl _
  have hw : w = s.objWrite (hIdx o.arcDst) (o.arcDoff + if m.following then 0 else o.resLen / 2) (s.partialSum o m) := by
    cases hf : m.following <;> simp [w, State.writeHalf_bytes ht, hk, hf]
  rw [hsent.nsb, hsent.objMem]
  dsimp only
  rw [hw]
  exact ⟨rfl, rfl⟩

theorem State.takePartial_forward {s : State} {o : Op} {m : Msg} (hc : m.chunk ≠ s.arc.at o.arcCourse) :
    s.takePartial o m = s.sendHalf o 2 m.chunk (m.hop + 1) m.following (s.partialSum o m) := if_neg hc

/-- A half goes out with its chunk, its count of links and its bytes. -/
theorem State.sendHalf_mem (s : State) (o : Op) (kind chunk hop : Nat) (following : Bool) (data : List Byte) :
    ∃ p ∈ (s.sendHalf o kind chunk hop following data).arc.outbox, p.kind = kind ∧ p.chunk = chunk ∧ p.hop = hop ∧ p.data = data :=
  ⟨_, State.link_mem .., rfl, rfl, rfl, rfl⟩

/-- A gathered half is written at its chunk's place. -/
theorem State.takeGather_writes {s : State} {o : Op} {m : Msg} (hk : o.kind = .arcAgath) (ht : o.tds = []) :
    (s.takeGather o m).nsb = s.nsb ∧ (s.takeGather o m).objMem
      = Mem.write s.objMem (objKey (hIdx o.arcDst) (o.arcDoff + m.chunk * o.arcLen + if m.following then 0 else o.arcLen / 2)) m.data := by
  let w := s.writeHalf o m.chunk (!m.following) m.data
  have hgather : w.Sent (w.gather o.arcCourse m.chunk m.following) := (State.Sent.refl w).gather ..
  have hsent : w.Sent (s.takeGather o m) := by
    unfold State.takeGather
    dsimp only
    split
    · exact hgather.sendHalf ..
    · exact hgather
  have hw : w = s.objWrite (hIdx o.arcDst) (o.arcDoff + m.chunk * o.arcLen + if m.following then 0 else o.arcLen / 2) m.data := by
    cases hf : m.following <;> simp [w, State.writeHalf_bytes ht, hk, hf]
  rw [hsent.nsb, hsent.objMem, hw]
  exact ⟨rfl, rfl⟩

end Sys2Proof.Machine

/-! ## The obligation -/

open Sys2Proof Sys2Proof.Machine

/-- Settles O39: the end of a collective frees its course before the common end of an operation (`State.EndsOutbound.finishOp_settle`); a message of a running
collective is taken by its kind's equation, and what follows leaves the objects' bytes and what went out alone (`State.tookHalf_spec`). -/
theorem collectivesArrive : Obligations.CollectivesArrive := by
  unfold Obligations.CollectivesArrive
  refine ⟨?_, ?_⟩
  · intro s id o h hk hp
    have hend := h.finishOp_settle hp (s.endColl o).arc
    obtain ⟨hsent, hcolls⟩ := (s.endColl o).peerTraffic_sent ((s.endColl o).refs o)
    exact ⟨_, congrArg Host.Outcome.next (h.longOpComplete_collective hk), (hend.keepsObjects.findOp id).trans (State.findOp_dropOp ..),
      (Arc.coll_congr (hend.colls.trans hcolls) _).trans (s.endColl_coll o), hend.done.trans hsent.done, hend.keepsObjects.objMem.trans hsent.objMem,
      hend.keepsObjects.nsb.trans hsent.nsb⟩
  · intro s m q o ha hcoll hnum hfound hfits htds hreach hbad
    have h : s.Matches m q o := ⟨hcoll, hnum, hfound, hfits, hreach, hbad⟩
    refine ⟨fun hk hc => ?_, fun hc => ?_, fun hk => ?_⟩
    · -- the owner of the chunk
      obtain ⟨hmem, hnsb, -⟩ := (s.takePartial o m).tookHalf_spec m
      obtain ⟨hnsb', hmem'⟩ := State.takePartial_owner hk htds hc
      exact ⟨_, congrArg Host.Outcome.next (ha.collArrived h ..), hnsb.trans hnsb', hmem.trans hmem'⟩
    · -- a module on the way
      obtain ⟨hmem, hnsb, hout⟩ := (s.takePartial o m).tookHalf_spec m
      have hsent := (State.Sent.refl s).sendHalf o 2 m.chunk (m.hop + 1) m.following (s.partialSum o m)
      obtain ⟨p, hp, hfields⟩ := s.sendHalf_mem o 2 m.chunk (m.hop + 1) m.following (s.partialSum o m)
      rw [← State.takePartial_forward hc] at hsent hp
      exact ⟨_, congrArg Host.Outcome.next (ha.collArrived h ..), hmem.trans hsent.objMem, hnsb.trans hsent.nsb, p, hout p hp, hfields⟩
    · -- a gathered half
      obtain ⟨hmem, hnsb, -⟩ := (s.takeGather o m).tookHalf_spec m
      obtain ⟨hnsb', hmem'⟩ := State.takeGather_writes (m := m) hk htds
      exact ⟨_, congrArg Host.Outcome.next (ha.collArrived h ..), hnsb.trans hnsb', hmem.trans hmem'⟩

end

section
/-! PROOF. The overflow OR (R66, R77, R308): a contribution that is kept, and the delivery. -/

namespace Sys2Proof.Machine

/-- A contribution kept for member `pos` of course `c`. -/
def State.keepOr (s : State) (c pos : Nat) (v : Bool) : State := { s with arc := { s.arc with orGot := s.arc.orGot ++ [(c, pos, v)] } }

/-- The first contribution of another member is kept; what follows is sent. -/
theorem State.orTake_sent {s : State} {m : Msg} (hp : s.arc.posOf m.src.toNat m.course ≠ s.arc.at m.course)
    (hg : ∀ g ∈ s.arc.orGot, ¬(g.1 = m.course.val ∧ g.2.1 = s.arc.posOf m.src.toNat m.course)) :
    (s.keepOr m.course (s.arc.posOf m.src.toNat m.course) (m.data.any (fun b => b != 0))).Sent (s.orTake m) := by
  have hseen : (s.arc.orGot.any (fun g => g.1 == m.course.val && g.2.1 == s.arc.posOf m.src.toNat m.course)
      || s.arc.posOf m.src.toNat m.course == s.arc.at m.course) = false := by
    rw [Bool.or_eq_false_iff]
    exact ⟨List.any_eq_false.2 fun g h => by simpa using hg g h, beq_eq_false_iff_ne.2 hp⟩
  have hkept := State.Sent.refl (s.keepOr m.course (s.arc.posOf m.src.toNat m.course) (m.data.any (fun b => b != 0)))
  unfold State.orTake
  simp only [hseen, Bool.false_eq_true, if_false]
  split
  · split
    · exact (hkept.link ..).orAdvance ..
    · exact hkept.link ..
  · split
    · exact hkept.orAdvance ..
    · exact hkept

/-- A contribution of the step in force, with no point armed, is taken. -/
theorem State.Arrives.orArrived {s : State} {m : Msg} (h : s.Arrives m) (hs : m.tag = s.nsb.step.setWidth 32) :
    s.arriveIn m (fun s => (s.orArrived m, true)) = s.orTake m := by
  refine h.arriveIn_taken (Prod.ext ?_ rfl)
  simp [State.orArrived, s.injArmed_unarmed _ _ _ h.unarmed, State.orArrive, hs]

/-- What is done to the operations besides does not depend on it. -/
theorem State.GoesOn.mapOps {s t : State} (h : s.GoesOn t) (f : Op → Op) : ({ s with ops := s.ops.map f } : State).GoesOn { t with ops := t.ops.map f } := by
  rw [h]
  rfl

/-- The OR and the outcome of the step are written (R77, R313). -/
def State.orOutcome (s : State) : State :=
  { s with arc := { s.arc with delivered := true, result := s.arc.orValue 4 }, nsb := { s.nsb with outcome := if s.arc.orValue 4 then 2 else 1 } }

/-- The delivery (R68, R77): the outcome is written; then STEP_OVERFLOW of a set OR is recorded, the operations that waited are done, and contexts go on. -/
theorem State.orDeliver_goesOn {s : State} (hr : s.orReady = true) (ho : s.nsb.outcome = 0) :
    ({ s.orOutcome with ops := s.ops.map Op.orDone } : State).GoesOn s.orDeliver := by
  let u := if s.arc.orValue 4 then s.orOutcome.ev (srcOf 0x09 3) evStepOverflow s.nsb.step.toNat else s.orOutcome
  have hev : s.orOutcome.GoesOn u := by
    unfold u
    split
    · exact .of_logged (State.ev_logged _ _ _ _ _ _ _ (by decide))
    · exact .refl _
  have he : s.orDeliver = ({ u with ops := u.ops.map Op.orDone } : State).wakeOutcome := by
    simp [State.orDeliver, hr, ho, u, State.orOutcome]
  rw [he]
  exact (hev.mapOps Op.orDone).trans (State.wakeOutcome_goesOn _)

end Sys2Proof.Machine

/-! ## The obligation -/

open Sys2Proof Sys2Proof.Machine

/-- Settles O40: a contribution that is kept is followed by what is sent (`State.orTake_sent`), and a delivery by contexts that go on (`State.orDeliver_goesOn`). -/
theorem overflowOr : Obligations.OverflowOr := by
  unfold Obligations.OverflowOr
  intro s
  refine ⟨fun m hm hs hp hg => ?_, fun hr ho => ?_⟩
  · have hsent := State.orTake_sent hp hg
    exact ⟨_, congrArg Host.Outcome.next (hm.orArrived hs), hsent.nsb, hsent.orGot⟩
  · have h := State.orDeliver_goesOn hr ho
    have hkeep := h.keepsObjects
    exact ⟨_, rfl, hkeep.nsb, congrArg Arc.delivered h.arc, congrArg Arc.result h.arc, hkeep.objMem, hkeep.spad⟩

end

section
/-! PROOF. Messages that are discarded or forwarded (R296, R326), and remote signals, completions and a peer's accesses (R264, R267, R302, R325). -/

namespace Sys2Proof.Machine

/-! ## What is common to every arriving message (R296, R326) -/

section
variable {s : State} {m : Msg} (f : State → State)

theorem State.arrive_discards (he : m.epoch ≠ s.kst.epoch) : s.arrive m f = { s with kst := { s.kst with discard := satInc s.kst.discard } } := if_pos he

theorem State.arrive_forwards (he : m.epoch = s.kst.epoch) (hd : m.dst ≠ s.arc.node) : s.arrive m f = s.sendMsg m := by
  rw [State.arrive, if_neg (not_not.2 he), if_pos hd]

theorem State.Arrives.arrive (h : s.Arrives m) : s.arrive m f = f s := by
  rw [State.arrive, if_neg (not_not.2 h.epoch), if_neg (not_not.2 h.dst)]

end

/-- The commands by which a message reaches this module. -/
def arrivals (m : Msg) (ds : List Detect) : List Instr :=
  [.sendArrival m, .circulationArrival m, .reductionPartialArrival ⟨m, ds⟩, .gatherArrival m, .orContributionArrival m, .remoteSignalArrival m,
    .completionArrival m, .peerReadRequest ⟨m, ds⟩, .peerData m]

/-- Each differs from the others only in what it does with a message for this module. -/
theorem exec_arrivals (s : State) (m : Msg) (ds : List Detect) : ∀ c ∈ arrivals m ds, ∃ f, exec c s = .next (s.arrive m f) := by
  simp only [arrivals, List.forall_mem_cons, List.not_mem_nil, false_imp_iff, implies_true, and_true]
  and_intros <;> exact ⟨_, rfl⟩

/-! ## Remote signals and completions (R302, R325) -/

/-- A remote signal on a counter of the job or of the system is applied, and its completion goes back. -/
theorem State.remoteSignal_counted {s : State} {m : Msg} {c : Counter} (hn : fullName 0 (leAt m.data 0 2) = some c) (hc : ∀ x n, c ≠ .ctx x n) :
    s.remoteSignal m = (s.signal c (Machine.signed 32 (leAt m.data 4 4))).complete m := by
  rw [State.remoteSignal, hn]
  cases c with
  | ctx x n => exact absurd rfl (hc x n)
  | job j => rfl
  | sys j => rfl

theorem State.completed_signal {s : State} {m : Msg} (h : m.coll = 5) :
    s.completed m = ({ s with kst := { s.kst with out := s.kst.out - 1 } } : State).wakeOn .remoteLimit := if_pos h

theorem State.completed_send {s : State} {m : Msg} {o : Op} (h : m.coll = 0) (ho : s.findOp m.op = some o) (hk : o.kind = .arcSend) (hst : o.st = .remote) :
    s.completed m = s.setOp { o with st := .started } := by
  simp [State.completed, h, ho, hk, hst]

/-! ## The accesses of the peer that owns an object hosted here (R264, R267) -/

/-- The data that answers the owner's read `m`. -/
def State.peerAnswer (s : State) (m : Msg) : Msg :=
  { s.newMsg m.src.toNat 7 with tag := m.tag, off := m.off, len := m.len, op := m.op, data := s.objRead (hIdx m.tag.toNat) m.off m.len }

theorem State.peerRead_owner {s : State} {m : Msg} (hu : s.Unarmed) (ho : s.ownerOf m m.len = true) (hb : s.bad = [])
    (hr : s.reaches (.ring 0 0 0 0) { h := m.tag.toNat, lo := m.off, n := m.len, wr := false } = true) :
    s.peerRead m [] = ((s.sendMsg (s.peerAnswer m)).settle [], true) := by
  simp only [State.peerRead, ho, hr, s.detect_nothing _ _ _ hu (State.badIn_of_bad_nil hb _), Bool.not_true, Bool.false_eq_true, if_false, if_true]
  rfl

theorem State.peerWrite_owner {s : State} {m : Msg} (ho : s.ownerOf m m.data.length = true) :
    s.peerWrite m = if s.reaches (.ring 0 0 0 0) { h := m.tag.toNat, lo := m.off, n := m.data.length, wr := true } = true then
      ((s.objWrite (hIdx m.tag.toNat) m.off m.data).complete m, true) else (s, false) := by
  rw [State.peerWrite, if_pos ho]

/-- What is sent towards a node that a link leads to goes out with its kind, destination, operation and data. -/
theorem State.sendMsg_mem {s : State} {m : Msg} (h : (s.arc.route m.dst.toNat).isSome = true) :
    ∃ p ∈ (s.sendMsg m).arc.outbox, p.kind = m.kind ∧ p.dst = m.dst ∧ p.op = m.op ∧ p.data = m.data := by
  obtain ⟨⟨d, f⟩, hroute⟩ := Option.isSome_iff_exists.1 h
  rw [State.sendMsg, hroute]
  exact ⟨_, s.link_mem m d f, rfl, rfl, rfl, rfl⟩

/-! ## Markers of a new epoch (R326) -/

/-- The markers after one of `epoch` from a neighbour on a channel. -/
def Kst.noted (k : Kst) (p : Fin 8) (v : Fin 4) (e : BitVec 8) : List (Nat × Nat × Nat) :=
  if (p.val, v.val, e.toNat) ∈ k.markers then k.markers else k.markers ++ [(p.val, v.val, e.toNat)]

theorem Kst.mem_noted (k : Kst) (p : Fin 8) (v : Fin 4) (e : BitVec 8) : (p.val, v.val, e.toNat) ∈ k.noted p v e := by
  unfold Kst.noted
  split
  · assumption
  · exact List.mem_append_right _ List.mem_cons_self

end Sys2Proof.Machine

/-! ## The obligations -/

open Sys2Proof Sys2Proof.Machine

/-- Settles O37: each of the commands begins with the checks of the epoch and of the destination (`exec_arrivals`). -/
theorem messagesElsewhere : Obligations.MessagesElsewhere := by
  unfold Obligations.MessagesElsewhere
  intro s m c ds hc
  obtain ⟨f, hf⟩ := exec_arrivals s m ds c hc
  rw [hf]
  exact ⟨fun he => congrArg Host.Outcome.next (State.arrive_discards f he), fun he hd => congrArg Host.Outcome.next (State.arrive_forwards f he hd)⟩

/-- Settles O41: each kind of message has its equation; what is sent and the contexts that go on leave objects, operations and counters alone (`State.Sent`,
`State.GoesOn`). -/
theorem messagesAnswered : Obligations.MessagesAnswered := by
  unfold Obligations.MessagesAnswered
  intro s
  refine ⟨?_, ?_, ?_, ?_, ?_⟩
  · -- a remote signal
    intro m c hm hn hc
    have hsent := (State.Sent.refl (s.signal c (signed 32 (leAt m.data 4 4)))).complete m false
    have hkeep := (s.signal_keepsObjects c (signed 32 (leAt m.data 4 4))).trans hsent.keepsObjects
    refine ⟨_, congrArg Host.Outcome.next ((hm.arrive _).trans (State.remoteSignal_counted hn hc)), ?_, hkeep.objMem, hkeep.nsb⟩
    rw [State.counter_of_kst hc hsent.kst, State.signal_counter hc]
  · -- the completion of a remote signal
    intro m hm h5
    have hgo := State.wakeOn_goesOn { s with kst := { s.kst with out := s.kst.out - 1 } } .remoteLimit
    exact ⟨_, congrArg Host.Outcome.next ((hm.arrive _).trans (State.completed_signal h5)), congrArg Kst.out hgo.kst, hgo.keepsObjects.ops, hgo.keepsObjects.objMem⟩
  · -- the completion of a send
    intro m o hm h0 ho hk hst
    exact congrArg Host.Outcome.next ((hm.arrive _).trans (State.completed_send h0 ho hk hst))
  · -- the accesses of a peer
    intro m hm hroute
    refine ⟨fun ho hb hr => ?_, fun ho hr => ?_, fun ho hr => ?_⟩
    · have hdst : (s.peerAnswer m).dst = m.src := by simp [State.peerAnswer, State.newMsg]
      have hsent := (State.Sent.refl s).sendMsg (s.peerAnswer m)
      have hgo := (s.sendMsg (s.peerAnswer m)).settle_nil_goesOn
      obtain ⟨p, hp, hkind, hto, hop, hdata⟩ := State.sendMsg_mem (s := s) (m := s.peerAnswer m) (by rwa [hdst])
      exact ⟨_, congrArg Host.Outcome.next (hm.arriveIn_taken (State.peerRead_owner hm.unarmed ho hb hr)), hgo.keepsObjects.objMem.trans hsent.objMem,
        p, hgo.outbox ▸ hp, hkind, hto.trans hdst, hop, hdata⟩
    · have he := State.peerWrite_owner ho
      rw [if_pos hr] at he
      exact ⟨_, congrArg Host.Outcome.next (hm.arriveIn_taken he), ((State.Sent.refl (s.objWrite (hIdx m.tag.toNat) m.off m.data)).complete m false).objMem⟩
    · have he := State.peerWrite_owner ho
      rw [if_neg (by simp [hr])] at he
      exact congrArg Host.Outcome.next (hm.arriveIn_waits he)
  · -- a marker
    intro p v e
    exact ⟨_, rfl, s.kst.mem_noted p v e, rfl⟩

end

section
/-! PROOF. SYN.WAIT (R319, R320, R324), and a remote SYN.SIGNAL to a node beyond the 14 bits of a message's destination (R298, R325). -/

namespace Sys2Proof.Machine

/-! ## What issues past the checks (R117, R321) -/

/-- One more remote signal is out (R325). -/
def State.oneOut (s : State) : State := { s with kst := { s.kst with out := s.kst.out + 1 } }

section
variable {s : State} {x : Fin 512} {i : Ins} (h : s.Issues x i) (hreg : synRegOk s x i = true)
include h hreg

/-- A SYN.WAIT that the checks let issue has its effect. -/
theorem State.exec_synWait (hw : synWord (coreOf x) i false = true) : exec (.synWait x i) s = .next (s.synWait x i) :=
  State.exec_in_range execSynWait h rfl hw rfl rfl hreg

/-- One whose effect is to wait leaves its context waiting at it. -/
theorem State.exec_synWait_waits (hw : synWord (coreOf x) i false = true) {w : Wait} (he : s.synWait x i = (s.issuedLast x).wait x w) :
    ∃ t, exec (.synWait x i) s = .next t ∧ s.Reselected t ∧ (t.ctx x).st = .waiting ∧ (t.ctx x).wait = w := by
  obtain ⟨hsel, hctx⟩ := s.issuedLast_wait x w
  exact ⟨_, he ▸ State.exec_synWait h hreg hw, hsel, by rw [hctx], by rw [hctx]⟩

/-- A remote SYN.SIGNAL to another node of the job sends its message while fewer than 1,024 are out. -/
theorem State.exec_synSignal_remote (hw : synWord (coreOf x) i true = true) (hr : synRemote i = true) (hn : remoteName (coreOf x) i = true)
    (ho : s.arc.other (synNode s x i) = true) (hout : s.kst.out < 1024) :
    exec (.synSignal x i) s = .next ((s.oneOut.sendMsg (s.oneOut.signalMsg (synNode s x i) (synName i) (synValue s x i))).advance x) := by
  have hword : (synWord (coreOf x) i true && (!synRemote i || remoteName (coreOf x) i)) = true := by simp [hw, hn]
  have hrun : exec (.synSignal x i) s = .next (s.signalRemote x i) :=
    State.exec_in_range execSynSignal h rfl hword rfl (if_pos hr) (by simp [hreg, ho])
  rw [hrun, State.signalRemote, if_neg (Nat.not_le.2 hout)]
  rfl

end

/-! ## SYN.WAIT (R319, R320, R324) -/

section
variable {s : State} {x : Nat} {i : Ins} {c : Counter} (hc : fullName (coreOf x) (synName i) = some c)
include hc

theorem State.synWait_unmet (hv : (s.counter c).toNat < (synValue s x i).toNat) :
    s.synWait x i = (s.issuedLast x).wait x (.counter c (synValue s x i)) := by
  rw [State.synWait, hc]
  exact if_pos hv

theorem State.synWait_met_ctx {y : Fin 512} {n : Fin 32} (hy : c = .ctx y n) (hv : (synValue s x i).toNat ≤ (s.counter c).toNat) :
    s.synWait x i = s.advance x := by
  subst hy
  rw [State.synWait, hc]
  exact if_neg (Nat.not_lt.2 hv)

theorem State.synWait_met_shared (hy : ∀ y n, c ≠ .ctx y n) (hv : (synValue s x i).toNat ≤ (s.counter c).toNat) :
    s.synWait x i = (s.issuedLast x).wait x (.delay c (synValue s x i)) := by
  rw [State.synWait, hc]
  cases c with
  | ctx y n => exact absurd rfl (hy y n)
  | job j => exact if_neg (Nat.not_lt.2 hv)
  | sys j => exact if_neg (Nat.not_lt.2 hv)

end

/-! ## A signal that no link carries (R296) -/

/-- A message for the module's own positions leaves on no link. -/
theorem State.sendMsg_unrouted {s : State} {m : Msg} (h : s.arc.route m.dst.toNat = none) : s.sendMsg m = s := by
  rw [State.sendMsg, h]

/-- A signal of 7 to job counter 5 of the node in s1. -/
def farSignal : Ins := { flags := 3, opd := .ofNat 100 (0x4005 * 2 ^ 74 + 2 ^ 90 + 7) }

/-- Node 0 of a ring of 2^15 modules, twice as many as R294 allows; context 0 runs with node 2^14 in s1. -/
def wideRing : State :=
  { ctxs := [(0, { pc := 256, code := 0x100005, st := .running, sr := [(1, 2 ^ 14)] })]
    objs := [(5, { handle := 0x100005, st := .fast, kind := .code, size := 1, codeText := some (256, 4096) })]
    pln := { groups := 8 }, arc := { valid := true, ring := [2 ^ 15, 1, 1, 1] } }

theorem wideRing_issues : wideRing.Issues 0 farSignal where
  running := by decide
  core := by decide
  noFault := by decide
  held := by decide
  waits := by decide
  fetch := by decide
  text := by decide
  verifies := wideRing.readIns_nothing 0 farSignal rfl (by decide) (by decide) (by decide)
  point := by decide
  defined := by decide +kernel
  reserved := rfl
  psel := by decide
  predicate := by decide
  bounds := by decide

/-- The destination of its message is the node's number modulo 2^14, which is this module. -/
theorem wideRing_unrouted : wideRing.arc.route (BitVec.ofNat 14 (synNode wideRing 0 farSignal)).toNat = none := by decide

end Sys2Proof.Machine

/-! ## The obligations -/

open Sys2Proof Sys2Proof.Machine

/-- Settles O17: past the checks, the counter's value against the threshold decides, and for a counter that is met its kind. -/
theorem synWaits : Obligations.SynWaits := by
  unfold Obligations.SynWaits
  intro x i s h hw hreg v c hc
  refine ⟨fun hmet hctx => ?_, fun hmet hshared => State.exec_synWait_waits h hreg hw (State.synWait_met_shared hc hshared hmet),
    fun hunmet => State.exec_synWait_waits h hreg hw (State.synWait_unmet hc hunmet)⟩
  obtain ⟨y, n, hy⟩ := hctx
  refine ⟨_, State.exec_synWait h hreg hw, ?_⟩
  rw [State.synWait_met_ctx hc hy hmet]
  exact State.advance_reselected ..

/-- Refutes O16: it does not bound the node of a remote signal by the 14 bits of a message's destination (R298), as a topology of R294 does. In `wideRing` s1 names
node 2^14 of a ring of 2^15; the message's destination is then node 0, this module itself, and it leaves on no link. -/
theorem not_synSignalSet : ¬ Obligations.SynSignalSet := by
  unfold Obligations.SynSignalSet
  intro h
  obtain ⟨-, hremote, -⟩ := h 0 farSignal wideRing wideRing_issues (by decide)
  obtain ⟨hsend, -⟩ := hremote (by decide) (by decide) (by decide) (by decide)
  obtain ⟨t, ht, -, -, -, -, hm⟩ := hsend (by decide)
  obtain ⟨m, hm, -⟩ := hm (by decide)
  have hexec := State.exec_synSignal_remote wideRing_issues (by decide) (by decide) (by decide) (by decide) (by decide) (by decide)
  rw [State.sendMsg_unrouted wideRing_unrouted] at hexec
  have hnone : t.arc.outbox = [] := by
    rw [Host.Outcome.next.inj (ht.symm.trans hexec), (State.advance_reselected ..).1]
    rfl
  rw [hnone] at hm
  exact absurd hm List.not_mem_nil

end

section
/-! PROOF. What stopping and resuming contexts, and the end of a hold, leave alone and make of a context (R90, R337, R350, R382). -/

namespace Sys2Proof.Machine

/-! ## States that agree on preservation, keystone, the numeric state block and object bytes -/

/-- `t` has the preservation engine, keystone, the numeric state block and the object bytes of `s`. -/
structure State.KeepsPrs (s t : State) : Prop where
  prs : t.prs = s.prs
  kst : t.kst = s.kst
  nsb : t.nsb = s.nsb
  objMem : t.objMem = s.objMem

namespace State.KeepsPrs

variable {s t u : State}

theorem refl (s : State) : s.KeepsPrs s := ⟨rfl, rfl, rfl, rfl⟩

theorem trans (h : s.KeepsPrs t) (k : t.KeepsPrs u) : s.KeepsPrs u :=
  ⟨k.prs.trans h.prs, k.kst.trans h.kst, k.nsb.trans h.nsb, k.objMem.trans h.objMem⟩

theorem of_goesOn (h : s.GoesOn t) : s.KeepsPrs t := by
  rw [h]
  exact ⟨rfl, rfl, rfl, rfl⟩

theorem of_logged (h : s.Logged t) : s.KeepsPrs t := .of_goesOn (.of_logged h)

theorem of_sent (h : s.Sent t) : s.KeepsPrs t := by
  rw [h.frame]
  exact ⟨rfl, rfl, rfl, rfl⟩

/-- A fold of steps each of which keeps them. -/
theorem foldl {α : Type} {f : State → α → State} (hf : ∀ (u : State) (a : α), u.KeepsPrs (f u a)) (l : List α) (s : State) : s.KeepsPrs (l.foldl f s) := by
  induction l generalizing s with
  | nil => exact refl s
  | cons a l ih => exact (hf s a).trans (ih _)

end State.KeepsPrs

/-! ## Mason stops and resumes contexts (R90) -/

theorem State.stopCtx_goesOn (s : State) (x : Nat) : s.GoesOn (s.stopCtx x) := by
  unfold State.stopCtx
  dsimp only
  split
  · exact s.leave_goesOn ..
  · split
    · exact s.setCtx_goesOn ..
    · exact .refl s

theorem State.resumeCtx_goesOn (s : State) (x : Nat) : s.GoesOn (s.resumeCtx x) := by
  unfold State.resumeCtx
  dsimp only
  split
  · exact s.leave_goesOn ..
  · exact .refl s

theorem State.unpin_keepsPrs (s : State) (o : Op) : s.KeepsPrs (s.unpin o) := by
  rw [State.unpin_frame]
  exact ⟨rfl, rfl, rfl, rfl⟩

theorem State.takeBack_keepsPrs (s : State) (x : Nat) : s.KeepsPrs (s.takeBack x) := by
  have hdrop (u : State) (o : Op) : u.KeepsPrs ((u.unpin o).dropOp o.id) := (u.unpin_keepsPrs o).trans ⟨rfl, rfl, rfl, rfl⟩
  unfold State.takeBack
  split
  · exact (State.KeepsPrs.of_goesOn (s.waitHeld_goesOn x)).trans (.foldl hdrop ..)
  · exact .refl s

/-! ## The end of a hold (R337, R350, R382) -/

theorem State.preemptAll_keepsPrs (s : State) : s.KeepsPrs s.preemptAll := by
  have hstop (u : State) (x : Nat) : u.KeepsPrs ((u.takeBack x).stopCtx x) := (u.takeBack_keepsPrs x).trans (.of_goesOn (State.stopCtx_goesOn ..))
  have hmsn (u : State) (m : Msn) : u.KeepsPrs { u with msn := m } := ⟨rfl, rfl, rfl, rfl⟩
  exact ((State.KeepsPrs.foldl hstop s.ctxKeys s).trans (hmsn ..)).trans (.of_goesOn (State.preemptDone_goesOn _))

theorem State.holdEnded_keepsPrs (s : State) : s.KeepsPrs s.holdEnded := by
  unfold State.holdEnded
  split
  · exact s.preemptAll_keepsPrs
  · exact .refl s

theorem State.wakeStep_keepsPrs (s : State) : s.KeepsPrs s.wakeStep := .of_goesOn (.foldl (fun u _ => u.wake_if_goesOn ..) _ s)

/-- The end of a replay check leaves no check. -/
theorem State.replayOver_keepsPrs (s : State) : ({ s with prs := { s.prs with replay := none } } : State).KeepsPrs s.replayOver :=
  (State.wakeStep_keepsPrs _).trans (State.holdEnded_keepsPrs _)

/-! ## Contexts that take no part, and contexts that go on -/

/-- Neither READY, RUNNING nor WAITING. -/
def Ctx.Rests (c : Ctx) : Prop := c.st ≠ .ready ∧ c.st ≠ .running ∧ c.st ≠ .waiting

/-- READY or RUNNING. -/
def Ctx.Going (c : Ctx) : Prop := c.st = .ready ∨ c.st = .running

/-- A context that the table does not list is in its reset state. -/
theorem State.ctx_of_not_mem_keys {s : State} {x : Nat} (h : x ∉ s.ctxKeys) : s.ctx x = {} :=
  Tab.get_absent _ _ _ fun _ hp e => h (e ▸ List.mem_map_of_mem hp)

theorem State.leave_ctx_ne {s : State} {x y : Nat} {c : Ctx} (hy : y ≠ x) (h : (s.ctx y).st ≠ .ready) : (s.leave x c).ctx y = s.ctx y := by
  have hset := s.setCtx_ctx_ne x c y hy
  rw [State.leave, State.select_ctx_of_not_ready (by rwa [hset]), hset]

/-- A stopped context takes no part. -/
theorem State.stopCtx_rests (s : State) (x : Nat) : ((s.stopCtx x).ctx x).Rests := by
  unfold State.stopCtx
  dsimp only
  split
  · rw [State.leave_ctx_of_not_ready (by simp)]
    simp [Ctx.Rests]
  · next hgoing =>
    split
    · simp [Ctx.Rests]
    · next hwaiting =>
      simp only [Bool.or_eq_true, decide_eq_true_eq, not_or] at hgoing
      exact ⟨hgoing.1, hgoing.2, hwaiting⟩

/-- Stopping another context lets none take part that does not. -/
theorem State.stopCtx_keeps_rests {s : State} {y : Nat} (x : Nat) (h : (s.ctx y).Rests) : ((s.stopCtx x).ctx y).Rests := by
  by_cases hy : y = x
  · exact hy ▸ s.stopCtx_rests x
  · unfold State.stopCtx
    dsimp only
    split
    · rwa [State.leave_ctx_ne hy h.1]
    · split
      · rwa [State.setCtx_ctx_ne _ _ _ _ hy]
      · exact h

theorem State.foldl_stopCtx_rests {l : List Nat} {s : State} {y : Nat} (h : y ∈ l ∨ (s.ctx y).Rests) : ((l.foldl State.stopCtx s).ctx y).Rests := by
  induction l generalizing s with
  | nil => simpa using h
  | cons x l ih =>
    refine ih ?_
    rcases h with h | h
    · rcases List.mem_cons.1 h with rfl | h
      · exact .inr (s.stopCtx_rests y)
      · exact .inl h
    · exact .inr (State.stopCtx_keeps_rests x h)

/-- Mason stops every context. -/
theorem State.stopAllCtxs_rests (s : State) (y : Nat) : ((s.ctxKeys.foldl State.stopCtx s).ctx y).Rests := by
  refine State.foldl_stopCtx_rests (Decidable.or_iff_not_imp_left.2 fun h => ?_)
  rw [State.ctx_of_not_mem_keys h]
  simp [Ctx.Rests]

/-- Selection keeps a context going that goes on. -/
theorem State.select_keeps_going {s : State} {y : Nat} (k : Nat) (h : (s.ctx y).Going) : ((s.select k).ctx y).Going := by
  rcases s.select_ctx k y with e | ⟨-, -, e⟩
  · rwa [e]
  · rw [e]
    exact .inr rfl

/-- A resumed context goes on; one that was not STOPPED is as before or is selected. -/
theorem State.resumeCtx_going {s : State} {y : Nat} (x : Nat) (h : (y = x ∧ (s.ctx y).st = .stopped) ∨ (s.ctx y).Going) : ((s.resumeCtx x).ctx y).Going := by
  unfold State.resumeCtx
  dsimp only
  split
  · refine State.select_keeps_going _ ?_
    by_cases hy : y = x
    · rw [hy, State.setCtx_ctx]
      exact .inl rfl
    · rw [State.setCtx_ctx_ne _ _ _ _ hy]
      exact h.resolve_left fun e => hy e.1
  · next hs => exact h.resolve_left fun ⟨e, k⟩ => hs (e ▸ k)

/-- A STOPPED context stays so while another one is resumed. -/
theorem State.resumeCtx_keeps_stopped {s : State} {x y : Nat} (hy : y ≠ x) (h : (s.ctx y).st = .stopped) : (s.resumeCtx x).ctx y = s.ctx y := by
  unfold State.resumeCtx
  dsimp only
  split
  · exact State.leave_ctx_ne hy (by simp [h])
  · rfl

theorem State.foldl_resumeCtx_going {l : List Nat} {s : State} {y : Nat} (h : (y ∈ l ∧ (s.ctx y).st = .stopped) ∨ (s.ctx y).Going) :
    ((l.foldl State.resumeCtx s).ctx y).Going := by
  induction l generalizing s with
  | nil => simpa using h
  | cons x l ih =>
    refine ih ?_
    rcases h with ⟨hy, hs⟩ | h
    · by_cases e : y = x
      · exact .inr (State.resumeCtx_going x (.inl ⟨e, hs⟩))
      · exact .inl ⟨List.mem_of_ne_of_mem e hy, (State.resumeCtx_keeps_stopped e hs).symm ▸ hs⟩
    · exact .inr (State.resumeCtx_going x (.inr h))

/-- Mason resumes every STOPPED context. -/
theorem State.resumeAllCtxs_going {s : State} {y : Nat} (h : (s.ctx y).st = .stopped) : ((s.ctxKeys.foldl State.resumeCtx s).ctx y).Going := by
  refine State.foldl_resumeCtx_going (.inl ⟨?_, h⟩)
  by_contra hy
  rw [State.ctx_of_not_mem_keys hy] at h
  cases h

end Sys2Proof.Machine
end

section
/-! PROOF. Captures at a boundary, the drain and the replay check (R337 to R339, R345, R350), and the obligation. -/

namespace Sys2Proof.Machine

variable {s : State} {b : Nat}

/-! ## Quiescence and the decision of the barrier (R332, R338, R339) -/

theorem State.quiesceTimeout_keepsPrs (s : State) (inj : Bool) :
    ({ s with prs := { s.prs with capture := .none, gaveUp := some s.boundary, fault := setBit s.prs.fault 3 true }, kst := { s.kst with quiesce := false } } : State).KeepsPrs
      (s.quiesceTimeout inj) :=
  .of_logged (State.ev_logged _ _ _ _ _ _ _ (by decide))

/-- Registrations change the object table only. -/
theorem State.registrations_frame (s : State) : s.registrations = { s with objs := s.registrations.objs } := by
  unfold State.registrations
  generalize s.objs.map Prod.fst = l
  induction l generalizing s with
  | nil => rfl
  | cons i l ih =>
    rw [List.foldl_cons, ih]
    split <;> rfl

/-- The barrier with no image of a boundary pending: registrations take effect, and no slot becomes the ANCHOR. -/
theorem State.anchorMove_registrations (hp : s.prs.pendingSnap = none) (others : List CaptureInfo) :
    s.registrations.anchorMove others = { s with objs := s.registrations.objs } := by
  have h : s.registrations.prs.pendingSnap = none := by rw [State.registrations_frame]; exact hp
  rw [State.anchorMove, h]
  exact s.registrations_frame

theorem State.captureOver_keepsPrs (s : State) (b : Nat) :
    ({ s with prs := { s.prs with capture := .none, captured := some b }, kst := { s.kst with quiesce := false } } : State).KeepsPrs (s.captureOver b) :=
  (State.wakeStep_keepsPrs _).trans (State.holdEnded_keepsPrs _)

theorem State.mirrorSkip_prs (s : State) (reason : Nat) : (s.mirrorSkip reason).prs = { s.prs with fault := setBit s.prs.fault 1 true } :=
  (State.ev_logged (s.prsFault 1) _ _ _ _ _ _ (by decide)).prs

theorem State.snapSkip_prs (s : State) (reason : Nat) (inj : Bool) : (s.snapSkip reason inj).prs = { s.prs with fault := setBit s.prs.fault 0 true } :=
  (State.ev_logged (s.prsFault 0) _ _ _ _ _ _ (by decide)).prs

/-- A tainted step is captured nowhere: buttress and cairn skip the boundary (R339), which changes PRS_FAULT only. -/
theorem State.captureBarrier_tainted (ht : s.nsb.taint = true) (hp : s.prs.pendingSnap = none) (others : List CaptureInfo) :
    ∃ f, (s.captureBarrier b others).prs = { s.prs with fault := f, capture := .none, captured := some b } := by
  simp only [State.captureBarrier, State.anchorMove_registrations hp, ht, Bool.true_or, if_true, (State.captureOver_keepsPrs ..).prs]
  split <;> split <;> simp only [State.mirrorSkip_prs, State.snapSkip_prs] <;> exact ⟨_, rfl⟩

/-- A sound step at which buttress alone captures. -/
theorem State.captureBarrier_mirror {others : List CaptureInfo} (ht : s.nsb.taint = false) (ho : others.all (fun o => !o.taint) = true)
    (hp : s.prs.pendingSnap = none) (hm : s.mirrorDue b = true) (hs : s.snapDue b = false) :
    s.captureBarrier b others = ({ s with objs := s.registrations.objs } : State).save b true false := by
  have hany : others.any CaptureInfo.taint = false := by simpa using ho
  have hm' : ({ s with objs := s.registrations.objs } : State).mirrorDue b = true := hm
  have hs' : ({ s with objs := s.registrations.objs } : State).snapDue b = false := hs
  simp [State.captureBarrier, State.anchorMove_registrations hp, ht, hany, hm', hs', hp]

/-- CAPTURE_BARRIER at a quiescent point, where the reads of order 4 meet nothing. -/
theorem State.exec_captureBarrier {others : List CaptureInfo} (hc : s.prs.capture = .barrier b) (hq : s.quiescent = true) (hw : s.warned = false) :
    exec (.captureBarrier ⟨others, []⟩) s = .next (s.captureBarrier b others) := by
  show execCaptureBarrier _ _ = _
  simp only [execCaptureBarrier, hc, hq, hw, Bool.not_false, Bool.and_self, if_true, List.isEmpty_nil]
  split <;> rfl

/-! ## Orders 3 and 4 (R337, R340, R341) -/

/-- What a capture reads is pinned in the object table. -/
theorem State.pinCapture_frame (s : State) (l : List (Nat × Nat × Nat)) :
    s.pinCapture l = { s with objs := (s.pinCapture l).objs, prs := { s.prs with reads := l } } := by
  unfold State.pinCapture
  dsimp only
  generalize (l.map Prod.fst).eraseDups = hs
  induction hs generalizing s with
  | nil => rfl
  | cons h hs ih =>
    rw [List.foldl_cons, ih]
    rfl

/-- A fold that sends, with a place that moves on. -/
theorem State.Sent.foldl_fst {α : Type} {f : State × Nat → α → State × Nat} (hf : ∀ (p : State × Nat) (a : α), p.1.Sent (f p a).1) (l : List α) (p : State × Nat) :
    p.1.Sent (l.foldl f p).1 := by
  induction l generalizing p with
  | nil => exact .refl _
  | cons a l ih => exact (hf p a).trans (ih _)

theorem State.sendMirror_sent (s : State) (m : Image) (sent : List (Nat × Obj)) : s.Sent (s.sendMirror m sent) := by
  unfold State.sendMirror
  dsimp only
  refine .link (.trans (State.Sent.refl s).fresh (.foldl_fst (fun p q => ?_) m.objs (s.fresh.2, (pad4k (m.head ++ m.body)).length))) _ _ _
  dsimp only
  split
  · exact (State.Sent.refl p.1).link ..
  · exact .refl p.1

/-- The state that order 4 begins in, before buttress sends: every context stopped, and what is captured taken. -/
def State.saving (s : State) (b : Nat) (mirror snap : Bool) : State :=
  let t := s.ctxKeys.foldl State.stopCtx s
  let u := t.pinCapture (t.captureReads b mirror snap)
  { u with prs := { u.prs with
    capture := .saving b mirror snap
    slots := if mirror then u.prs.slots.set u.prs.latest { image := some (t.mirrorImage b), host := u.hostSerial } else u.prs.slots
    staged := if snap then some (t.cairnImage b) else u.prs.staged } }

theorem State.save_sent (s : State) (b : Nat) (mirror snap : Bool) : (s.saving b mirror snap).Sent (s.save b mirror snap) := by
  cases mirror
  · exact .refl _
  · exact State.sendMirror_sent ..

/-- Saving begins order 4 with every context stopped, and changes no byte of an object. -/
theorem State.save_spec (s : State) (b : Nat) (mirror snap : Bool) :
    (s.save b mirror snap).prs.capture = .saving b mirror snap ∧ (s.save b mirror snap).objMem = s.objMem ∧ ∀ x, ((s.save b mirror snap).ctx x).Rests := by
  have hsent := s.save_sent b mirror snap
  refine ⟨?_, ?_, fun x => ?_⟩
  · rw [(State.KeepsPrs.of_sent hsent).prs]
    rfl
  · rw [hsent.objMem, State.saving, State.pinCapture_frame]
    exact (State.KeepsPrs.of_goesOn (.foldl State.stopCtx_goesOn ..)).objMem
  · rw [State.ctx, hsent.ctxs, State.saving, State.pinCapture_frame]
    exact s.stopAllCtxs_rests x

/-! ## The end barrier (R337, R338) -/

/-- The end of a capture: whatever staging and the pins change, the boundary is captured and nothing holds NUM.STEPBEGIN for it. -/
theorem State.captureEnd_spec (s : State) (b : Nat) (mirror snap : Bool) :
    ∃ u : State, u.prs.capture = .none ∧ u.prs.captured = some b ∧ u.kst.quiesce = false ∧ u.KeepsPrs (s.captureEnd b mirror snap) := by
  have hresume (u : State) : u.KeepsPrs (u.ctxKeys.foldl State.resumeCtx u).holdEnded :=
    (State.KeepsPrs.of_goesOn (.foldl State.resumeCtx_goesOn ..)).trans (State.holdEnded_keepsPrs _)
  exact ⟨_, rfl, rfl, rfl, hresume _⟩

/-- Past order 4 the capture ends, and what it held is evaluated. -/
theorem State.exec_captureEndBarrier {mirror snap : Bool} (hc : s.prs.capture = .saving b mirror snap) (hu : s.Unarmed) (hb : s.bad = [])
    (hs : s.pln.stopped = false) (hd : s.msn.dead = false) (hw : s.warned = false) (hr : s.captureRefs.all (s.reaches (.ring 0 0 0 0)) = true) :
    exec .captureEndBarrier s = .next ((s.captureEnd b mirror snap).settle ((s.ops.filter (fun o => o.kind == .hostWrite)).map Op.id)) := by
  have hfound : s.captureFound snap [] = { s := s } := s.detect_nothing _ _ _ hu (State.badIn_of_bad_nil hb _)
  show execCaptureEndBarrier s = _
  simp only [execCaptureEndBarrier, hc, hs, hd, hw, Bool.or_self, Bool.false_eq_true, if_false, hfound, hr, if_true, List.nil_append]

/-! ## The drain (R345, R346) -/

theorem subset_closure (l : List Image) (n : Nat) (k : List Nat) : k ⊆ closure l n k := by
  induction n generalizing k with
  | zero => exact List.Subset.refl k
  | succ n ih => exact List.Subset.trans (List.subset_append_left ..) (ih _)

/-- The newest complete image stays. -/
theorem mem_keepImages_append {m : Image} (l : List Image) (h : m.complete = true) : m ∈ keepImages (l ++ [m]) := by
  refine List.mem_filter.2 ⟨List.mem_append_right _ List.mem_cons_self, decide_eq_true (subset_closure _ _ _ ?_)⟩
  simp [List.filter_append, h]

/-- The images once the drain of `m` has ended. -/
def State.drainedImages (s : State) (m : Image) (readable : Bool) : List Image :=
  keepImages (s.prs.images ++ [{ m with complete := true, usable := readable }])

theorem State.mem_drainedImages (s : State) (m : Image) (readable : Bool) : { m with complete := true, usable := readable } ∈ s.drainedImages m readable :=
  mem_keepImages_append _ rfl

/-- The state once the drain of `m` has ended, before the error of a page that cannot be read. -/
def State.afterDrain (s : State) (m : Image) (readable : Bool) : State :=
  { s with prs := { s.prs with
    staged := none
    drain := 0
    images := s.drainedImages m readable
    flashFree := s.prs.flashFree + (flashOf (s.prs.images ++ [{ m with complete := true, usable := readable }]) - flashOf (s.drainedImages m readable)) } }

theorem State.exec_cairnDrainComplete {m : Image} (hs : s.prs.staged = some m) (hc : s.prs.capture = .none) (hj : m.jobId = s.prs.jobId) (readable : Bool) :
    exec (.cairnDrainComplete readable) s = .next (if readable then s.afterDrain m readable else (s.afterDrain m readable).flashError m.seq false) := by
  show Host.Outcome.next (s.drainComplete readable) = _
  unfold State.drainComplete
  split
  · next he => cases hc.symm.trans he
  · next he => cases hs.symm.trans he
  · next he _ =>
    obtain rfl := Option.some.inj (hs.symm.trans he)
    exact congrArg _ (if_neg (not_not.2 hj))

theorem State.flashError_prs (s : State) (seq : Nat) (inj : Bool) :
    (s.flashError seq inj).prs = { s.prs with
      images := s.prs.images.map (fun (q : Image) => if q.seq = seq then { q with usable := false, flashInj := inj } else q)
      fault := setBit s.prs.fault 2 true } :=
  (State.ev_logged _ _ _ _ _ _ _ (by decide)).prs

/-! ## The replay check (R350) -/

/-- REPLAY_VERDICT, where this module has its verdict and no hold stands. -/
theorem State.exec_replayVerdict {r : Replay} {v : Verdict} (hr : s.prs.replay = some r) (hv : r.verdict = some v) (hh : r.held = false) (others : List Verdict) :
    exec (.replayVerdict others) s = .next (s.replayDecide r v others) := by
  show execReplayVerdict others s = _
  simp [execReplayVerdict, hr, hv, hh]

/-- The check passes where every module's verdict matches. -/
theorem State.replayDecide_matches {others : List Verdict} (h : others.all (fun o => o == .matches) = true) (r : Replay) :
    s.replayDecide r .matches others = (s.ev (prsSrc 0) evPrsReplayOk r.step.toNat).replayOver := by
  have hno {v : Verdict} (hv : v ≠ .matches) : others.any (fun o => o == v) = false := by
    refine List.any_eq_false.2 fun o ho e => hv ?_
    rw [← eq_of_beq e, eq_of_beq (List.all_eq_true.1 h o ho)]
  simp [State.replayDecide, hno]

/-- The check of a module whose step differs holds the job. -/
theorem State.replayDecide_differs (s : State) (r : Replay) (others : List Verdict) :
    (s.replayDecide r .differs others).prs = { s.prs with fault := setBit s.prs.fault 4 true, replay := some { r with held := true, noref := false } } := by
  rw [State.replayDecide, if_pos rfl]
  dsimp only
  rw [(State.ev_logged (s.prsFault 4) _ _ _ _ _ _ (by decide)).prs]
  rfl

end Sys2Proof.Machine

/-! ## The obligation -/

open Sys2Proof Sys2Proof.Machine

/-- Settles O52: each order of a capture by what it decides, the drain by the image that it keeps, and the replay check by its verdict. -/
theorem captures : Obligations.Captures := by
  unfold Obligations.Captures
  intro s b
  refine ⟨fun hc hq => ?_, fun hc => ?_, fun others hc hq hw ht hp => ?_, fun others hc h => ?_, fun others hc hq hw ht ho hp hm hs => ?_,
    fun mirror snap hc hu hb hs hd hw hr => ?_, fun h => ?_, fun m hs hc hj => ?_, fun m hs hc hj => ?_,
    fun r others hr hh => ⟨fun hv ho => ?_, fun hv => ?_⟩⟩
  · show execCaptureQuiescent s = _
    simp [execCaptureQuiescent, hc, hq]
  · have hk := s.quiesceTimeout_keepsPrs false
    have he : exec .prsQuiesceTimeout s = .next (s.quiesceTimeout false) := by
      show execPrsQuiesceTimeout s = _
      rw [execPrsQuiesceTimeout, hc]
    refine ⟨_, he, ?_⟩
    rw [hk.prs, hk.kst, hk.objMem]
    simp [setBit]
  · obtain ⟨f, hf⟩ := State.captureBarrier_tainted (b := b) ht hp others
    refine ⟨_, State.exec_captureBarrier hc hq hw, ?_⟩
    rw [hf]
    exact ⟨rfl, rfl, rfl, rfl⟩
  · show execCaptureBarrier _ _ = _
    rcases h with h | h <;> simp [execCaptureBarrier, hc, h]
  · refine ⟨_, State.exec_captureBarrier hc hq hw, ?_⟩
    rw [State.captureBarrier_mirror ht ho hp hm hs]
    exact State.save_spec ..
  · refine ⟨_, State.exec_captureEndBarrier hc hu hb hs hd hw hr, ?_⟩
    obtain ⟨u, hcap, hdone, hquiesce, hk⟩ := s.captureEnd_spec b mirror snap
    have hset := State.Settles.settle (.refl (s.captureEnd b mirror snap))
    rw [(hset _).prs, (hset _).kst, hk.prs, hk.kst]
    exact ⟨hcap, hdone, hquiesce⟩
  · have hstop : (s.pln.stopped || s.msn.dead) = true := by simpa using h
    show execCaptureEndBarrier s = _
    rw [execCaptureEndBarrier]
    split <;> simp [hstop]
  · exact ⟨_, State.exec_cairnDrainComplete hs hc hj true, rfl, rfl, s.mem_drainedImages m true⟩
  · refine ⟨_, State.exec_cairnDrainComplete hs hc hj false, ?_⟩
    rw [if_neg Bool.false_ne_true, State.flashError_prs]
    exact ⟨rfl, List.mem_map.2 ⟨_, s.mem_drainedImages m false, if_pos rfl⟩, by simp [setBit]⟩
  · have hk := (s.ev (prsSrc 0) evPrsReplayOk r.step.toNat).replayOver_keepsPrs
    refine ⟨_, State.exec_replayVerdict hr hv hh others, ?_⟩
    rw [State.replayDecide_matches ho, hk.prs, hk.objMem]
    exact ⟨rfl, (State.ev_logged _ _ _ _ _ _ _ (by decide)).objMem⟩
  · refine ⟨_, State.exec_replayVerdict hr hv hh others, ?_⟩
    rw [State.replayDecide_differs]
    exact ⟨rfl, by simp [setBit]⟩

end

section
/-! PROOF. RESTORE, its barriers, SOURCE_DONE and CONTINUE (R326, R350, R351), and the obligation. -/

namespace Sys2Proof.Machine

variable {s t u : State}

/-! ## Commands of ring 0 (R381, R382) -/

/-- A command that the common checks let run acts on the state after its fetch. -/
theorem State.Accepts.ring0_runs {op : Nat} {e : BitVec 512} (h : s.Accepts op e) (run : State → Nat → State) :
    s.ring0 op e run = run (s.taken e) (s.ring 0).head.toNat := by
  simp [State.ring0, State.taken, h.free, h.entry, h.opcode, h.head, h.zeros, Nat.not_lt.2 h.ready, h.going, h.calm]

/-! ## What a restore goes by (R351) -/

/-- `t` has the images, the numeric state block and the place in the job of `s`, and no point is armed in it that was not. -/
structure State.KeepsImages (s t : State) : Prop where
  images : t.prs.images = s.prs.images
  nsb : t.nsb = s.nsb
  node : t.arc.node = s.arc.node
  ring : t.arc.ring = s.arc.ring
  pos : t.arc.pos = s.arc.pos
  unarmed : s.Unarmed → t.Unarmed

namespace State.KeepsImages

theorem trans (h : s.KeepsImages t) (k : t.KeepsImages u) : s.KeepsImages u :=
  ⟨k.images.trans h.images, k.nsb.trans h.nsb, k.node.trans h.node, k.ring.trans h.ring, k.pos.trans h.pos, k.unarmed ∘ h.unarmed⟩

theorem of_settles (h : s.Settles t) : s.KeepsImages t := ⟨by rw [h.prs], h.nsb, h.node, h.ring, h.pos, h.unarmed⟩

theorem taken (s : State) (e : BitVec 512) : s.KeepsImages (s.taken e) := ⟨rfl, rfl, rfl, rfl, rfl, id⟩

theorem manifestOk (h : s.KeepsImages t) (m : Image) : t.manifestOk m = s.manifestOk m := by
  simp only [State.manifestOk, h.node, h.ring, h.pos]

end State.KeepsImages

/-! ## Step 1 (R351) -/

/-- Every context in its reset state but for its counters, and every core too. -/
def State.discardAll (s : State) : State :=
  { s.ctxKeys.foldl (fun s x => s.setCtx x { (({} : Ctx)) with ctr := (s.ctx x).ctr, sticky := (s.ctx x).sticky }) s with cores := [] }

theorem State.Settles.discardAll (h : s.Settles u) : s.Settles u.discardAll := (h.foldl _ _ fun _ _ k => k.setCtx ..).upd rfl

theorem State.Settles.abandon (h : s.Settles u) : s.Settles u.abandon :=
  (h.foldl _ _ fun _ _ k => k.unpin _).ops fun q hq => ⟨q, (List.mem_filter.1 hq).1, rfl⟩

theorem State.Settles.dropRecompute (h : s.Settles u) (i : Nat) : s.Settles (u.dropRecompute i) := by
  unfold State.dropRecompute
  dsimp only
  split
  · exact ((h.setObj ..).giveDest _).setObj ..
  · split
    · exact (h.setObj ..).recoverFrom ..
    · exact h.setObj ..

theorem State.Settles.dropRecomputes (h : s.Settles u) : s.Settles u.dropRecomputes := (h.hod _).foldl _ _ fun _ _ k => k.dropRecompute _

/-- A capture's internal pins stand in the object table. -/
theorem State.unpinCapture_frame (s : State) : s.unpinCapture = { s with objs := s.unpinCapture.objs, prs := { s.prs with reads := [] } } := by
  unfold State.unpinCapture
  dsimp only
  generalize (s.prs.reads.map Prod.fst).eraseDups = hs
  induction hs generalizing s with
  | nil => rfl
  | cons h hs ih =>
    rw [List.foldl_cons, ih]
    split <;> rfl

theorem State.unpinCapture_keepsImages (s : State) : s.KeepsImages s.unpinCapture ∧ s.unpinCapture.kst = s.kst := by
  rw [State.unpinCapture_frame]
  exact ⟨⟨rfl, rfl, rfl, rfl, rfl, id⟩, rfl⟩

/-- Once everything has stopped, what belongs to the running step and to the capture in progress is cleared, in a new epoch (R326). -/
theorem State.stopAll_clears (s : State) :
    ∃ v, s.discardAll.abandon.dropRecomputes.unpinCapture.KeepsImages v
      ∧ v.kst.epoch = s.discardAll.abandon.dropRecomputes.unpinCapture.kst.epoch + 1 ∧ v.Settles s.stopAll := by
  unfold State.stopAll State.discardAll
  dsimp only
  generalize State.unpinCapture _ = u
  refine ⟨_, ?_, ?_, .settle (.refl _) _⟩
  · exact ⟨rfl, rfl, rfl, rfl, rfl, id⟩
  · rfl

/-- Step 1 begins a new epoch, and keeps what the restore goes by. -/
theorem State.stopAll_spec (s : State) : s.KeepsImages s.stopAll ∧ s.stopAll.kst.epoch = s.kst.epoch + 1 := by
  have hdrop := (State.Settles.refl s).discardAll.abandon.dropRecomputes
  obtain ⟨hunpin, hkst⟩ := s.discardAll.abandon.dropRecomputes.unpinCapture_keepsImages
  obtain ⟨v, hclear, hepoch, hsettle⟩ := s.stopAll_clears
  refine ⟨((State.KeepsImages.of_settles hdrop).trans hunpin).trans (hclear.trans (.of_settles hsettle)), ?_⟩
  rw [hsettle.kst, hepoch, hkst, hdrop.kst]

/-! ## Steps 2 and 3 (R345, R351) -/

theorem State.ownImage_found {m : Image} {job : W64} {b : Nat} (h : s.Unarmed)
    (hm : s.prs.images.find? (fun m => m.complete && m.usable && m.step.toNat == b && m.jobId == job) = some m) : s.ownImage job b [] = (some m, false, s) := by
  simp [State.ownImage, hm, State.readFlash_nothing h]

/-- RESTORE of entry `e` with count `c` is in progress. -/
def State.restoreBusy (s : State) (e : BitVec 512) (c : Nat) : State := { s with msn := { s.msn with busy := some (c, entTag e, entFlags e, 0x14) } }

theorem State.restoreBusy_keepsImages (s : State) (e : BitVec 512) (c : Nat) : s.KeepsImages (s.restoreBusy e c) := ⟨rfl, rfl, rfl, rfl, rfl, id⟩

theorem State.restoreBusy_kst (s : State) (e : BitVec 512) (c : Nat) : (s.restoreBusy e c).kst = s.kst := rfl

theorem State.restoreBegins_keepsImages (s : State) : s.KeepsImages s.restoreBegins := ⟨rfl, rfl, rfl, rfl, rfl, id⟩

theorem State.restoreBegins_epoch (s : State) : s.restoreBegins.kst.epoch = s.kst.epoch := rfl

/-- The state after step 1 of RESTORE. -/
def State.restoring (s : State) (e : BitVec 512) (c : Nat) : State := (s.restoreBusy e c).stopAll.restoreBegins

theorem State.restoring_spec (s : State) (e : BitVec 512) (c : Nat) : s.KeepsImages (s.restoring e c) ∧ (s.restoring e c).kst.epoch = s.kst.epoch + 1 := by
  obtain ⟨hstop, hepoch⟩ := (s.restoreBusy e c).stopAll_spec
  refine ⟨((s.restoreBusy_keepsImages e c).trans hstop).trans (State.restoreBegins_keepsImages _), ?_⟩
  rw [State.restoring, State.restoreBegins_epoch, hepoch, State.restoreBusy_kst]

/-- RESTORE with a sound image of its own. -/
theorem State.runRestore_own {e : BitVec 512} {m : Image} (hj : s.msn.job = true) (hu : s.Unarmed)
    (hm : s.prs.images.find? (fun m => m.complete && m.usable && m.step.toNat == entAt e 16 8 && m.jobId == BitVec.ofNat 64 (entAt e 8 8)) = some m)
    (hok : s.manifestOk m = true) (c : Nat) :
    s.runRestore e [] c = { s.restoring e c with prs := { (s.restoring e c).prs with restore := .nsbBarrier m true } } := by
  obtain ⟨hk, -⟩ := s.restoring_spec e c
  have hunarmed := hk.unarmed hu
  rw [← hk.images] at hm
  rw [← hk.manifestOk] at hok
  have hbegun : ({ s with msn := { s.msn with busy := some (c, entTag e, entFlags e, 0x14) } } : State).stopAll.restoreBegins = s.restoring e c := rfl
  rw [State.runRestore, if_neg (by simp [hj])]
  simp only [hbegun, State.ownImage_found hunarmed hm, State.injCheck_unarmed hunarmed, hok, Bool.not_true, Bool.or_self, Bool.false_eq_true, if_false]

/-! ## The end of RESTORE (R351) -/

/-- The end of RESTORE: no restore and no marker stands, and what else changes is a report to the host. -/
theorem State.restoreDone_reports (s : State) (status : Nat) :
    ∃ m, ({ s with prs := { s.prs with restore := .none }, kst := { s.kst with markers := [] }, msn := m } : State).Reports (s.restoreDone status) := by
  unfold State.restoreDone
  dsimp only
  split
  · exact ⟨_, (State.answer_reports ..).1⟩
  · exact ⟨_, .refl _⟩

theorem State.restoreDone_restore (s : State) (status : Nat) : (s.restoreDone status).prs.restore = .none := by
  obtain ⟨m, h⟩ := s.restoreDone_reports status
  rw [h]

theorem State.restoreDone_ctx (s : State) (status x : Nat) : (s.restoreDone status).ctx x = s.ctx x := by
  obtain ⟨m, h⟩ := s.restoreDone_reports status
  rw [h.ctx]
  rfl

/-- A step of a restore that fails ends it, and PRS_FAULT shows it. -/
theorem State.restoreFail_spec {code : Nat} (hc : isTraceCode code = false) (s : State) (b : Nat) (inj : Bool) :
    (s.restoreFail code b inj).prs = { s.prs with fault := setBit s.prs.fault 6 true, restore := .none }
      ∧ (s.restoreFail code b inj).nsb = s.nsb ∧ (s.restoreFail code b inj).objs = s.objs := by
  have hev := (s.prsFault 6).ev_logged (prsSrc 0) code b 0 [] inj hc
  obtain ⟨m, h⟩ := ((s.prsFault 6).ev (prsSrc 0) code b 0 [] inj).restoreDone_reports stRefused
  refine ⟨?_, ?_, ?_⟩
  · rw [State.restoreFail, (State.KeepsPrs.of_goesOn (.of_reports h)).prs]
    dsimp only
    rw [hev.prs]
    rfl
  · rw [State.restoreFail, h.nsb]
    exact hev.nsb
  · rw [State.restoreFail, h.objs]
    exact hev.objs

/-- The barrier after step 3 fails where another module's numeric state differs. -/
theorem State.nsbBarrier_differs {m : Image} {others : List (BitVec 512)} (hu : s.Unarmed) (ho : ∃ o ∈ others, nsbKey (entBytes o) ≠ nsbKey m.nsb.bytes)
    (own : Bool) : s.nsbBarrier m own others [] = s.restoreFail evPrsNsbDiff m.step.toNat false := by
  have hany : others.any (fun o => nsbKey (entBytes o) != nsbKey m.nsb.bytes) = true := by simpa using ho
  simp [State.nsbBarrier, State.injCheck_unarmed hu, hany]

/-! ## SOURCE_DONE (R351) -/

/-- Steps 7 and 8 leave the object table alone. -/
theorem State.restoreRest_objs (s : State) (m : Image) : (s.restoreRest m).objs = s.objs := by
  unfold State.restoreRest
  dsimp only
  split
  · exact (State.restoreFail_spec (by decide) ..).2.2
  · rfl

/-- An object whose digest is the listed one is accepted with the WSTEP of the image (R265). -/
theorem State.runSourceDone_accepts {m : Image} {wanted : List Nat} {h : Nat} {q : Saved} (hs : s.prs.restore = .sources m wanted)
    (hq : m.objs.find? (fun q => q.idx == hIdx h && q.obj.handle.toNat == h && wanted.contains (hIdx h)) = some q) (hd : s.digest (hIdx h) = q.digest)
    (c : Nat) : ((s.runSourceDone h c).obj (hIdx h)).wstep = m.step := by
  simp only [State.runSourceDone, hs, hq, hd, if_true]
  rw [(State.answer_keepsObjects ..).obj]
  split
  · rw [State.obj, State.restoreRest_objs]
    exact congrArg Obj.wstep (State.setObj_obj ..)
  · exact congrArg Obj.wstep (State.setObj_obj ..)

end Sys2Proof.Machine

/-! ## The obligation -/

open Sys2Proof Sys2Proof.Machine

/-- Settles O47: each command runs past the common checks of its ring, or at its barrier, and leaves of the restore what it should. -/
theorem restoreCommands : Obligations.RestoreCommands := by
  unfold Obligations.RestoreCommands
  intro s e
  refine ⟨fun m ha hu hj hm hok => ?_, fun m own others hu hr hin hw ho => ?_, fun others hr hw => ?_, fun m wanted q ha hr hh hq hd => ?_,
    fun r ha hr hheld hnoref => ?_⟩
  · have htaken := State.KeepsImages.taken s e
    obtain ⟨hk, hepoch⟩ := (s.taken e).restoring_spec e (s.ring 0).head.toNat
    rw [← htaken.manifestOk] at hok
    have hrun := State.runRestore_own (s := s.taken e) hj hu hm hok (s.ring 0).head.toNat
    have he : exec (.restore ⟨e, []⟩) s = .next ((s.taken e).runRestore e [] (s.ring 0).head.toNat) :=
      congrArg _ (ha.ring0_runs fun s c => s.runRestore e [] c)
    rw [hrun] at he
    refine ⟨_, he, rfl, hepoch, ?_⟩
    dsimp only
    exact (htaken.trans hk).nsb
  · have he : exec (.restoreBarrier ⟨others, []⟩) s = .next (s.restoreFail evPrsNsbDiff m.step.toNat false) := by
      show execRestoreBarrier _ s = _
      simp [execRestoreBarrier, hr, hin, hw, State.nsbBarrier_differs hu ho]
    obtain ⟨hprs, hnsb, -⟩ := State.restoreFail_spec (code := evPrsNsbDiff) (by decide) s m.step.toNat false
    refine ⟨_, he, ?_⟩
    rw [hprs]
    exact ⟨rfl, by simp [setBit], hnsb⟩
  · have he : exec (.restoreBarrier others) s = .next ((s.ctxKeys.foldl State.resumeCtx s).restoreDone stOk) := by
      show execRestoreBarrier _ s = _
      simp [execRestoreBarrier, hr, hw]
    refine ⟨_, he, State.restoreDone_restore .., fun x hx => ?_⟩
    rw [State.restoreDone_ctx]
    exact State.resumeAllCtxs_going hx
  · have he : exec (.sourceDone e) s = .next ((s.taken e).runSourceDone (entAt e 8 4) (s.ring 0).head.toNat) :=
      congrArg _ ((ha.ring0_runs _).trans (if_neg (Nat.not_le.2 hh)))
    exact ⟨_, he, State.runSourceDone_accepts (s := s.taken e) hr hq hd _⟩
  · have he : exec (.continueJob e) s = .next ((s.taken e).replayOver.answer 0 (s.ring 0).head.toNat stOk 0) := by
      refine congrArg _ ((ha.ring0_runs _).trans ?_)
      have hr' : (s.taken e).prs.replay = some r := hr
      simp [hr', hheld, hnoref]
    have hk := (s.taken e).replayOver_keepsPrs.trans (.of_goesOn (State.answer_goesOn _ 0 (s.ring 0).head.toNat stOk 0))
    refine ⟨_, he, ?_⟩
    rw [hk.prs, hk.nsb]
    exact ⟨rfl, rfl⟩

end

section
/-! PROOF. What of quarry the evaluation of requests leaves (R107, R270): everything but the decodes that end without their effect. -/

namespace Sys2Proof.Machine

/-! ## What leaves quarry as it is -/

theorem State.Logged.qry {s t : State} (h : s.Logged t) : t.qry = s.qry := by rw [h]
theorem State.Reports.qry {s t : State} (h : s.Reports t) : t.qry = s.qry := by rw [h]
theorem State.Sent.qry {s t : State} (h : s.Sent t) : t.qry = s.qry := by rw [h.frame]
theorem State.GoesOn.qry {s t : State} (h : s.GoesOn t) : t.qry = s.qry := by rw [h]
theorem State.Signals.qry {s t : State} (h : s.Signals t) : t.qry = s.qry := State.GoesOn.qry (s := { s with kst := t.kst }) h

theorem State.foldl_qry {α : Type} {f : State → α → State} (h : ∀ u a, (f u a).qry = u.qry) (l : List α) (s : State) : (l.foldl f s).qry = s.qry := by
  induction l generalizing s with
  | nil => rfl
  | cons a l ih => rw [List.foldl_cons, ih, h]

section
variable (s : State)

@[simp] theorem State.injReport_qry : s.injReport.qry = s.qry := rfl

@[simp] theorem State.traceDrain_qry (n : Nat) : (State.traceDrain n s).qry = s.qry := by
  induction n generalizing s with
  | zero => rfl
  | succ n ih =>
    unfold State.traceDrain
    split
    · rfl
    · split
      · rw [ih]
        rfl
      · rfl

@[simp] theorem State.post_qry (e : Ev) : (s.post e).qry = s.qry := by
  cases hc : isTraceCode e.code with
  | false => exact (s.post_logged e hc).qry
  | true =>
    rw [State.post, if_pos hc]
    unfold State.trace
    dsimp only
    split
    · rw [State.traceDrain_qry]
    · rfl

@[simp] theorem State.ev_qry (src code key w44 : Nat) (rest : List Byte) (inj : Bool) : (s.ev src code key w44 rest inj).qry = s.qry := s.post_qry _

@[simp] theorem State.leave_qry (x : Nat) (c : Ctx) : (s.leave x c).qry = s.qry := (s.leave_goesOn x c).qry
@[simp] theorem State.answer_qry (r c status result : Nat) : (s.answer r c status result).qry = s.qry := (s.answer_goesOn r c status result).qry
@[simp] theorem State.showFault_qry (x code off : Nat) : (s.showFault x code off).qry = s.qry := (s.showFault_reports x code off).qry
@[simp] theorem State.opGone_qry (x : Nat) : (s.opGone x).qry = s.qry := (s.opGone_goesOn x).qry
@[simp] theorem State.discardCtx_qry (x : Nat) : (s.discardCtx x).qry = s.qry := (State.select_goesOn ..).qry

@[simp] theorem State.sendMsg_qry (m : Msg) : (s.sendMsg m).qry = s.qry := ((State.Sent.refl s).sendMsg m).qry
@[simp] theorem State.link_qry (m : Msg) (c : Nat) (f : Bool) : (s.link m c f).qry = s.qry := ((State.Sent.refl s).link ..).qry
@[simp] theorem State.peerTraffic_qry (rs : List ObjRef) : (s.peerTraffic rs).qry = s.qry := (s.peerTraffic_sent rs).1.qry
@[simp] theorem State.sendHalf_qry (o : Op) (kind chunk hop : Nat) (f : Bool) (data : List Byte) : (s.sendHalf o kind chunk hop f data).qry = s.qry :=
  ((State.Sent.refl s).sendHalf ..).qry
@[simp] theorem State.gather_qry (c j : Nat) (f : Bool) : (s.gather c j f).qry = s.qry := ((State.Sent.refl s).gather ..).qry

/-! ## Capacity (R266, R273, R285) -/

@[simp] theorem State.takeUnits_qry (home n : Nat) : (s.takeUnits home n).qry = s.qry := by
  unfold State.takeUnits
  repeat' split
  all_goals rfl

@[simp] theorem State.giveUnits_qry (home n pages : Nat) : (s.giveUnits home n pages).1.qry = s.qry := by rw [s.giveUnits_frame]
@[simp] theorem State.vacate_qry (i : Nat) : (s.vacate i).1.qry = s.qry := by rw [s.vacate_frame]
@[simp] theorem State.dropPage_qry (i : Nat) : (s.dropPage i).1.qry = s.qry := (s.setObj i _).vacate_qry i
@[simp] theorem State.fresh_qry : s.fresh.2.qry = s.qry := rfl
@[simp] theorem State.newPlace_qry (i : Nat) : (s.newPlace i).qry = s.qry := rfl
@[simp] theorem State.install_qry (i : Nat) (o : Obj) : (s.install i o).qry = s.qry := rfl

@[simp] theorem State.giveDest_qry (o : Obj) : (s.giveDest o).1.qry = s.qry := by
  unfold State.giveDest
  repeat' split
  all_goals simp

@[simp] theorem State.pick_qry (c : List (Nat × Nat)) : (s.pick c).2.qry = s.qry := by
  unfold State.pick
  split <;> rfl

@[simp] theorem State.reclaim_qry (home n lim k : Nat) : (s.reclaim home n lim k).1.qry = s.qry := by
  induction k generalizing s with
  | zero => rfl
  | succ k ih =>
    have hp := s.pick_qry (s.dropCands home lim)
    unfold State.reclaim
    split
    · rfl
    · generalize s.pick (s.dropCands home lim) = r at hp ⊢
      obtain ⟨none | i, u⟩ := r <;> simpa [ih] using hp

@[simp] theorem State.evictFor_qry (n k : Nat) : (s.evictFor n k).qry = s.qry := by
  induction k generalizing s with
  | zero => rfl
  | succ k ih =>
    have hp := s.pick_qry s.evictCands
    unfold State.evictFor
    split
    · rfl
    · generalize s.pick s.evictCands = r at hp ⊢
      obtain ⟨none | i, u⟩ := r <;> simpa [ih] using hp

@[simp] theorem State.obtain_qry (home n lim : Nat) (append : Bool) : (s.obtain home n lim append).2.1.qry = s.qry := by
  unfold State.obtain
  dsimp only
  repeat' split
  all_goals simp

/-! ## Requests that are held or satisfied (R270) -/

@[simp] theorem State.request_qry (kind : LKind) (src : OpSrc) (i : Nat) (words : List Nat) : (s.request kind src i words).1.qry = s.qry := rfl

@[simp] theorem State.holdObj_qry (o : Op) (i : Nat) : (s.holdObj o i).qry = s.qry := by
  unfold State.holdObj
  repeat' split
  all_goals rfl

@[simp] theorem State.holdCap_qry (o : Op) (p : Nat) : (s.holdCap o p).qry = s.qry := by
  unfold State.holdCap
  split <;> rfl

@[simp] theorem State.unpin_qry (o : Op) : (s.unpin o).qry = s.qry := by rw [s.unpin_frame]

@[simp] theorem State.uncode_qry (o : Op) : (s.uncode o).qry = s.qry := by
  unfold State.uncode
  split <;> rfl

@[simp] theorem State.pinFor_qry (o : Op) (i : Nat) : (s.pinFor o i).1.qry = s.qry := by
  unfold State.pinFor
  split <;> rfl

@[simp] theorem State.endRing_qry (o : Op) (status result : Nat) : (s.endRing o status result).qry = s.qry := by
  unfold State.endRing
  dsimp only
  repeat' split
  all_goals simp

@[simp] theorem State.satisfied_qry (o : Op) (result : Nat) : (s.satisfied o result).qry = s.qry := by
  unfold State.satisfied
  split <;> simp

@[simp] theorem State.refusal_qry (i : Nat) : (s.refusal i).qry = s.qry := State.ev_qry ..

@[simp] theorem State.refuse_qry (o : Op) (i : Nat) : (s.refuse o i).qry = s.qry := by
  unfold State.refuse
  dsimp only
  split <;> simp

/-! ## Recompute and recovery (R225, R281 to R284) -/

@[simp] theorem State.startRecipe_qry (i x : Nat) : (s.startRecipe i x).qry = s.qry := by
  unfold State.startRecipe
  dsimp only
  split <;> simp

@[simp] theorem State.startRecipes_qry : s.startRecipes.qry = s.qry :=
  State.foldl_qry (fun u p => by split <;> simp) _ s

@[simp] theorem State.beginRecompute_qry (src : OpSrc) (i home : Nat) : (s.beginRecompute src i home).2.1.qry = s.qry := by
  unfold State.beginRecompute
  dsimp only
  split <;> simp

@[simp] theorem State.csumMismatch_qry (src i b : Nat) (inj : Bool) : (s.csumMismatch src i b inj).qry = s.qry := by
  unfold State.csumMismatch
  split <;> simp

@[simp] theorem State.noCopy_qry (i : Nat) (inj : Bool) : (s.noCopy i inj).qry = s.qry := State.ev_qry ..

@[simp] theorem State.recoverIn_qry (i src home : Nat) : (s.recoverIn i src home).qry = s.qry := by
  unfold State.recoverIn State.askPeer
  dsimp only
  repeat' split
  all_goals simp only [State.startRecipes_qry, State.sendMsg_qry, State.objZero_qry, State.setObj_qry, State.takeUnits_qry]

@[simp] theorem State.usable_qry (i skip : Nat) : (s.usable i skip).2.qry = s.qry := by
  unfold State.usable
  split <;> rfl

@[simp] theorem State.reclaim_if_qry (b : Prop) [Decidable b] (n k : Nat) : (if b then s.reclaim 0 n 4 k else (s, [])).1.qry = s.qry := by
  split <;> simp

@[simp] theorem State.recoverFrom_qry (i skip : Nat) (wait : Bool) : (s.recoverFrom i skip wait).1.qry = s.qry := by
  unfold State.recoverFrom
  dsimp only
  by_cases hw : s.warned = true
  · simp [hw]
  rw [if_neg hw]
  split
  · simp
  have hu := s.usable_qry i skip
  generalize s.usable i skip = r at hu ⊢
  obtain ⟨none | src, u⟩ := r
  · simpa using hu
  dsimp only at hu ⊢
  have ha := u.reclaim_if_qry ((s.obj i).home = 0) (s.obj i).size u.objs.length
  generalize (if (s.obj i).home = 0 then u.reclaim 0 (s.obj i).size 4 u.objs.length else (u, [])) = a at ha ⊢
  have hb := a.1.reclaim_if_qry ((s.obj i).home = 1) (s.obj i).size a.1.objs.length
  generalize (if (s.obj i).home = 1 then a.1.reclaim 0 (s.obj i).size 4 a.1.objs.length else (a.1, [])) = b at hb ⊢
  repeat' split
  all_goals simp [hu, ha, hb]

@[simp] theorem State.poison_qry (i addr : Nat) (inj : Bool) : (s.poison i addr inj).1.qry = s.qry := by
  unfold State.poison
  dsimp only
  repeat' split
  all_goals simp

@[simp] theorem State.verify_qry (src : Nat) (rs : List ObjRef) : (s.verify src rs).2.1.qry = s.qry := by
  unfold State.verify
  dsimp only
  repeat' split
  all_goals simp

@[simp] theorem State.recovered_qry (i src : Nat) : (s.recovered i src).1.qry = s.qry := by
  unfold State.recovered
  dsimp only
  repeat' split
  all_goals simp

@[simp] theorem State.recomputeDone_qry (i : Nat) : (s.recomputeDone i).1.qry = s.qry := by
  unfold State.recomputeDone
  dsimp only
  repeat' split
  all_goals simp

/-! ## Arch operations (R302 to R304) -/

@[simp] theorem State.writeHalf_qry (o : Op) (j : Nat) (b : Bool) (data : List Byte) : (s.writeHalf o j b data).qry = s.qry := by
  unfold State.writeHalf State.writeCodes
  split
  · exact State.foldl_qry (fun _ _ => State.objWrite_qry ..) _ s
  · rfl

@[simp] theorem State.startColl_qry (o : Op) : (s.startColl o).qry = s.qry := by
  unfold State.startColl
  dsimp only
  split <;> simp

@[simp] theorem State.launch_qry (o : Op) : (s.launch o).qry = s.qry := by
  unfold State.launch
  split <;> simp

/-! ## Detections (R100, R189, R249 to R256, R280) -/

@[simp] theorem State.markLine_qry (i blk line : Nat) : (s.markLine i blk line).qry = s.qry := rfl

@[simp] theorem State.markFailed_qry (p seq : Nat) (inj : Bool) : (s.markFailed p seq inj).qry = s.qry := by
  unfold State.markFailed
  dsimp only
  split <;> rfl

@[simp] theorem State.spadDetect_qry (k addr : Nat) (c inj : Bool) : (s.spadDetect k addr c inj).qry = s.qry := by
  unfold State.spadDetect
  dsimp only
  repeat' split
  all_goals simp

@[simp] theorem State.rowFails_qry (r : RowId) (inj : Bool) : (s.rowFails r inj).qry = s.qry := by
  unfold State.rowFails
  dsimp only
  repeat' split
  all_goals simp

@[simp] theorem State.ftgCorr_qry (r : RowId) (lane addr : Nat) (inj : Bool) : (s.ftgCorr r lane addr inj).qry = s.qry := by
  unfold State.ftgCorr
  dsimp only
  split <;> simp

@[simp] theorem State.ftgUncorr_qry (r : RowId) (addr i blk : Nat) (reads inj : Bool) : (s.ftgUncorr r addr i blk reads inj).qry = s.qry := by
  unfold State.ftgUncorr
  dsimp only
  split <;> simp

@[simp] theorem State.loseEntry_qry (i b : Nat) : (s.loseEntry i b).qry = s.qry := rfl

@[simp] theorem State.sideUncorr_qry (r : RowId) (addr : Nat) (l : List (Nat × Nat)) (stays inj : Bool) :
    (s.sideUncorr r addr l stays inj).qry = s.qry := by
  unfold State.sideUncorr
  dsimp only
  split
  · simpa using State.foldl_qry (fun _ _ => State.loseEntry_qry ..) l (s.setStack ..)
  · simp

@[simp] theorem State.empty_qry (g : Nat) : (s.empty g).qry = s.qry := State.foldl_qry (fun _ _ => State.request_qry ..) _ _

@[simp] theorem State.quarantine_qry (src g : Nat) (inj : Bool) : (s.quarantine src g inj).qry = s.qry := by
  unfold State.quarantine
  dsimp only
  split <;> simp

@[simp] theorem State.ucfUncorr_qry (ch addr i blk : Nat) (inj : Bool) : (s.ucfUncorr ch addr i blk inj).qry = s.qry := by
  unfold State.ucfUncorr
  dsimp only
  repeat' split
  all_goals simp only [State.quarantine_qry, State.ev_qry, State.markLine_qry]

@[simp] theorem State.ucfCorr_qry (ch addr : Nat) (inj : Bool) : (s.ucfCorr ch addr inj).qry = s.qry := State.ev_qry ..
@[simp] theorem State.mtrCorr_qry (slice addr : Nat) (inj : Bool) : (s.mtrCorr slice addr inj).qry = s.qry := State.ev_qry ..
@[simp] theorem State.mtrUncorr_qry (slice addr case cls handle : Nat) (inj : Bool) : (s.mtrUncorr slice addr case cls handle inj).qry = s.qry :=
  State.post_qry ..

@[simp] theorem State.reported_qry {f : State → Bool → State} (h : ∀ u b, (f u b).qry = u.qry) (code src addr unit : Nat) :
    (s.reported code src addr unit f).qry = s.qry := by
  unfold State.reported
  split <;> simp [h]

@[simp] theorem State.bar2Refuse_qry (r : ObjRef) : (s.bar2Refuse r).qry = s.qry := by
  unfold State.bar2Refuse
  dsimp only
  split <;> simp [State.hifFault]

end

section
variable (f : Found)

@[simp] theorem Found.poison_qry (i addr : Nat) (inj : Bool) : (f.poison i addr inj).s.qry = f.s.qry := State.poison_qry ..

@[simp] theorem Found.injMismatch_qry (src code at_ addr i b : Nat) {r : State → State} (hr : ∀ u, (r u).qry = u.qry) :
    (f.injMismatch src code at_ addr i b r).s.qry = f.s.qry := by
  unfold Found.injMismatch
  dsimp only
  split <;> simp [hr]

@[simp] theorem Found.foldl_poison_qry (l : List (Nat × Nat)) (inj : Bool) :
    (l.foldl (fun (f : Found) (p : Nat × Nat) => f.poison p.1 (f.s.blockAddr p.1 p.2) inj) f).s.qry = f.s.qry := by
  induction l generalizing f with
  | nil => rfl
  | cons p l ih => rw [List.foldl_cons, ih, Found.poison_qry]

@[simp] theorem Found.detect_qry (src k : Nat) (rs : List ObjRef) (d : Detect) : (Found.detect src k rs f d).s.qry = f.s.qry := by
  cases d
  all_goals
    unfold Found.detect
    dsimp only
    repeat' split
  all_goals simp [State.foldl_qry]

theorem Found.foldl_detect_qry (src k : Nat) (rs : List ObjRef) (l : List Detect) : (l.foldl (Found.detect src k rs) f).s.qry = f.s.qry := by
  induction l generalizing f with
  | nil => rfl
  | cons d l ih => rw [List.foldl_cons, ih, Found.detect_qry]

end

@[simp] theorem State.armedAt_qry (s : State) (src : Nat) (rs : List ObjRef) : (s.armedAt src rs).2.qry = s.qry := by
  unfold State.armedAt
  dsimp only
  repeat' split
  all_goals rfl

@[simp] theorem State.detect_qry (s : State) (src k : Nat) (rs : List ObjRef) (ds : List Detect) : (s.detect src k rs ds).s.qry = s.qry := by
  simp [State.detect, Found.foldl_detect_qry]

end Sys2Proof.Machine
end

section
/-! PROOF. Settlement and quarry (R107, R270, R356): evaluation drops decodes from the queue and from engines, and changes no more of quarry. -/

namespace Sys2Proof.Machine

/-- `r` is `q` but for decodes that have left the queue and the engines. -/
structure Qry.Drops (q r : Qry) : Prop where
  frame : r = { q with queue := r.queue, engines := r.engines }
  engines : r.engines ⊆ q.engines

@[simp] theorem Qry.Drops.refl (q : Qry) : q.Drops q := ⟨rfl, List.Subset.refl _⟩

theorem Qry.Drops.trans {q r t : Qry} (h : q.Drops r) (k : r.Drops t) : q.Drops t := by
  refine ⟨?_, List.Subset.trans k.engines h.engines⟩
  rw [k.frame, h.frame]

namespace Qry.Drops

variable {q r : Qry} (h : q.Drops r)
include h

theorem fault : r.fault = q.fault := by rw [h.frame]
theorem pics : r.pics = q.pics := by rw [h.frame]
theorem streams : r.streams = q.streams := by rw [h.frame]

/-- An engine that the table does not list stays idle. -/
theorem idle {e : Nat} (he : ∀ p ∈ q.engines, p.1 ≠ e) : Tab.get none r.engines e = none :=
  Tab.get_absent _ _ _ fun p hp => he p (h.engines hp)

end Qry.Drops

theorem State.foldl_drops {α : Type} {f : State → α → State} (h : ∀ (u : State) (a : α), u.qry.Drops (f u a).qry) (l : List α) (s : State) :
    s.qry.Drops (l.foldl f s).qry := by
  induction l generalizing s with
  | nil => exact .refl _
  | cons a l ih => exact (h s a).trans (ih _)

/-! ## Operations that end without their effect (R107, R273) -/

section
variable {q : Qry} {s : State} (h : s.qry = q)
include h

@[simp] theorem State.asyncFault_drops (o : Op) (code : Nat) (inj : Bool) (key w44 : Option Nat) : q.Drops (s.asyncFault o code inj key w44).qry := by
  have hc : q.Drops (((s.unpin o).dropOp o.id).clearUnits o.id).qry := by
    rw [← h, ← s.unpin_qry o]
    exact ⟨rfl, List.filter_subset_self _⟩
  unfold State.asyncFault
  dsimp only
  repeat' split
  all_goals simpa using hc

@[simp] theorem State.exhausted_drops (o : Op) (inj : Bool) : q.Drops (s.exhausted o inj).qry := by
  unfold State.exhausted
  dsimp only
  repeat' split
  all_goals simp [h]

@[simp] theorem State.awaitCap_drops (o : Op) (p : Nat) : q.Drops (s.awaitCap o p).qry := by
  unfold State.awaitCap
  repeat' split
  all_goals simp [h]

@[simp] theorem State.askRecompute_drops (o : Op) (i home : Nat) : q.Drops (s.askRecompute o i home).1.qry := by
  unfold State.askRecompute
  dsimp only
  repeat' split
  all_goals simp [h]

end

/-! ## State against request (R270) -/

section
variable (s : State) (o : Op) (i : Nat)

@[simp] theorem State.beginMove_drops {q : Qry} (h : s.qry = q) (home node : Nat) : q.Drops (s.beginMove o i home node).1.qry := by
  unfold State.beginMove State.askPeer
  dsimp only
  repeat' split
  all_goals simp [h]

theorem State.evalPromote_drops : s.qry.Drops (s.evalPromote o i).1.qry := by
  unfold State.evalPromote
  dsimp only
  repeat' split
  all_goals simp

theorem State.evalDemote_drops : s.qry.Drops (s.evalDemote o i).1.qry := by
  unfold State.evalDemote
  dsimp only
  repeat' split
  all_goals simp

theorem State.evalDrop_drops : s.qry.Drops (s.evalDrop o i).1.qry := by
  unfold State.evalDrop
  dsimp only
  repeat' split
  all_goals simp

theorem State.evalAppend_drops : s.qry.Drops (s.evalAppend o i).1.qry := by
  unfold State.evalAppend State.appendLine
  dsimp only
  repeat' split
  all_goals simp

theorem State.evalTrim_drops : s.qry.Drops (s.evalTrim o i).1.qry := by
  unfold State.evalTrim
  dsimp only
  repeat' split
  all_goals simp

theorem State.evalPin_drops : s.qry.Drops (s.evalPin o i).1.qry := by
  unfold State.evalPin
  dsimp only
  split <;> simp

theorem State.evalUnpin_drops : s.qry.Drops (s.evalUnpin o i).1.qry := by
  simp [State.evalUnpin]

@[simp] theorem State.freeObj_drops {q : Qry} (h : s.qry = q) : q.Drops (s.freeObj i).1.qry := by
  unfold State.freeObj
  dsimp only
  refine .trans (r := s.qry) (by simp [h]) (.trans ?_ (State.foldl_drops (fun u id => ?_) (s.heldAt i) _))
  · split <;> simp
  · repeat' split
    all_goals simp

theorem State.evalDestroy_drops : s.qry.Drops (s.evalDestroy o i).1.qry := by
  unfold State.evalDestroy
  repeat' split
  all_goals simp

theorem State.evalCreate_drops : s.qry.Drops (s.evalCreate o).1.qry := by
  unfold State.evalCreate
  dsimp only
  repeat' split
  all_goals simp

theorem State.evalLeave_drops : s.qry.Drops (s.evalLeave o).1.qry := by
  unfold State.evalLeave
  dsimp only
  repeat' split
  all_goals simp

theorem State.evalRecover_drops : s.qry.Drops (s.evalRecover o).1.qry := by
  unfold State.evalRecover
  dsimp only
  split <;> simp

theorem State.evalRecv_drops : s.qry.Drops (s.evalRecv o).1.qry := by
  unfold State.evalRecv
  repeat' split
  all_goals simp

theorem State.evalHost_drops : s.qry.Drops (s.evalHost o).1.qry := by
  unfold State.evalHost
  dsimp only
  repeat' split
  all_goals simp [State.late, State.hifFault]

theorem State.foldl_pinFor_qry (f : ObjRef → Bool) (l : List ObjRef) :
    (l.foldl (fun (p : State × Op) r => if f r then p.1.pinFor p.2 (hIdx r.h) else p) (s, o)).1.qry = s.qry := by
  induction l generalizing s o with
  | nil => rfl
  | cons r l ih =>
    rw [List.foldl_cons]
    split
    · exact (ih ..).trans (s.pinFor_qry o _)
    · exact ih s o

theorem State.evalAccess_drops : s.qry.Drops (s.evalAccess o).1.qry := by
  unfold State.evalAccess
  dsimp only
  split
  · split <;> simp
  · have hv : (if o.kind.arch then s.verify (srcOf 0x07 o.arcCourse) ((s.refs o).filter (fun r => !r.wr)) else (false, s, [])).2.1.qry = s.qry := by
      split <;> simp
    generalize (if o.kind.arch then s.verify (srcOf 0x07 o.arcCourse) ((s.refs o).filter (fun r => !r.wr)) else (false, s, [])) = r at hv ⊢
    split
    · simp [hv]
    · rw [State.launch_qry, State.foldl_pinFor_qry _ _ (fun r => o.kind.pins && !(o.kind.arch && r.wr)), hv]
      exact .refl _

/-! ## Settlement -/

theorem State.eval_drops : s.qry.Drops (s.eval o).1.qry := by
  unfold State.eval
  dsimp only
  split
  · exact s.evalPin_drops ..
  · exact s.evalUnpin_drops ..
  · exact s.evalPromote_drops ..
  · exact s.evalPromote_drops ..
  · exact s.evalDemote_drops ..
  · exact s.evalDemote_drops ..
  · exact s.evalDrop_drops ..
  · exact s.evalAppend_drops ..
  · exact s.evalTrim_drops ..
  · exact s.evalDestroy_drops ..
  · exact s.evalCreate_drops ..
  · exact s.evalLeave_drops ..
  · exact s.evalRecover_drops ..
  · exact s.evalHost_drops ..
  · exact s.evalHost_drops ..
  · exact s.evalRecv_drops ..
  · exact s.evalAccess_drops ..

end

theorem State.settleN_drops (s : State) (n : Nat) (l : List Nat) : s.qry.Drops (s.settleN n l).qry := by
  induction n generalizing s l with
  | zero => exact .refl _
  | succ n ih =>
    cases l with
    | nil => exact .refl _
    | cons id rest =>
      unfold State.settleN
      split
      · exact (s.eval_drops _).trans (ih ..)
      · exact ih ..

theorem State.settle_drops (s : State) (l : List Nat) : s.qry.Drops (s.settle l).qry := by
  have hfetch (u : State) : u.GoesOn u.wakeFetch := .foldl (fun u _ => u.wake_if_goesOn ..) _ u
  rw [State.settle, ((hfetch _).trans (State.park_goesOn _)).qry]
  exact s.settleN_drops ..

theorem State.settleRecomputes_drops (s : State) : s.qry.Drops s.settleRecomputes.qry :=
  State.foldl_drops (fun u i => by
    have h := (u.recomputeDone i).1.settle_drops (u.recomputeDone i).2
    rwa [u.recomputeDone_qry i] at h) _ s

end Sys2Proof.Machine
end

section
/-! PROOF. ING.OPEN and ING.CLOSE, and the start, the end and the abandonment of a decode (R356, R361, R367), and the obligation. -/

namespace Sys2Proof

/-- Writing the default of a table delists its key. -/
theorem Tab.set_default_absent {α : Type} [DecidableEq α] {d : α} {t : Tab α} {k : Nat} : ∀ p ∈ Tab.set d t k d, p.1 ≠ k := by
  intro p hp
  simp only [Tab.set, Tab.setRange, Tab.enc, if_true, List.append_nil, List.mem_append, List.mem_filter, decide_eq_true_eq, List.length_singleton] at hp
  omega

end Sys2Proof

namespace Sys2Proof.Machine

/-! ## The end of an operation (R97) -/

theorem State.signalShort_qry (s : State) (k : Nat) (sig : Option Nat) : (s.signalShort k sig).qry = s.qry :=
  State.Signals.qry (.signalShort ..)

/-- What the end of an operation sends and signals comes before what it lets be evaluated. -/
theorem State.finishOp_settles (s : State) (o : Op) : ((s.peerTraffic (s.refs o)).signalShort o.core o.sig).Settles (s.finishOp o) ∨ s.finishOp o = s := by
  unfold State.finishOp
  split
  case h_4 x _ =>
    let u := (s.peerTraffic (s.refs o)).signalShort o.core o.sig
    have hpin : u.Settles (if o.keepsPin then u else u.unpin o) := by
      split
      · exact .refl u
      · exact (State.Settles.refl u).unpin o
    exact .inl (((hpin.dropOp _).opGone x).foldl _ _ (fun _ _ h => h.settleObj _)).settleRecomputes
  all_goals exact .inr rfl

theorem State.finishOp_nsb (s : State) (o : Op) : (s.finishOp o).nsb = s.nsb := by
  rcases s.finishOp_settles o with h | h
  · exact h.nsb.trans ((State.signalShort_keepsObjects ..).nsb.trans (s.peerTraffic_sent _).1.nsb)
  · rw [h]

theorem State.finishOp_drops (s : State) (o : Op) : s.qry.Drops (s.finishOp o).qry := by
  unfold State.finishOp
  split
  case h_4 x _ =>
    dsimp only
    refine .trans ?_ (State.settleRecomputes_drops _)
    refine .trans ?_ (State.foldl_drops (fun u i => u.settle_drops (u.heldOn i)) _ _)
    split <;> simp [State.signalShort_qry]
  all_goals exact .refl _

/-! ## ING.OPEN and ING.CLOSE (R361) -/

/-- The contexts after an ING.OPEN or an ING.CLOSE whose completion takes no pin away. -/
theorem State.longOpComplete_ing {s : State} {id : Nat} {o : Op} (h : s.EndsOutbound id o) (hp : o.pinned = [])
    (hk : o.kind = .ingOpen ∨ o.kind = .ingClose ∧ s.decodesBefore o = []) :
    (s.longOpComplete id []).findOp id = none ∧ (s.longOpComplete id []).objMem = s.objMem ∧ (s.longOpComplete id []).qry = (s.ingEffect o).qry := by
  let u := s.ingEffect o
  have he : s.longOpComplete id [] = (u.finishOp o).settle [] := by
    have hst := h.started
    simp only [State.longOpComplete, h.found, h.unit]
    rcases hk with hk | ⟨hk, hb⟩
    · simp [State.completable, State.endReads, hk, hst, State.detect_nil h.unarmed, h.reached, u]
    · simp [State.completable, State.endReads, hk, hb, hst, State.detect_nil h.unarmed, h.reached, u]
  have hend := (State.finishOp_signals (s := u) h.ctx hp h.quiet.recompute h.none).trans (.of_goesOn (State.settle_nil_goesOn _))
  have hsent := (u.peerTraffic_sent (u.refs o)).1
  rw [h.number] at hend
  rw [he]
  exact ⟨(hend.keepsObjects.findOp id).trans (State.findOp_dropOp ..), hend.keepsObjects.objMem.trans hsent.objMem, hend.qry.trans hsent.qry⟩

/-! ## The start of a decode (R356) -/

/-- An internal pin leaves the number and the kind of its operation, and the numbers in flight. -/
theorem State.pinFor_spec (s : State) (o : Op) (i : Nat) :
    (s.pinFor o i).2.id = o.id ∧ (s.pinFor o i).2.kind = o.kind ∧ ((∃ q ∈ s.ops, q.id = o.id) → ∃ q ∈ (s.pinFor o i).1.ops, q.id = o.id) := by
  unfold State.pinFor
  split
  · exact ⟨rfl, rfl, id⟩
  · exact ⟨rfl, rfl, fun ⟨q, hq, hid⟩ => ⟨_, State.mem_setOp (s := s.setObj ..) hq hid, rfl⟩⟩

/-- The state and the operation once it has pinned what `l` reaches. -/
def State.pinRefs (s : State) (o : Op) (l : List ObjRef) : State × Op := l.foldl (fun p r => p.1.pinFor p.2 (hIdx r.h)) (s, o)

theorem State.pinRefs_qry (s : State) (o : Op) (l : List ObjRef) : (s.pinRefs o l).1.qry = s.qry := s.foldl_pinFor_qry o (fun _ => true) l

theorem State.pinRefs_spec (s : State) (o : Op) (l : List ObjRef) :
    (s.pinRefs o l).2.id = o.id ∧ (s.pinRefs o l).2.kind = o.kind ∧ ((∃ q ∈ s.ops, q.id = o.id) → ∃ q ∈ (s.pinRefs o l).1.ops, q.id = o.id) := by
  induction l generalizing s o with
  | nil => exact ⟨rfl, rfl, id⟩
  | cons r l ih =>
    obtain ⟨hid, hkind, hmem⟩ := s.pinFor_spec o (hIdx r.h)
    obtain ⟨hid', hkind', hmem'⟩ := ih (s.pinFor o (hIdx r.h)).1 (s.pinFor o (hIdx r.h)).2
    exact ⟨hid'.trans hid, hkind'.trans hkind, fun h => hid ▸ hmem' (hid.symm ▸ hmem h)⟩

/-- A decode that reaches what it names pins it and starts. -/
theorem State.eval_ingDecode {s : State} {o : Op} (hk : o.kind = .ingDecode) (hr : (s.refs o).all (s.reaches o.src) = true) :
    s.eval o = ((s.pinRefs o (s.refs o)).1.setOp { (s.pinRefs o (s.refs o)).2 with st := .started }, []) := by
  have hfind : (s.refs o).find? (fun r => !s.reaches o.src r) = none := by simpa using hr
  have hlaunch : (s.pinRefs o (s.refs o)).1.launch (s.pinRefs o (s.refs o)).2
      = (s.pinRefs o (s.refs o)).1.setOp { (s.pinRefs o (s.refs o)).2 with st := .started } := by
    obtain ⟨-, hkind, -⟩ := s.pinRefs_spec o (s.refs o)
    simp only [State.launch, hkind, hk]
  rw [← hlaunch]
  simp [State.eval, hk, State.evalAccess, hfind, LKind.arch, LKind.pins, State.pinRefs]

/-- The queue's choice is an operation in flight. -/
theorem State.mem_of_findSome {s : State} {l : List Nat} {f : Op → Bool} {o : Op}
    (h : l.findSome? (fun id => (s.findOp id).filter f) = some o) : o ∈ s.ops := by
  obtain ⟨id, -, hid⟩ := List.exists_of_findSome?_eq_some h
  exact List.mem_of_find?_eq_some (Option.filter_eq_some_iff.1 hid).1

/-- Quarry once engine `e` has taken decode `o` from the queue. -/
def Qry.begun (q : Qry) (e : Nat) (o : Op) : Qry :=
  { q with queue := q.queue.filter (fun i => i != o.id), engines := Tab.set none q.engines e (some o.id) }

/-- An idle engine begins a decode that nothing holds. -/
theorem State.decodeStart_begins {s : State} {e : Nat} {o : Op} (he : s.engine e = none) (hw : s.warned = false) (hk : o.kind = .ingDecode)
    (hs : (Tab.get none s.qry.streams o.stream).isSome = true)
    (hq : s.qry.queue.findSome? (fun id => (s.findOp id).filter (fun o => !s.decoding.contains o.stream && (s.decodesBefore o).isEmpty)) = some o)
    (hn : (s.refs o).all (fun r => s.named r.h) = true) (hr : (s.refs o).all (s.reaches o.src) = true) :
    (s.decodeStart e).qry = s.qry.begun e o ∧ ∃ q ∈ (s.decodeStart e).ops, q.id = o.id ∧ q.st = .started := by
  let u : State := { s with qry := s.qry.begun e o }
  let p := u.pinRefs o (u.refs o)
  have hopen : (Tab.get none s.qry.streams o.stream).isNone = false := by simpa [Option.isNone_eq_false_iff] using hs
  have hnamed : (s.refs o).any (fun r => !s.named r.h) = false := by simpa using hn
  have hd : s.decodeStart e = (u.eval o).1.settle (u.eval o).2 := by
    simp only [State.decodeStart, he, hw, hq, hopen, Option.isSome_none, Bool.or_false, Bool.false_eq_true, if_false, Bool.false_or]
    exact if_neg (Bool.eq_false_iff.1 hnamed)
  obtain ⟨hid, -, hmem⟩ := u.pinRefs_spec o (u.refs o)
  obtain ⟨q, hq, hqid⟩ := hmem ⟨o, State.mem_of_findSome hq, rfl⟩
  have hgo := State.settle_nil_goesOn (p.1.setOp { p.2 with st := .started })
  rw [hd, State.eval_ingDecode (s := u) hk hr, hgo.qry, hgo.keepsObjects.ops]
  exact ⟨u.pinRefs_qry o _, _, State.mem_setOp hq (hqid.trans hid.symm), hid, rfl⟩

/-! ## The end of a decode (R361, R365, R368) -/

section
variable (s : State)

theorem State.qryEv_qry (e code bit : Nat) (hit inj : Bool) :
    (s.qryEv e code bit hit inj).qry = { s.qry with fault := (s.qryEv e code bit hit inj).qry.fault } := by
  unfold State.qryEv
  split <;> simp

@[simp] theorem State.qryEv_pics (e code bit : Nat) (hit inj : Bool) : (s.qryEv e code bit hit inj).qry.pics = s.qry.pics := by
  rw [State.qryEv_qry]

@[simp] theorem State.qryEv_nsb (e code bit : Nat) (hit inj : Bool) : (s.qryEv e code bit hit inj).nsb = s.nsb := by
  unfold State.qryEv
  split
  · exact (State.Settles.ev (.refl _) ..).nsb
  · rfl

@[simp] theorem State.applyEff_qry (f : Eff) : (s.applyEff f).qry = s.qry :=
  State.foldl_qry (fun u w => by cases w <;> rfl) f.wrs s

@[simp] theorem State.applyEff_nsb (f : Eff) : (s.applyEff f).nsb = s.nsb := by
  have hwr (l : List Wr) (u : State) : (l.foldl State.wr u).nsb = u.nsb := by
    induction l generalizing u with
    | nil => rfl
    | cons w l ih =>
      rw [List.foldl_cons, ih]
      cases w <;> rfl
  exact hwr f.wrs s

end

/-- A decode that ends counts its picture. -/
theorem State.picture_spec {s : State} (hu : s.Unarmed) (e : Nat) (o : Op) (q : Stream) :
    (s.picture e o q).qry.pics = s.qry.pics + 1 ∧ (s.picture e o q).nsb = s.nsb := by
  simp only [State.picture, State.injCheck_unarmed hu, ite_self]
  simp

/-- A started decode that reaches what it names, sound, ends: its picture, an idle engine, and the common end of an operation. -/
theorem State.decodeComplete_ends {s : State} {e : Nat} {o : Op} {q : Stream} (hu : s.Unarmed) (he : s.engine e = some o)
    (hs : Tab.get none s.qry.streams o.stream = some q) (hst : o.st = .started) (hb : s.bad = []) (hr : (s.refs o).all (s.reaches o.src) = true) :
    s.decodeComplete e [] = (((s.picture e o q).setEngine e none).finishOp o).settle [] := by
  simp only [State.decodeComplete, he, hs, hst, s.detect_nothing _ _ _ hu (State.badIn_of_bad_nil hb _), hr]
  rfl

/-! ## The watchdog (R367) -/

/-- Quarry once the watchdog has reset engine `e` and closed context `c`. -/
def Qry.abandoned (q : Qry) (e c : Nat) : Qry :=
  { q with fault := setBit q.fault 5 true, engines := Tab.set none q.engines e none, streams := Tab.set none q.streams c none }

/-- In throughput mode quarry is left with the context closed and the engine idle, but for decodes that end meanwhile. -/
theorem State.qryWdog_drops {s : State} {e : Nat} {o : Op} {q : Stream} (hu : s.Unarmed) (he : s.engine e = some o)
    (hs : Tab.get none s.qry.streams o.stream = some q) (hg : q.guarded = false) : (s.qry.abandoned e o.stream).Drops (s.qryWdog e).qry := by
  simp only [State.qryWdog, he, hs, hg, State.injCheck_unarmed hu, Bool.false_eq_true, if_false]
  refine .trans ?_ (State.foldl_drops (fun u i => u.settle_drops (u.heldOn i)) _ _)
  split <;> simp [State.qryEv, State.setEngine, Qry.abandoned]

/-- In guarded mode the watchdog does nothing (R368). -/
theorem State.qryWdog_guarded {s : State} {e : Nat} {o : Op} {q : Stream} (he : s.engine e = some o)
    (hs : Tab.get none s.qry.streams o.stream = some q) (hg : q.guarded = true) : s.qryWdog e = s := by
  simp only [State.qryWdog, he, hs, hg, if_true]

end Sys2Proof.Machine

/-! ## The obligation -/

open Sys2Proof Sys2Proof.Machine

/-- Settles O42: what ends an operation or abandons it lets requests be evaluated, which takes decodes from the queue and from engines and changes no more of
quarry (`State.settle_drops`). -/
theorem decodes : Obligations.Decodes := by
  unfold Obligations.Decodes
  intro s e hu
  refine ⟨fun id o h hp => ⟨fun hk => ?_, fun hk hb => ?_⟩, fun o he hw _ hk hs hq hn hr => ?_, fun o q he hs hst hb hr => ?_, fun o q he hs hg => ?_,
    fun o q he hs hg => ?_⟩
  · obtain ⟨hfind, hmem, hqry⟩ := State.longOpComplete_ing h hp (.inl hk)
    refine ⟨_, rfl, hfind, hmem, ?_⟩
    rw [hqry]
    simp [State.ingEffect, hk]
  · obtain ⟨hfind, hmem, hqry⟩ := State.longOpComplete_ing h hp (.inr ⟨hk, hb⟩)
    refine ⟨_, rfl, hfind, hmem, ?_⟩
    rw [hqry]
    simp [State.ingEffect, hk]
  · obtain ⟨hqry, hstart⟩ := State.decodeStart_begins he hw hk hs hq hn hr
    refine ⟨_, rfl, ?_, ?_, hstart⟩
    · rw [hqry]
      exact Tab.get_set ..
    · rw [hqry]
      simp [Qry.begun]
  · obtain ⟨hpics, hnsb⟩ := State.picture_spec hu e.val o q
    let v := (s.picture e.val o q).setEngine e.val none
    have hdrops := (v.finishOp_drops o).trans (State.settle_drops _ [])
    refine ⟨_, congrArg Host.Outcome.next (State.decodeComplete_ends hu he hs hst hb hr), hdrops.pics.trans hpics, hdrops.idle Tab.set_default_absent, ?_⟩
    exact (State.settle_nil_keepsObjects _).nsb.trans ((v.finishOp_nsb o).trans hnsb)
  · have hdrops := State.qryWdog_drops hu he hs hg
    refine ⟨_, rfl, hdrops.idle Tab.set_default_absent, ?_, ?_, hdrops.pics⟩
    · rw [hdrops.streams]
      exact Tab.get_set ..
    · rw [hdrops.fault]
      simp [Qry.abandoned, setBit]
  · exact congrArg Host.Outcome.next (State.qryWdog_guarded he hs hg)

end

section
/-! PROOF. The checks common to every command of ring 0 (R381, R382, R423), and the obligation. -/

namespace Sys2Proof.Machine

variable {s : State} {op : Nat} {e : BitVec 512}

/-- What mason makes of an entry that it takes: the common checks, in their order, before the command itself. -/
theorem State.Takes.ring0_eq (h : s.Takes op e) (run : State → Nat → State) (waits : Bool) :
    s.ring0 op e run waits =
      if !entHead e || !entZeros op e then s.answers e stMalformed 0
      else if s.pln.stage < 8 then s.answers e stNojob 0
      else if s.pln.stopped && op ≠ 0x11 && op ≠ 0x13 then s.answers e stRefused 0
      else if s.warned || waits then s
      else run (s.taken e) (s.ring 0).head.toNat := by
  simp [State.ring0, State.answers, State.taken, h.free, h.entry, h.opcode]

/-- The commands of ring 0 with their opcodes (R381). -/
def ring0Commands (e : BitVec 512) (ds : List Detect) (reports : List Neighbour) : List (Nat × Instr) :=
  [(0x01, .create e), (0x02, .destroy e), (0x03, .promote e), (0x04, .demote e), (0x05, .registerClass e), (0x06, .codeLoad e),
    (0x10, .jobStart e reports), (0x11, .preempt e), (0x12, .resume e), (0x13, .jobStop e), (0x14, .restore ⟨e, ds⟩), (0x15, .sourceDone e), (0x16, .continueJob e)]

/-- Every command of ring 0 passes the common checks; RESUME does while no capture holds the contexts. -/
theorem exec_ring0Commands (hcap : s.prs.capture = .none) (ds : List Detect) (reports : List Neighbour) :
    ∀ p ∈ ring0Commands e ds reports, ∃ run waits, exec p.2 s = .next (s.ring0 p.1 e run waits) := by
  have hresume : execResume e s = .next (s.ring0 0x12 e fun s c => (s.ctxKeys.foldl State.resumeCtx s).answer 0 c stOk 0) := by
    simp [execResume, hcap]
  simp only [ring0Commands, List.forall_mem_cons]
  exact ⟨⟨_, _, rfl⟩, ⟨_, _, rfl⟩, ⟨_, _, rfl⟩, ⟨_, _, rfl⟩, ⟨_, _, rfl⟩, ⟨_, _, rfl⟩, ⟨_, _, rfl⟩, ⟨_, _, rfl⟩, ⟨_, _, hresume⟩, ⟨_, _, rfl⟩,
    ⟨_, _, rfl⟩, ⟨_, _, rfl⟩, ⟨_, _, rfl⟩, List.forall_mem_nil _⟩

end Sys2Proof.Machine

/-! ## The obligation -/

open Sys2Proof Sys2Proof.Machine

/-- Settles O43: the checks stand before what the command itself does, and answer alike for every opcode. -/
theorem ringChecks : Obligations.RingChecks := by
  unfold Obligations.RingChecks
  intro s op e c ds reports hc htakes hcap
  obtain ⟨run, waits, hexec⟩ := exec_ring0Commands hcap ds reports (op, c) hc
  rw [hexec, htakes.ring0_eq]
  refine ⟨fun hbad => ?_, fun hhead hzeros hstage => ?_, fun hhead hzeros hstage hstop hpre hjob => ?_⟩
  · rw [Bool.and_eq_false_iff] at hbad
    rw [if_pos (by simpa using hbad)]
  · simp [hhead, hzeros, hstage]
  · simp [hhead, hzeros, Nat.not_lt.2 hstage, hstop, hpre, hjob]

end

section
/-! PROOF. The ring registers (R378 to R380), and the obligation. -/

namespace Sys2Proof.Machine

variable {s : State}

theorem State.HostUp.hostAccess (h : s.HostUp) (i : Instr) (f : State → State) : s.hostAccess i f = f s := by
  simp [State.hostAccess, h.link, Nat.not_lt.2 h.started, h.credits]

@[simp] theorem State.setRing_ring (s : State) (r : Nat) (g : Ring) : (s.setRing r g).ring r = g := Tab.get_set ..

@[simp] theorem State.setRing_hif_fault (s : State) (r : Nat) (g : Ring) : (s.setRing r g).hif.fault = s.hif.fault := rfl

/-- HIF_RING_ERR leaves the rings alone and shows in HIF_FAULT. -/
theorem State.ringErr_spec (s : State) (r v : Nat) (inj : Bool) : (∀ q, (s.ringErr r v inj).ring q = s.ring q) ∧ (s.ringErr r v inj).hif.fault.getLsbD 0 = true := by
  have hlog := (s.hifFault 0).ev_logged (srcOf 0x0C r) evHifRingErr v 0 [] inj (by decide)
  have heq : s.ringErr r v inj = (s.hifFault 0).ev (srcOf 0x0C r) evHifRingErr v 0 [] inj := rfl
  rw [heq, hlog]
  exact ⟨fun _ => rfl, by simp [State.hifFault, setBit]⟩

/-! ## The doorbell (R378) -/

theorem State.doorbell_enabled (hu : s.Unarmed) {r : Nat} (hen : (s.ring r).en = true) (v : W32) :
    s.doorbell r v.toNat =
      if 2 ^ 16 ≤ v.toNat ∨ (v.setWidth 16 - (s.ring r).head).toNat < ((s.ring r).tail - (s.ring r).head).toNat
          ∨ s.ringSize r < (v.setWidth 16 - (s.ring r).head).toNat
      then (s.ringErr r v.toNat).disableRing r else s.setRing r { s.ring r with tail := v.setWidth 16 } := by
  simp [State.doorbell, hen, State.injCheck_unarmed hu, or_assoc]

/-- A doorbell out of range disables its ring and moves nothing. -/
theorem State.ringErr_disableRing_spec (s : State) (r v : Nat) :
    (((s.ringErr r v).disableRing r).ring r).en = false ∧ (((s.ringErr r v).disableRing r).ring r).tail = (s.ring r).tail
      ∧ ((s.ringErr r v).disableRing r).hif.fault.getLsbD 0 = true := by
  obtain ⟨hring, hfault⟩ := s.ringErr_spec r v false
  simp [State.disableRing, hring, hfault]

end Sys2Proof.Machine

/-! ## The obligation -/

open Sys2Proof Sys2Proof.Machine

/-- Settles O49: each write reaches its register, and takes there the branch of its range. -/
theorem ringRegisters : Obligations.RingRegisters := by
  unfold Obligations.RingRegisters
  intro s r v hup hu
  have hbell : exec (.doorbell r v) s = .next (s.doorbell r v.toNat) := congrArg _ (hup.hostAccess ..)
  refine ⟨fun hen hv htail hsize => ?_, fun hen hout => ?_, fun hbit hen hdrain hr hsound => ?_, fun hbit hen => ?_, fun hrange => ?_⟩
  · rw [hbell, State.doorbell_enabled hu hen, if_neg (by omega)]
  · rw [State.doorbell_enabled hu hen, if_pos hout] at hbell
    exact ⟨_, hbell, s.ringErr_disableRing_spec r v.toNat⟩
  · have hr0 : (r : Nat) ≠ 0 := fun h => hr (Fin.ext h)
    have hbit' : bitOf v.toNat 5 = true := hbit
    show execRingEnable r v s = _
    simp [execRingEnable, hbit', hup.hostAccess, State.writeSqCfg, hen, hdrain, hr0, hsound]
  · have hbit' : bitOf v.toNat 5 = false := hbit
    show execRingDisable r v s = _
    simp [execRingDisable, hbit', hup.hostAccess, State.writeSqCfg, hen, State.disableRing]
  · show execCqHeadWrite r v s = _
    rw [execCqHeadWrite, hup.hostAccess, State.writeCqHead, BitVec.ofNat_toNat]
    exact congrArg _ (if_pos hrange)

end

section
/-! PROOF. START entries (R90, R140, R382, R383), and the obligation. -/

namespace Sys2Proof.Machine

variable {s : State}

/-! ## A context as an entry starts it (R140) -/

theorem startCtx_frame (c : Ctx) (e : BitVec 512) (pc : Nat) :
    startCtx c e pc = { pc := BitVec.ofNat 64 pc, code := BitVec.ofNat 32 (entAt e 8 4), prio := BitVec.ofNat 2 (entAt e 18 1), st := .ready, ctr := c.ctr
                        sticky := c.sticky, sr := (startCtx c e pc).sr } := by
  simp [startCtx, List.range_succ, Ctx.setSreg]

theorem startCtx_sreg (c : Ctx) (e : BitVec 512) (pc : Nat) {j : Nat} (hj : j < 4) :
    (startCtx c e pc).sreg (j + 1) = BitVec.ofNat 64 (entAt e (24 + 8 * j) 8) := by
  interval_cases j <;> simp [startCtx, List.range_succ, Ctx.sreg_setSreg, Ctx.sreg_setSreg_ne]

theorem startCtx_pc (c : Ctx) (e : BitVec 512) (pc : Nat) : (startCtx c e pc).pc = BitVec.ofNat 64 pc := by rw [startCtx_frame]

theorem startCtx_code (c : Ctx) (e : BitVec 512) (pc : Nat) : (startCtx c e pc).code = BitVec.ofNat 32 (entAt e 8 4) := by rw [startCtx_frame]

theorem startCtx_prio (c : Ctx) (e : BitVec 512) (pc : Nat) : (startCtx c e pc).prio = BitVec.ofNat 2 (entAt e 18 1) := by rw [startCtx_frame]

theorem startCtx_st (c : Ctx) (e : BitVec 512) (pc : Nat) : (startCtx c e pc).st = .ready := by rw [startCtx_frame]

theorem startCtx_counter (c : Ctx) (e : BitVec 512) (pc j : Nat) : (startCtx c e pc).counter j = c.counter j := by rw [startCtx_frame]; rfl

/-- In `t` entry `e` has started context `x` of `s` at `pc`, and memory is as in `s`. -/
structure State.Starts (s : State) (e : BitVec 512) (x pc : Nat) (t : State) : Prop where
  pc : (t.ctx x).pc = BitVec.ofNat 64 pc
  code : (t.ctx x).code = BitVec.ofNat 32 (entAt e 8 4)
  prio : (t.ctx x).prio = BitVec.ofNat 2 (entAt e 18 1)
  going : (t.ctx x).Going
  args : ∀ j < 4, (t.ctx x).sreg (j + 1) = BitVec.ofNat 64 (entAt e (24 + 8 * j) 8)
  counter : ∀ j, (t.ctx x).counter j = (s.ctx x).counter j
  objMem : t.objMem = s.objMem

/-- A READY context that enters its core's selection goes on with what it was given. -/
theorem State.leave_ctx_going (s : State) (x : Nat) {c : Ctx} (h : c.st = .ready) :
    ((s.leave x c).ctx x).Going ∧ (s.leave x c).ctx x = { c with st := ((s.leave x c).ctx x).st, wait := ((s.leave x c).ctx x).wait, issued := ((s.leave x c).ctx x).issued } := by
  have hctx := (s.leave_reselected x c).2 x
  rw [State.setCtx_ctx] at hctx
  exact ⟨State.select_keeps_going _ (by rw [State.setCtx_ctx]; exact .inl h), hctx⟩

/-- A context that enters its core's selection as an entry starts it. -/
theorem State.leave_starts (s : State) (e : BitVec 512) (x pc : Nat) : s.Starts e x pc (s.leave x (startCtx (s.ctx x) e pc)) := by
  have hpc := startCtx_pc (s.ctx x) e pc
  have hcode := startCtx_code (s.ctx x) e pc
  have hprio := startCtx_prio (s.ctx x) e pc
  have hsreg := @startCtx_sreg (s.ctx x) e pc
  have hcounter := startCtx_counter (s.ctx x) e pc
  have hst := startCtx_st (s.ctx x) e pc
  generalize startCtx (s.ctx x) e pc = c at *
  obtain ⟨hgoing, hctx⟩ := s.leave_ctx_going x hst
  refine ⟨?_, ?_, ?_, hgoing, fun j hj => ?_, fun j => ?_, (s.leave_keepsObjects x c).objMem⟩
  · rw [hctx]
    exact hpc
  · rw [hctx]
    exact hcode
  · rw [hctx]
    exact hprio
  · rw [hctx]
    exact hsreg hj
  · rw [hctx]
    exact hcounter j

/-! ## Mason serves a ring (R383) -/

/-- With no FAULTED context mason discards none. -/
theorem State.discardFaulted_eq (h : ∀ x, (s.ctx x).st ≠ .faulted) : s.discardFaulted = s := by
  unfold State.discardFaulted
  generalize s.ctxKeys = l
  induction l with
  | nil => rfl
  | cons x l ih => simpa [h x] using ih

/-- The state after mason has fetched entry `e` of ring `r`, which it has now served. -/
def State.serves (s : State) (r : Nat) (e : BitVec 512) : State :=
  { s.fetch r (entTag e) (entFlags e) with msn := { s.msn with served := r } }

/-- Entry `e`, of count `c` on ring `r`, waits for its context. -/
def State.owes (s : State) (r : Nat) (e : BitVec 512) (c : Nat) : State :=
  { s with hif := { s.hif with starts := s.hif.starts ++ [⟨r, c, e, none⟩] } }

/-- Mason serves ring `r` next, and no context is FAULTED. -/
structure State.Serves (s : State) (r : Nat) : Prop where
  free : s.startsHeld = false
  next : s.nextServed = some r
  unfaulted : ∀ x, (s.ctx x).st ≠ .faulted

/-- Mason takes the entry from the ring that it serves next, and answers one that is not in its form. -/
theorem State.start_malformed {r : Nat} {e : BitVec 512} (h : s.Serves r) (hwait : s.waitingStart r = none)
    (hentry : s.entryAt r (s.ring r).head.toNat = some (entBytes e)) (hstop : s.pln.stopped = false) (hok : startOk e = false) :
    s.start r e = (s.serves r e).answer r (s.ring r).head.toNat stMalformed 0 := by
  have hstop' : ¬(s.serves r e).pln.stopped = true := ne_true_of_eq_false hstop
  rw [State.start, State.discardFaulted_eq h.unfaulted]
  exact (if_neg (by simp [h.free, h.next, hwait, hentry])).trans ((if_neg hstop').trans (if_pos (by simp [hok])))

/-- The place of an entry goes by the object table and object memory. -/
theorem State.entryOf_congr {u : State} (hobjs : u.objs = s.objs) (hmem : u.objMem = s.objMem) (h ident : Nat) : u.entryOf h ident = s.entryOf h ident := by
  have hobj : u.obj = s.obj := by
    unfold State.obj
    rw [hobjs]
  have hread : u.objRead = s.objRead := by
    unfold State.objRead
    rw [hmem]
  unfold State.entryOf State.named
  rw [hobj, hread]

/-- The context that an entry takes goes by the contexts and by those reserved. -/
theorem State.pickCtx_congr {u : State} (hctxs : u.ctxs = s.ctxs) (hhod : u.hod = s.hod) (e : BitVec 512) : u.pickCtx e = s.pickCtx e := by
  simp only [State.pickCtx, State.ctx, State.reserved, hctxs, hhod]

/-- An entry whose place in its code object stands starts its context; what mason notes of the entries on the way makes no difference. -/
theorem State.dispatch_starts {u : State} {w : Machine.Started} {x pc : Nat} (hctxs : u.ctxs = s.ctxs) (hobjs : u.objs = s.objs) (hmem : u.objMem = s.objMem)
    (h : s.entryOf (entAt w.entry 8 4) (entAt w.entry 12 4) = some pc) : s.Starts w.entry x pc (u.dispatch w x) := by
  have hctx : u.ctx x = s.ctx x := by rw [State.ctx, hctxs, State.ctx]
  rw [State.dispatch, State.entryOf_congr hobjs hmem, h]
  obtain ⟨hpc, hcode, hprio, hgoing, hargs, hcounter, hkeep⟩ := State.leave_starts
    { u with hif.starts := u.hif.starts.map fun v => if v.ring = w.ring && v.count = w.count then { v with ctx := some x } else v, msn.served := w.ring } w.entry x pc
  exact ⟨hpc, hcode, hprio, hgoing, hargs, hctx ▸ hcounter, hkeep.trans hmem⟩

theorem State.start_starts {r : Nat} {e : BitVec 512} {x pc : Nat} (h : s.Serves r) (hwait : s.waitingStart r = none)
    (hentry : s.entryAt r (s.ring r).head.toNat = some (entBytes e)) (hstop : s.pln.stopped = false) (hok : startOk e = true) (hjob : s.msn.job = true)
    (hpc : s.entryOf (entAt e 8 4) (entAt e 12 4) = some pc) (hres : s.namesReserved e = false) (hpick : s.pickCtx e = some x) :
    s.Starts e x pc (s.start r e) := by
  have hstop' : ¬(s.serves r e).pln.stopped = true := ne_true_of_eq_false hstop
  have hjob' : ¬(!(s.serves r e).msn.job) = true := fun h => by simp [State.serves, hjob] at h
  have hpc' : (s.serves r e).entryOf (entAt e 8 4) (entAt e 12 4) = some pc := (State.entryOf_congr rfl rfl ..).trans hpc
  have hres' : (s.serves r e).namesReserved e = false := hres
  have hplace : ¬(((s.serves r e).entryOf (entAt e 8 4) (entAt e 12 4)).isNone || (s.serves r e).namesReserved e) = true := by simp [hpc', hres']
  have hstart : s.start r e = ((s.serves r e).owes r e (s.ring r).head.toNat).dispatch ⟨r, (s.ring r).head.toNat, e, none⟩ x := by
    rw [State.start, State.discardFaulted_eq h.unfaulted]
    refine (if_neg (by simp [h.free, h.next, hwait, hentry])).trans ((if_neg hstop').trans ?_)
    refine (if_neg (by simp [hok])).trans ((if_neg hjob').trans ((if_neg hplace).trans ?_))
    extract_lets w u
    split
    · next y hy =>
      obtain rfl : x = y := Option.some.inj (hpick.symm.trans ((State.pickCtx_congr rfl rfl e).symm.trans hy))
      rfl
    · next hy => exact absurd (hpick.symm.trans ((State.pickCtx_congr rfl rfl e).symm.trans hy)) (by simp)
  rw [hstart]
  exact State.dispatch_starts (w := ⟨r, (s.ring r).head.toNat, e, none⟩) rfl rfl rfl hpc

/-- After a class M event the entry that waits is refused. -/
theorem State.startDispatch_refuses {r : Nat} {w : Machine.Started} (h : s.Serves r) (hwait : s.waitingStart r = some w) (hstop : s.pln.stopped = true) :
    s.startDispatch r = s.refuseStart w := by
  rw [State.startDispatch, State.discardFaulted_eq h.unfaulted, if_neg (by simp [h.free, h.next]), hwait]
  exact if_pos hstop

/-- The entry that waits starts the context that it can take. -/
theorem State.startDispatch_starts {r : Nat} {w : Machine.Started} {x pc : Nat} (h : s.Serves r) (hwait : s.waitingStart r = some w)
    (hstop : s.pln.stopped = false) (hpick : s.pickCtx w.entry = some x) (hpc : s.entryOf (entAt w.entry 8 4) (entAt w.entry 12 4) = some pc) :
    s.Starts w.entry x pc (s.startDispatch r) := by
  rw [State.startDispatch, State.discardFaulted_eq h.unfaulted, if_neg (by simp [h.free, h.next]), hwait]
  simp only [hstop, Bool.false_eq_true, if_false, hpick]
  exact State.dispatch_starts rfl rfl rfl hpc

end Sys2Proof.Machine

/-! ## The obligation -/

open Sys2Proof Sys2Proof.Machine

/-- Settles O48: mason serves the ring, and the entry takes the branch of its form or of its waiting. -/
theorem starts : Obligations.Starts := by
  unfold Obligations.Starts
  intro s r hheld hnext hf started
  have hstarted {e : BitVec 512} {x pc : Nat} {t : State} (h : s.Starts e x pc t) : started e x pc t :=
    ⟨h.pc, h.code, h.prio, h.going, h.args, h.counter, h.objMem⟩
  have hserves : s.Serves r := ⟨hheld, hnext, hf⟩
  refine ⟨fun e x pc hstop hwait hentry hok hjob hpc hres hpick => ?_, fun e hstop hwait hentry hok => ?_, fun w hstop hwait => ?_,
    fun w x pc hstop hwait hpick hpc => ?_⟩
  · exact ⟨_, rfl, hstarted (State.start_starts hserves hwait hentry hstop hok hjob hpc hres hpick)⟩
  · exact congrArg Host.Outcome.next (State.start_malformed hserves hwait hentry hstop hok)
  · exact congrArg Host.Outcome.next (State.startDispatch_refuses hserves hwait hstop)
  · exact ⟨_, rfl, hstarted (State.startDispatch_starts hserves hwait hstop hpick hpc)⟩

end

section
/-! PROOF. Commands of ring 0 that become requests of the hod (R270, R381): their evaluation at once, and the moves that they begin (R272). -/

namespace Sys2Proof.Machine

variable {s u : State} {e : BitVec 512}

/-- A command that the common checks let run, and that need not wait for what it reads, acts on the state after its fetch. -/
theorem State.Accepts.ring0_runs_unless {op : Nat} (h : s.Accepts op e) (run : State → Nat → State) {waits : Bool} (hw : waits = false) :
    s.ring0 op e run waits = run (s.taken e) (s.ring 0).head.toNat := by
  subst hw
  exact h.ring0_runs run

/-! ## The request -/

/-- The operation as which a command of ring 0 reaches the hod. -/
def State.ringOp (s : State) (e : BitVec 512) (c : Nat) (kind : LKind) (regs : List W64) (words : List Nat) : Op :=
  { id := s.nextOp, src := .ring 0 c (entTag e) (entFlags e), kind := kind, ins := {}, core := 0, off := 0, regs := regs, words := words, st := .started }

/-- The state in which the hod has received `o` from mason. -/
def State.requested (s : State) (e : BitVec 512) (c : Nat) (o : Op) : State :=
  { s with ops := s.ops ++ [o], nextOp := s.nextOp + 1, msn := { s.msn with busy := some (c, entTag e, entFlags e, entOp e) } }

theorem State.ringRequest_eq (s : State) (e : BitVec 512) (c : Nat) (kind : LKind) (regs : List W64) (words : List Nat) :
    s.ringRequest e c kind regs words = (s.requested e c (s.ringOp e c kind regs words)).settle [s.nextOp] := rfl

/-- The operation that was given the last number is found by it. -/
theorem State.requested_findOp (hn : s.Numbered) {o : Op} (ho : o.id = s.nextOp) (c : Nat) : (s.requested e c o).findOp s.nextOp = some o := by
  have hnone : s.ops.find? (fun p => p.id == s.nextOp) = none := by
    rw [List.find?_eq_none]
    intro p hp
    simpa using Nat.ne_of_lt (hn p hp)
  simp [State.findOp, State.requested, List.find?_append, hnone, ho]

/-- A command whose evaluation leaves no request to be evaluated again has the effect of its evaluation. -/
theorem State.ringRequest_keepsObjects (hn : s.Numbered) {c : Nat} {kind : LKind} {regs : List W64} {words : List Nat}
    (heval : (s.requested e c (s.ringOp e c kind regs words)).eval (s.ringOp e c kind regs words) = (u, [])) : u.KeepsObjects (s.ringRequest e c kind regs words) := by
  have hsettle : ∀ n, (s.requested e c (s.ringOp e c kind regs words)).settleN (n + 1) [s.nextOp] = u := by
    intro n
    rw [State.settleN, State.requested_findOp hn rfl c]
    dsimp only
    rw [heval]
    cases n <;> rfl
  obtain ⟨n, hfuel⟩ : ∃ n, (s.requested e c (s.ringOp e c kind regs words)).settleFuel [s.nextOp] = n + 1 :=
    Nat.exists_eq_succ_of_ne_zero (by simp [State.settleFuel])
  rw [State.ringRequest_eq, State.settle, hfuel, hsettle]
  exact u.wakeFetch_keepsObjects.trans (State.park_keepsObjects _)

/-! ## What the hod sees of the state (R271) -/

theorem State.refs_congr (harc : u.arc = s.arc) (hprs : u.prs = s.prs) (o : Op) : u.refs o = s.refs o := by
  unfold State.refs
  rw [harc, hprs]

theorem State.inProgress_congr (hops : u.ops = s.ops) (harc : u.arc = s.arc) (hprs : u.prs = s.prs) (i : Nat) : u.inProgress i = s.inProgress i := by
  simp only [State.inProgress, hops, State.refs_congr harc hprs]

/-- A request of the runtime is no access in progress. -/
theorem State.inProgress_append (harc : u.arc = s.arc) (hprs : u.prs = s.prs) {o : Op} (hops : u.ops = s.ops ++ [o]) (ho : s.refs o = []) (i : Nat) :
    u.inProgress i = s.inProgress i := by
  simp only [State.inProgress, hops, List.any_append, List.any_cons, List.any_nil, State.refs_congr harc hprs, ho, Bool.and_false, Bool.or_false]

theorem State.setOp_requested (hn : s.Numbered) {o p : Op} (ho : o.id = s.nextOp) (hp : p.id = s.nextOp) (c : Nat) :
    ((s.requested e c o).setOp p).ops = s.ops ++ [p] := by
  have hold : s.ops.map (fun q => if q.id = p.id then p else q) = s.ops := by
    refine (List.map_congr_left fun q hq => ?_).trans (List.map_id _)
    rw [if_neg (by rw [hp]; exact Nat.ne_of_lt (hn q hq))]
    rfl
  show (s.ops ++ [o]).map _ = _
  rw [List.map_append, hold]
  simp [ho, hp]

/-! ## Moves (R272, R273) -/

/-- A local home with room gives the units at once. -/
theorem State.obtain_of_room {home n : Nat} (hh : home ≤ 1) (hroom : n ≤ s.freeUnits home) (lim : Nat) (append : Bool) :
    s.obtain home n lim append = (true, s.takeUnits home n, []) := by
  rw [State.obtain, if_neg (by omega), if_pos hroom]

theorem State.takeUnits_frame (s : State) (home n : Nat) : s.takeUnits home n = { s with hod := (s.takeUnits home n).hod } := by
  unfold State.takeUnits
  split
  · rfl
  · split <;> rfl

theorem State.takeUnits_objs (s : State) (home n : Nat) : (s.takeUnits home n).objs = s.objs := by rw [State.takeUnits_frame]

theorem State.takeUnits_objMem (s : State) (home n : Nat) : (s.takeUnits home n).objMem = s.objMem := by rw [State.takeUnits_frame]

/-- The capacity for a move of object `i` is taken, and a peer that holds it is asked for its bytes. -/
def State.moveReady (s : State) (o : Op) (i home : Nat) : State :=
  if (s.obj i).home = 2 then (s.takeUnits home (s.obj i).size).askPeer (s.obj i).hnode (s.obj i).hhandle (s.obj i).bytes o.id
  else s.takeUnits home (s.obj i).size

theorem State.moveReady_keeps (s : State) (o : Op) (i home : Nat) : (s.moveReady o i home).objs = s.objs ∧ (s.moveReady o i home).objMem = s.objMem := by
  unfold State.moveReady
  split
  · have hsent := (State.Sent.refl (s.takeUnits home (s.obj i).size)).sendMsg
      { (s.takeUnits home (s.obj i).size).newMsg (s.obj i).hnode 6 with len := (s.obj i).bytes, tag := BitVec.ofNat 32 (s.obj i).hhandle, op := o.id }
    exact ⟨hsent.objs.trans (s.takeUnits_objs ..), hsent.objMem.trans (s.takeUnits_objMem ..)⟩
  · exact ⟨s.takeUnits_objs .., s.takeUnits_objMem ..⟩

/-- `t` is `s` with object `i` in flight to `home` for operation `id`. -/
structure State.MoveBegun (s : State) (i home id : Nat) (t : State) : Prop where
  obj : t.obj i = { s.obj i with st := if home = 0 then .up else .down, move := some { toHome := home, op := some id } }
  objMem : t.objMem = s.objMem

/-- A move into a local home that has room begins. -/
theorem State.beginMove_begun {o : Op} {i home : Nat} (hcalm : s.warned = false) (hh : home ≤ 1) (hroom : (s.obj i).size ≤ s.freeUnits home) :
    ∃ t, s.beginMove o i home 0 = (t, []) ∧ s.MoveBegun i home o.id t := by
  obtain ⟨hobjs, hmem⟩ := s.moveReady_keeps o i home
  have hbegin : s.beginMove o i home 0 = (((s.moveReady o i home).setOp { o with st := .moving }).setObj i { (s.moveReady o i home).obj i with
      st := if home = 0 then .up else .down, move := some { toHome := home, op := some o.id } }, []) := by
    rw [State.beginMove, if_neg (by simp [hcalm]), State.obtain_of_room hh hroom]
    rfl
  refine ⟨_, hbegin, ?_, hmem⟩
  rw [State.setObj_obj, State.obj, hobjs, State.obj]

/-! ## PROMOTE and DEMOTE (R270, R272) -/

/-- The object that the command names. -/
theorem State.ringOp_handle (s : State) {h : Nat} (hh : h < 2 ^ 24) (c : Nat) (kind : LKind) (l : List W64) (words : List Nat) :
    (s.ringOp e c kind (BitVec.ofNat 64 h :: l) words).hodHandle = h := by
  simp [Op.hodHandle, State.ringOp]
  omega

/-- A promotion of an object that lies still in the undercroft begins its move. -/
theorem State.eval_promote_of_slow {o : Op} {i : Nat} (hk : o.kind = .promote) (hi : hIdx o.hodHandle = i) (hp : o.pinned = []) (hst : (s.obj i).st = .slow)
    (hmove : (s.obj i).move = none) (hquiet : (s.pinnedBy o i).inProgress i = false) :
    s.eval o = (s.pinnedBy o i).beginMove { o with pinned := [i] } i 0 0 := by
  simp [State.eval, hk, hi, State.evalPromote, State.pinFor_of_unpinned hp, State.pinnedBy_obj, hst, hmove, hquiet]

/-- PROMOTE of an object in the undercroft pins it and begins its move to footing. -/
theorem State.ringRequest_promote (hn : s.Numbered) (hcalm : s.warned = false) {h : Nat} (hh : h < 2 ^ 24) (hst : (s.obj (hIdx h)).st = .slow)
    (hmove : (s.obj (hIdx h)).move = none) (hquiet : s.inProgress (hIdx h) = false) (hroom : (s.obj (hIdx h)).size ≤ s.hod.freeFast) (c : Nat) (l : List W64)
    (words : List Nat) :
    let t := s.ringRequest e c .promote (BitVec.ofNat 64 h :: l) words
    t.obj (hIdx h) = { s.obj (hIdx h) with pins := (s.obj (hIdx h)).pins + 1, st := .up, move := some { toHome := 0, op := some s.nextOp } }
      ∧ t.objMem = s.objMem := by
  let o := s.ringOp e c .promote (BitVec.ofNat 64 h :: l) words
  let v := (s.requested e c o).pinnedBy o (hIdx h)
  have hi : hIdx o.hodHandle = hIdx h := congrArg hIdx (s.ringOp_handle hh ..)
  have hobj : v.obj (hIdx h) = { s.obj (hIdx h) with pins := (s.obj (hIdx h)).pins + 1 } := State.pinnedBy_obj ..
  have hops : v.ops = s.ops ++ [{ o with pinned := [hIdx h] }] := State.setOp_requested (e := e) hn rfl rfl c
  have hin : v.inProgress (hIdx h) = false := (State.inProgress_append (s := s) (u := v) rfl rfl hops rfl (hIdx h)).trans hquiet
  obtain ⟨t, hbegin, hbegun⟩ := State.beginMove_begun (s := v) (o := { o with pinned := [hIdx h] }) (i := hIdx h) (home := 0) hcalm (by omega)
    (by rw [hobj]; exact hroom)
  have hkeep := State.ringRequest_keepsObjects hn ((State.eval_promote_of_slow (s := s.requested e c o) rfl hi rfl hst hmove hin).trans hbegin)
  exact ⟨by rw [hkeep.obj, hbegun.obj, hobj]; rfl, hkeep.objMem.trans hbegun.objMem⟩

/-- A demotion of an object that lies unpinned and still in footing begins its move. -/
theorem State.eval_demote_of_fast {o : Op} {i : Nat} (hk : o.kind = .demote) (hi : hIdx o.hodHandle = i) (htarget : o.target = (1, 0)) (hst : (s.obj i).st = .fast)
    (hhome : (s.obj i).home = 0) (hpins : (s.obj i).pins = 0) (hmove : (s.obj i).move = none) (hquiet : s.inProgress i = false) :
    s.eval o = s.beginMove o i 1 0 := by
  simp [State.eval, hk, hi, State.evalDemote, htarget, hst, hhome, hpins, hmove, hquiet]

/-- DEMOTE to the undercroft of an object in footing begins its move. -/
theorem State.ringRequest_demote (hn : s.Numbered) (hcalm : s.warned = false) {h : Nat} (hh : h < 2 ^ 24) (hst : (s.obj (hIdx h)).st = .fast)
    (hhome : (s.obj (hIdx h)).home = 0) (hpins : (s.obj (hIdx h)).pins = 0) (hmove : (s.obj (hIdx h)).move = none) (hquiet : s.inProgress (hIdx h) = false)
    (hroom : (s.obj (hIdx h)).size ≤ s.hod.freeSlow) (c : Nat) :
    s.MoveBegun (hIdx h) 1 s.nextOp (s.ringRequest e c .demote [BitVec.ofNat 64 h, 0] []) := by
  let o := s.ringOp e c .demote [BitVec.ofNat 64 h, 0] []
  have hi : hIdx o.hodHandle = hIdx h := congrArg hIdx (s.ringOp_handle hh ..)
  have htarget : o.target = (1, 0) := by simp [Op.target, Op.hodArg, o, State.ringOp, fld]
  have hin : (s.requested e c o).inProgress (hIdx h) = false := (State.inProgress_append (s := s) (u := s.requested e c o) rfl rfl rfl rfl (hIdx h)).trans hquiet
  obtain ⟨t, hbegin, hbegun⟩ := State.beginMove_begun (s := s.requested e c o) (o := o) (i := hIdx h) (home := 1) hcalm (by omega) hroom
  have hkeep := State.ringRequest_keepsObjects hn ((State.eval_demote_of_fast (s := s.requested e c o) rfl hi htarget hst hhome hpins hmove hin).trans hbegin)
  exact ⟨by rw [hkeep.obj, hbegun.obj]; rfl, hkeep.objMem.trans hbegun.objMem⟩

/-! ## CREATE (R263, R266, R381) -/

/-- What becomes of the command that is answered concerns no object. -/
theorem State.endRing_objs {o : Op} (hp : o.pinned = []) (status result : Nat) :
    (s.endRing o status result).objs = s.objs ∧ (s.endRing o status result).objMem = s.objMem := by
  unfold State.endRing
  split
  · next r c tag flags _ =>
    have hunpin : s.unpin o = s := by rw [State.unpin, hp]; rfl
    have hanswer (v : State) := v.answer_keepsObjects r c status result
    dsimp only
    rw [hunpin]
    refine ⟨(hanswer _).objs.trans ?_, (hanswer _).objMem.trans ?_⟩ <;> split <;> rfl
  · exact ⟨rfl, rfl⟩

/-- An object as it is installed: its entry but for where its pages lie, and zero bytes. -/
theorem State.install_spec (s : State) (i : Nat) (o : Obj) :
    (s.install i o).obj i = { o with place := s.free, moved := [] } ∧ (s.install i o).objMem = Mem.clear s.objMem (objKey i 0) (2 ^ 40) := by
  refine ⟨?_, rfl⟩
  rw [State.install, State.newPlace_obj, State.setObj_obj]
  rfl

/-- The entry that CREATE of a DATA object gives to handle `h`: log of the page size, HOME byte, units, replica's handle and node. -/
def createdObj (h : BitVec 24) (pg home size rh rn : Nat) : Obj :=
  { handle := h, st := if fld home 1 0 = 0 then .fast else .slow, home := fld home 1 0, pg := pg, evict := bitOf home 2, eprio := fld home 4 3, size := size
    rhandle := rh, rnode := fld rn 13 0, rvalid := bitOf rn 15 }

/-- The creation of a DATA object for which its home has room. -/
theorem State.eval_create_data {o : Op} {j pg home size rh rn : Nat} (hk : o.kind = .create) (hw : o.words = [0, pg, home, size, rh, rn])
    (hj : s.freeIndex = some j) (hh : fld home 1 0 ≤ 1) (hroom : size ≤ s.freeUnits (fld home 1 0)) :
    s.eval o = (((s.takeUnits (fld home 1 0) size).install j (createdObj (s.nextHandle j) pg home size rh rn)).endRing o stOk (s.nextHandle j).toNat, []) := by
  have hhandle : (s.takeUnits (fld home 1 0) size).nextHandle j = s.nextHandle j := by
    rw [State.nextHandle, State.obj, State.takeUnits_objs]
    rfl
  simp [State.eval, hk, State.evalCreate, hj, hw, State.obtain_of_room hh hroom, hhandle, createdObj]

/-- CREATE of a DATA object for which its home has room installs it. -/
theorem State.ringRequest_create (hn : s.Numbered) {j pg home size rh rn : Nat} (hj : s.freeIndex = some j) (hh : fld home 1 0 ≤ 1)
    (hroom : size ≤ s.freeUnits (fld home 1 0)) (c : Nat) :
    ∃ p, let t := s.ringRequest e c .create [] [0, pg, home, size, rh, rn]
      t.obj j = { createdObj (s.nextHandle j) pg home size rh rn with place := p, moved := [] } ∧ t.objMem = Mem.clear s.objMem (objKey j 0) (2 ^ 40) := by
  let o := s.ringOp e c .create [] [0, pg, home, size, rh, rn]
  let v := (s.requested e c o).takeUnits (fld home 1 0) size
  let w := v.install j (createdObj (s.nextHandle j) pg home size rh rn)
  have hkeep : (w.endRing o stOk (s.nextHandle j).toNat).KeepsObjects (s.ringRequest e c .create [] [0, pg, home, size, rh, rn]) :=
    State.ringRequest_keepsObjects hn (State.eval_create_data (s := s.requested e c o) rfl rfl hj hh hroom)
  obtain ⟨hobj, hmem⟩ := v.install_spec j (createdObj (s.nextHandle j) pg home size rh rn)
  obtain ⟨hend, hendMem⟩ := w.endRing_objs (o := o) rfl stOk (s.nextHandle j).toNat
  have hv : v.objMem = s.objMem := (s.requested e c o).takeUnits_objMem ..
  refine ⟨v.free, ?_, ?_⟩
  · rw [hkeep.obj, State.obj, hend]
    exact hobj
  · rw [hkeep.objMem, ← hv, ← hmem]
    exact hendMem

/-! ## DESTROY (R270) -/

theorem State.NoneHeld.giveDest (h : s.NoneHeld) (o : Obj) : (s.giveDest o).2 = [] := by
  unfold State.giveDest
  split
  · split <;> exact h.giveUnits ..
  · rfl

/-- With nothing held, no operation stands on a resident object. -/
theorem State.NoneHeld.heldAt (h : s.NoneHeld) {i : Nat} (hst : (s.obj i).st = .fast ∨ (s.obj i).st = .slow) : s.heldAt i = [] := by
  rcases hst with hst | hst <;> simp [State.heldAt, h.heldOn, hst]

/-- With nothing held, a resident object is freed: its entry keeps its handle alone, and nothing is to be evaluated again. -/
theorem State.freeObj_spec (h : s.NoneHeld) {i : Nat} (hst : (s.obj i).st = .fast ∨ (s.obj i).st = .slow) :
    ∃ t, s.freeObj i = (t, []) ∧ t.obj i = { handle := (s.obj i).handle } := by
  have hleft : (s.vacate i).1.NoneHeld := by
    rw [State.vacate_frame]
    exact h.mono fun _ ho => (List.mem_filter.1 ho).1
  have hdropped : (s.obj i).st ≠ .dropped := by rcases hst with hst | hst <;> simp [hst]
  refine ⟨_, Prod.ext rfl ?_, ?_⟩
  · simp [State.freeObj, hdropped, h.heldAt hst, h.vacate, hleft.giveDest]
  · simp only [State.freeObj, hdropped, h.heldAt hst, if_false, List.foldl_nil]
    exact State.setObj_obj ..

theorem State.eval_destroy {o : Op} {i : Nat} (hk : o.kind = .destroy) (hi : hIdx o.hodHandle = i) (hok : s.destroyRefused i = false)
    (hst : (s.obj i).st = .fast ∨ (s.obj i).st = .slow) (hquiet : s.inProgress i = false) : s.eval o = (s.endRing o stOk 0).freeObj i := by
  rcases hst with hst | hst <;> simp [State.eval, hk, hi, State.evalDestroy, hok, hst, hquiet]

/-- What is left once a command has been answered was there before. -/
theorem State.endRing_ops (o : Op) (status result : Nat) : ∀ p ∈ (s.endRing o status result).ops, p ∈ s.ops := by
  unfold State.endRing
  split
  · next r c tag flags _ =>
    intro p hp
    rw [((State.answer_keepsObjects _ r c status result).ops)] at hp
    have hdrop : p ∈ ((s.unpin o).dropOp o.id).ops := by
      dsimp only at hp
      split at hp <;> exact hp
    rw [State.unpin_frame] at hdrop
    exact (List.mem_filter.1 hdrop).1
  · exact fun _ h => h

/-- DESTROY of a resident object that nothing holds back frees it. -/
theorem State.ringRequest_destroy (hn : s.Numbered) (hnone : s.NoneHeld) {h : Nat} (hh : h < 2 ^ 24) (hok : s.destroyRefused (hIdx h) = false)
    (hst : (s.obj (hIdx h)).st = .fast ∨ (s.obj (hIdx h)).st = .slow) (hquiet : s.inProgress (hIdx h) = false) (c : Nat) (l : List W64) :
    (s.ringRequest e c .destroy (BitVec.ofNat 64 h :: l) []).obj (hIdx h) = { handle := (s.obj (hIdx h)).handle } := by
  let o := s.ringOp e c .destroy (BitVec.ofNat 64 h :: l) []
  let v := s.requested e c o
  have hi : hIdx o.hodHandle = hIdx h := congrArg hIdx (s.ringOp_handle hh ..)
  have hin : v.inProgress (hIdx h) = false := (State.inProgress_append (s := s) (u := v) rfl rfl rfl rfl (hIdx h)).trans hquiet
  have hvnone : v.NoneHeld := by
    intro p hp
    rcases List.mem_append.1 hp with hp | hp
    · exact hnone p hp
    · rw [List.mem_singleton.1 hp]
      exact ⟨fun _ _ => OpSt.noConfusion, fun _ _ _ => OpSt.noConfusion⟩
  obtain ⟨hobjs, -⟩ := v.endRing_objs (o := o) rfl stOk 0
  have hobj : (v.endRing o stOk 0).obj (hIdx h) = s.obj (hIdx h) := by rw [State.obj, hobjs]; rfl
  obtain ⟨t, hfree, ht⟩ := State.freeObj_spec (i := hIdx h) (hvnone.mono (v.endRing_ops o stOk 0)) (by rwa [hobj])
  have hkeep := State.ringRequest_keepsObjects hn ((State.eval_destroy (s := v) rfl hi hok hst hin).trans hfree)
  rw [hkeep.obj, ht, hobj]

end Sys2Proof.Machine
end

section
/-! PROOF. CREATE, DESTROY, PROMOTE and DEMOTE of ring 0 (R263, R270, R381), and the obligation. -/

namespace Sys2Proof.Machine

variable {s u : State} {e : BitVec 512}

/-- A fetch leaves every ring's object and enable. -/
theorem State.fetch_ring_named (s : State) (r tag flags q : Nat) :
    ((s.fetch r tag flags).ring q).en = (s.ring q).en ∧ ((s.fetch r tag flags).ring q).base = (s.ring q).base := by
  by_cases hq : q = r
  · subst hq
    rw [State.fetch, State.setRing_ring]
    exact ⟨rfl, rfl⟩
  · have hring : (s.fetch r tag flags).ring q = s.ring q := Tab.get_set_ne _ _ _ _ _ hq
    rw [hring]
    exact ⟨rfl, rfl⟩

/-- The refusal of DESTROY goes by objects, contexts, the job and which objects the rings lie in. -/
theorem State.destroyRefused_congr (hobjs : u.objs = s.objs) (hctxs : u.ctxs = s.ctxs) (hjob : u.msn.job = s.msn.job) (hprs : u.prs = s.prs)
    (hring : ∀ q, (u.ring q).en = (s.ring q).en ∧ (u.ring q).base = (s.ring q).base) (i : Nat) : u.destroyRefused i = s.destroyRefused i := by
  have hen (q : Nat) : (u.ring q).en = (s.ring q).en := (hring q).1
  have hhandle (q : Nat) : u.ringHandle q = s.ringHandle q := by simp only [State.ringHandle, (hring q).2]
  have hrecipe (h : Nat) : u.inRecipe h = s.inRecipe h := by simp only [State.inRecipe, hobjs]
  have hobj : u.obj i = s.obj i := by rw [State.obj, hobjs, State.obj]
  unfold State.destroyRefused
  rw [hobj, hctxs, hjob, hprs]
  simp only [hen, hhandle, hrecipe]

/-- A command on an object that it may act on becomes a request. -/
theorem State.runOnObject_requests {ok : Bool} (hh : entAt e 8 4 < 2 ^ 24) (hok : s.ringHandleOk (entAt e 8 4) = true) (hcmd : ok = true) (c : Nat) (kind : LKind)
    (arg : Nat) : s.runOnObject e c ok kind arg = s.ringRequest e c kind [BitVec.ofNat 64 (entAt e 8 4), BitVec.ofNat 64 arg] [] := by
  rw [State.runOnObject, if_neg (Nat.not_le.2 hh), if_neg (by simp [hok, hcmd])]

end Sys2Proof.Machine

/-! ## The obligation -/

open Sys2Proof Sys2Proof.Machine

/-- Settles O44: each command passes the checks of its operands and becomes a request, which the hod evaluates at once. -/
theorem objectCommands : Obligations.ObjectCommands := by
  unfold Obligations.ObjectCommands
  intro s e hquiet hnone hn h i
  have hquiet' (j : Nat) : (s.taken e).inProgress j = s.inProgress j := State.inProgress_congr rfl rfl rfl j
  refine ⟨fun j ha hok hkind hj hroom => ?_, fun ha hh hok href hst hin => ?_, fun ha hh hok hst hmove hin hroom => ?_,
    fun ha hh hok htarget hnode hkind hst hhome hpins hmove hin hroom => ?_⟩
  · have hexec : exec (.create e) s = .next ((s.taken e).ringRequest e (s.ring 0).head.toNat .create []
        [0, entAt e 9 1, entAt e 10 1, entAt e 12 4, entAt e 16 4, entAt e 20 2]) := by
      refine congrArg _ ((ha.ring0_runs_unless _ (by simp [hkind])).trans ?_)
      rw [State.runCreate]
      dsimp only
      rw [hkind, if_neg (by simp [hok]), if_pos rfl]
    have hhome : fld (entAt e 10 1) 1 0 ≤ 1 := by
      simp only [createOk, Bool.and_eq_true, decide_eq_true_eq] at hok
      tauto
    obtain ⟨p, hobj, hmem⟩ := State.ringRequest_create (s := s.taken e) hn hj hhome hroom (s.ring 0).head.toNat
    refine ⟨_, hexec, ?_⟩
    rw [hobj]
    exact ⟨rfl, rfl, rfl, rfl, hmem⟩
  · have hexec : exec (.destroy e) s = .next ((s.taken e).ringRequest e (s.ring 0).head.toNat .destroy [BitVec.ofNat 64 h, BitVec.ofNat 64 0] []) :=
      congrArg _ ((ha.ring0_runs _).trans (State.runOnObject_requests (s := s.taken e) hh hok rfl ..))
    have href' : (s.taken e).destroyRefused i = false :=
      (State.destroyRefused_congr (u := s.taken e) (s := s) rfl rfl rfl rfl (s.fetch_ring_named 0 _ _) i).trans href
    have hfree := State.ringRequest_destroy (s := s.taken e) (e := e) hn hnone hh href' hst ((hquiet' i).trans hin) (s.ring 0).head.toNat [BitVec.ofNat 64 0]
    refine ⟨_, hexec, ?_⟩
    rw [hfree]
    exact ⟨rfl, rfl⟩
  · have hexec : exec (.promote e) s = .next ((s.taken e).ringRequest e (s.ring 0).head.toNat .promote [BitVec.ofNat 64 h, BitVec.ofNat 64 0] []) :=
      congrArg _ ((ha.ring0_runs _).trans (State.runOnObject_requests (s := s.taken e) hh hok rfl ..))
    obtain ⟨hobj, hmem⟩ := State.ringRequest_promote (s := s.taken e) (e := e) hn ha.calm hh hst hmove ((hquiet' i).trans hin) hroom (s.ring 0).head.toNat
      [BitVec.ofNat 64 0] []
    refine ⟨_, hexec, ?_⟩
    rw [hobj]
    exact ⟨rfl, rfl, hmem⟩
  · have hexec : exec (.demote e) s = .next ((s.taken e).ringRequest e (s.ring 0).head.toNat .demote [BitVec.ofNat 64 h, 0] []) := by
      refine congrArg _ ((ha.ring0_runs _).trans ?_)
      rw [State.runDemote, if_neg (by simp [htarget, hnode]), State.runOnObject_requests (s := s.taken e) hh hok, htarget, hnode]
      · rfl
      · have hkind' : ((s.taken e).obj (hIdx (entAt e 8 4))).kind ≠ .code := hkind
        simp [hkind', htarget]
    obtain ⟨hobj, hmem⟩ := State.ringRequest_demote (s := s.taken e) (e := e) hn ha.calm hh hst hhome hpins hmove ((hquiet' i).trans hin) hroom
      (s.ring 0).head.toNat
    refine ⟨_, hexec, ?_⟩
    rw [hobj]
    exact ⟨rfl, rfl, hmem⟩

end

section
/-! PROOF. REGISTER and CODE_LOAD (R138, R139, R332, R381), and the obligation. -/

namespace Sys2Proof.Machine

variable {s : State} {e : BitVec 512}

theorem State.runRegister_notes (hh : entAt e 8 4 < 2 ^ 24) (hpres : entAt e 12 1 ≤ 4) (hupd : entAt e 13 1 ≤ 3) (hn : entAt e 13 1 = 1 ↔ entAt e 14 1 ≠ 0)
    (hok : s.ringHandleOk (entAt e 8 4) = true) (href : s.registerRefused (hIdx (entAt e 8 4)) (entAt e 12 1, entAt e 13 1, entAt e 14 1) = false) (c : Nat) :
    s.runRegister e c = (s.setObj (hIdx (entAt e 8 4)) { s.obj (hIdx (entAt e 8 4)) with
      regNext := some (entAt e 12 1, entAt e 13 1, entAt e 14 1) }).answer 0 c stOk 0 := by
  have hform : ((entAt e 13 1 == 1) != (entAt e 14 1 != 0)) = false := by
    by_cases h : entAt e 13 1 = 1
    · simp [h, hn.1 h]
    · have h0 : entAt e 14 1 = 0 := by_contra fun h0 => h (hn.2 h0)
      simp [h, h0]
  rw [State.runRegister]
  exact (if_neg (by simp [hform]; omega)).trans (if_neg (by simp [hok, href]))

/-- CODE_LOAD of a sound object makes it a code object. -/
theorem State.runCodeLoad_makes (hh : entAt e 8 4 < 2 ^ 24) (hok : s.ringHandleOk (entAt e 8 4) = true) (hkind : (s.obj (hIdx (entAt e 8 4))).kind = .data)
    (hcode : s.codeOk (hIdx (entAt e 8 4)) = true) (c : Nat) : s.runCodeLoad e c = s.makeCode e c (entAt e 8 4) := by
  rw [State.runCodeLoad]
  exact (if_neg (Nat.not_le.2 hh)).trans ((if_neg (by simp [hok])).trans ((if_neg (by simp [hkind])).trans (if_neg (by simp [hkind, hcode]))))

theorem State.runCodeLoad_of_code (hh : entAt e 8 4 < 2 ^ 24) (hok : s.ringHandleOk (entAt e 8 4) = true) (hkind : (s.obj (hIdx (entAt e 8 4))).kind = .code)
    (c : Nat) : s.runCodeLoad e c = s.answer 0 c stOk (entAt e 8 4) := by
  rw [State.runCodeLoad]
  exact (if_neg (Nat.not_le.2 hh)).trans ((if_neg (by simp [hok])).trans (if_pos hkind))

/-- Mason reads as data no object of another kind. -/
theorem State.waitsFor_of_code {h : Nat} (hkind : (s.obj (hIdx h)).kind = .code) : s.waitsFor h = false := by
  simp [State.waitsFor, hkind]

/-- Mason waits for no object that lies still. -/
theorem State.waitsFor_of_slow {h : Nat} (hst : (s.obj (hIdx h)).st = .slow) : s.waitsFor h = false := by
  simp [State.waitsFor, hst]

/-- Object `i` as CODE_LOAD leaves it, but for a move into footing (R139). -/
def State.coded (s : State) (i : Nat) : State :=
  s.setObj i { s.obj i with kind := .code, pins := (s.obj i).pins + 1, loadPin := true, evict := false
                            codeText := some (leAt (s.objRead i 0 256) 8 8, leAt (s.objRead i 0 256) 16 8) }

theorem State.makeCode_in_footing {h : Nat} (hhome : (s.obj (hIdx h)).home = 0) (c : Nat) : s.makeCode e c h = (s.coded (hIdx h)).answer 0 c stOk h :=
  if_pos hhome

theorem State.makeCode_elsewhere {h : Nat} (hhome : (s.obj (hIdx h)).home ≠ 0) (c : Nat) :
    s.makeCode e c h = (s.coded (hIdx h)).ringRequest e c .promote [BitVec.ofNat 64 h, BitVec.ofNat 64 h] [if (s.obj (hIdx h)).evict then 1 else 0] :=
  if_neg hhome

end Sys2Proof.Machine

/-! ## The obligation -/

open Sys2Proof Sys2Proof.Machine

/-- Settles O45: past the checks each command notes what it should, and CODE_LOAD of an object in the undercroft is a promotion. -/
theorem registerAndLoad : Obligations.RegisterAndLoad := by
  unfold Obligations.RegisterAndLoad
  intro s e h i r d
  refine ⟨fun ha hh hpres hupd hn hok href => ?_, fun ha hh hok hwait hkind hcode hhome => ?_, fun ha hh hok hkind => ?_,
    fun ha hh hok hkind hcode hquiet hnone hn hst hhome hmove hin hroom => ?_⟩
  · exact congrArg _ ((ha.ring0_runs _).trans (State.runRegister_notes (s := s.taken e) hh hpres hupd hn hok href _))
  · exact congrArg _ ((ha.ring0_runs_unless _ hwait).trans ((State.runCodeLoad_makes (s := s.taken e) hh hok hkind hcode _).trans
      (State.makeCode_in_footing (s := s.taken e) hhome _)))
  · exact congrArg _ ((ha.ring0_runs_unless _ (State.waitsFor_of_code hkind)).trans (State.runCodeLoad_of_code (s := s.taken e) hh hok hkind _))
  · let v := (s.taken e).coded i
    have hexec : exec (.codeLoad e) s
        = .next (v.ringRequest e (s.ring 0).head.toNat .promote [BitVec.ofNat 64 h, BitVec.ofNat 64 h] [if (s.obj i).evict then 1 else 0]) :=
      congrArg _ ((ha.ring0_runs_unless _ (State.waitsFor_of_slow hst)).trans ((State.runCodeLoad_makes (s := s.taken e) hh hok hkind hcode _).trans
        (State.makeCode_elsewhere (s := s.taken e) (by rw [show ((s.taken e).obj (hIdx (entAt e 8 4))).home = 1 from hhome]; simp) _)))
    have hobj : v.obj i = { s.obj i with kind := .code, pins := (s.obj i).pins + 1, loadPin := true, evict := false, codeText := some (leAt d 8 8, leAt d 16 8) } :=
      State.setObj_obj ..
    have hin' : v.inProgress i = false := (State.inProgress_congr (u := v) (s := s) rfl rfl rfl i).trans hin
    obtain ⟨hput, hmem⟩ := State.ringRequest_promote (s := v) (e := e) hn ha.calm hh (by rw [hobj]; exact hst) (by rw [hobj]; exact hmove) hin'
      (by rw [hobj]; exact hroom) (s.ring 0).head.toNat [BitVec.ofNat 64 h] [if (s.obj i).evict then 1 else 0]
    refine ⟨_, hexec, ?_⟩
    rw [hput, hobj]
    exact ⟨rfl, rfl, rfl, hmem⟩

end

section
/-! PROOF. Accesses of the host through BAR 2, configuration requests and the training of its link (R373 to R375, R423). -/

namespace Sys2Proof.Machine

variable {s u : State}

/-! ## Settlement with nothing to evaluate -/

/-- What a quiet module is settled to, once its contexts and operations are as they were, is itself. -/
theorem State.Quiet.settle_nil (h : s.Quiet) (hctx : u.ctxs = s.ctxs) (hops : u.ops = s.ops) (hnsb : u.nsb = s.nsb) : u.settle [] = u := by
  have hctx' (x : Nat) : u.ctx x = s.ctx x := by rw [State.ctx, hctx, State.ctx]
  have hheld (x : Nat) : u.opHeld x = s.opHeld x := by simp only [State.opHeld, State.holds, hops, hnsb]
  refine State.settle_nil (fun x => ?_) fun x => ?_
  · rw [hctx']
    exact h.fetch x
  · rw [hctx', hheld]
    exact h.held x

/-- An access to an object that no peer holds sends nothing. -/
theorem State.peerTraffic_local {r : ObjRef} (h : (s.obj (hIdx r.h)).home ≠ 2) : s.peerTraffic [r] = s := by
  simp [State.peerTraffic, h]

/-! ## BAR 2 (R375) -/

/-- A read of an object that is resident and sound. -/
theorem State.bar2Read_reached {w off len : Nat} {r : ObjRef} (hu : s.Unarmed) (hq : s.Quiet) (hbad : s.bad = []) (hw : s.window w off len false = some r)
    (hok : s.bar2Ok r = true) (hreach : s.reaches .host r = true) (hfirst : s.behind r = false) (hhome : (s.obj (hIdx r.h)).home ≠ 2) :
    s.bar2Read w off len [] = s.answerHost (.data (s.objRead (hIdx r.h) r.lo r.n)) := by
  simp only [State.bar2Read, hw, hok, hfirst, hreach, s.detect_nothing _ _ _ hu (State.badIn_of_bad_nil hbad _), State.peerTraffic_local hhome, Bool.not_true,
    Bool.false_eq_true, if_false, if_true, Bool.or_self]
  exact hq.settle_nil rfl rfl rfl

/-- A write moves no object. -/
theorem State.objWrite_home (s : State) (i off : Nat) (bs : List Byte) : ((s.objWrite i off bs).obj i).home = (s.obj i).home := by
  rw [State.obj, State.objWrite, Tab.get_set]

/-- A write to an object that is resident and sound. -/
theorem State.bar2Write_reached {w : Fin 256} {off : Fin 1073741824} {data : List Byte} {r : ObjRef} (hu : s.Unarmed) (hq : s.Quiet) (hbad : s.bad = [])
    (hw : s.window w off data.length true = some r) (hok : s.bar2Ok r = true) (hreach : s.reaches .host r = true) (hfirst : s.behind r = false)
    (hkind : (s.obj (hIdx r.h)).kind ≠ .code) (hcap : s.captureHolds (hIdx r.h) = false) (hhome : (s.obj (hIdx r.h)).home ≠ 2) :
    s.bar2Write w off ⟨⟨data, false⟩, []⟩ = s.objWrite (hIdx r.h) r.lo data := by
  have hsend : (s.objWrite (hIdx r.h) r.lo data).peerTraffic [{ r with wr := true }] = s.objWrite (hIdx r.h) r.lo data :=
    State.peerTraffic_local (by rwa [State.objWrite_home])
  simp only [State.bar2Write, hw, hok, hfirst, hreach, hkind, hcap, s.detect_nothing _ _ _ hu (State.badIn_of_bad_nil hbad _), hsend, Bool.not_true,
    Bool.false_eq_true, if_false, if_true, Bool.or_self]
  exact hq.settle_nil rfl rfl rfl

/-- A window that is not valid maps no access. -/
theorem State.window_invalid {w : Nat} (h : bitOf (Tab.get 0 s.hif.win w).toNat 24 = false) (off n : Nat) (wr : Bool) : s.window w off n wr = none := by
  rw [State.window]
  exact if_neg (ne_true_of_eq_false h)

/-- The one access that was held goes with its answer, and nothing waited for it. -/
theorem State.bar2ReadTimeout_only {o : Op} {n i off len : Nat} (hops : s.ops = [o]) (hk : o.kind = .hostRead) (hw : o.words = [n, i, off, len])
    (hwait : ∀ x, (s.ctx x).wait ≠ .fetch ∧ (s.ctx x).wait ≠ .held) :
    exec (.bar2ReadTimeout n) s = .next ((({ s with ops := [] }).hifFault 2).late n (.poisoned len)) := by
  let u := (({ s with ops := [] } : State).hifFault 2).late n (.poisoned len)
  have hsettle : u.settleObj (hIdx i) = u := by
    have hnone : u.NoneHeld := State.noneHeld_of_no_ops rfl
    rw [State.settleObj, hnone.heldOn]
    exact State.settle_nil (fun x => (hwait x).1) fun x => ⟨rfl, (hwait x).2⟩
  have hfind : s.ops.find? (fun o => o.kind == .hostRead && o.words.getD 0 0 == n) = some o := by simp [hops, hk, hw]
  have hdrop : s.dropOp o.id = { s with ops := [] } := by simp [State.dropOp, hops]
  show execBar2ReadTimeout n s = _
  rw [execBar2ReadTimeout, hfind]
  dsimp only
  rw [hdrop, hw]
  exact congrArg _ hsettle

end Sys2Proof.Machine
end

section
/-! PROOF. What of the host's side and of mortar the evaluation of requests leaves (R196, R270, R382): everything but the completions that it posts. -/

namespace Sys2Proof.Machine

/-- `t` has the combine areas, the rings, the link and the host's memory of `s`. -/
@[reducible, simp] def State.KeepsWire (s t : State) : Prop :=
  t.mtr.combine = s.mtr.combine ∧ t.hif.rings = s.hif.rings ∧ t.hif.width = s.hif.width ∧ t.hif.speed = s.hif.speed ∧ t.hostMem = s.hostMem

theorem State.KeepsWire.refl (s : State) : s.KeepsWire s := ⟨rfl, rfl, rfl, rfl, rfl⟩

theorem State.KeepsWire.trans {s t u : State} (h : s.KeepsWire t) (k : t.KeepsWire u) : s.KeepsWire u := by
  simp_all

theorem State.Logged.keepsWire {s t : State} (h : s.Logged t) : s.KeepsWire t := by
  rw [h]
  simp

theorem State.Sent.keepsWire {s t : State} (h : s.Sent t) : s.KeepsWire t := by
  rw [h.frame]
  simp

theorem State.Reselected.keepsWire {s t : State} (h : s.Reselected t) : s.KeepsWire t := by
  rw [h.1]
  simp

theorem State.foldl_keepsWire {α : Type} {f : State → α → State} (h : ∀ (u : State) (a : α), u.KeepsWire (f u a)) (l : List α) (s : State) : s.KeepsWire (l.foldl f s) := by
  induction l generalizing s with
  | nil => simp
  | cons a l ih => exact (h s a).trans (ih _)

section
variable (s : State)

@[simp] theorem State.injReport_keepsWire : s.KeepsWire s.injReport := ⟨rfl, rfl, rfl, rfl, rfl⟩

@[simp] theorem State.traceWrite_keepsWire (r : Rec) : s.KeepsWire (s.traceWrite r) := ⟨rfl, rfl, rfl, rfl, rfl⟩

@[simp] theorem State.traceDrain_keepsWire (n : Nat) : s.KeepsWire (State.traceDrain n s) := by
  induction n generalizing s with
  | zero => exact .refl s
  | succ n ih =>
    unfold State.traceDrain
    split
    · exact .refl s
    · split
      · exact .trans (by simp) (ih _)
      · exact .refl s

@[simp] theorem State.post_keepsWire (e : Ev) : s.KeepsWire (s.post e) := by
  cases hc : isTraceCode e.code with
  | false => exact (s.post_logged e hc).keepsWire
  | true =>
    rw [State.post, if_pos hc]
    unfold State.trace
    dsimp only
    split
    · exact State.traceDrain_keepsWire { s with ldg := _ } 64
    · simp

@[simp] theorem State.ev_keepsWire (src code key w44 : Nat) (rest : List Byte) (inj : Bool) : s.KeepsWire (s.ev src code key w44 rest inj) := s.post_keepsWire _

@[simp] theorem State.leave_keepsWire (x : Nat) (c : Ctx) : s.KeepsWire (s.leave x c) := (s.leave_reselected x c).keepsWire
@[simp] theorem State.showFault_keepsWire (x code off : Nat) : s.KeepsWire (s.showFault x code off) := by
  unfold State.showFault State.modSlot
  split <;> simp

@[simp] theorem State.sendMsg_keepsWire (m : Msg) : s.KeepsWire (s.sendMsg m) := ((State.Sent.refl s).sendMsg m).keepsWire
@[simp] theorem State.link_keepsWire (m : Msg) (c : Nat) (f : Bool) : s.KeepsWire (s.link m c f) := ((State.Sent.refl s).link ..).keepsWire
@[simp] theorem State.peerTraffic_keepsWire (rs : List ObjRef) : s.KeepsWire (s.peerTraffic rs) := (s.peerTraffic_sent rs).1.keepsWire
@[simp] theorem State.sendHalf_keepsWire (o : Op) (kind chunk hop : Nat) (f : Bool) (data : List Byte) : s.KeepsWire (s.sendHalf o kind chunk hop f data) :=
  ((State.Sent.refl s).sendHalf ..).keepsWire
@[simp] theorem State.gather_keepsWire (c j : Nat) (f : Bool) : s.KeepsWire (s.gather c j f) := ((State.Sent.refl s).gather ..).keepsWire

/-! ## Capacity (R266, R273, R285) -/

@[simp] theorem State.takeUnits_keepsWire (home n : Nat) : s.KeepsWire (s.takeUnits home n) := by
  unfold State.takeUnits
  repeat' split
  all_goals simp

@[simp] theorem State.giveUnits_keepsWire (home n pages : Nat) : s.KeepsWire (s.giveUnits home n pages).1 := by rw [s.giveUnits_frame]; simp
@[simp] theorem State.vacate_keepsWire (i : Nat) : s.KeepsWire (s.vacate i).1 := by rw [s.vacate_frame]; simp
@[simp] theorem State.dropPage_keepsWire (i : Nat) : s.KeepsWire (s.dropPage i).1 := (s.setObj i _).vacate_keepsWire i
@[simp] theorem State.fresh_keepsWire : s.KeepsWire s.fresh.2 := ⟨rfl, rfl, rfl, rfl, rfl⟩
@[simp] theorem State.newPlace_keepsWire (i : Nat) : s.KeepsWire (s.newPlace i) := ⟨rfl, rfl, rfl, rfl, rfl⟩
@[simp] theorem State.install_keepsWire (i : Nat) (o : Obj) : s.KeepsWire (s.install i o) := ⟨rfl, rfl, rfl, rfl, rfl⟩

@[simp] theorem State.giveDest_keepsWire (o : Obj) : s.KeepsWire (s.giveDest o).1 := by
  unfold State.giveDest
  repeat' split
  all_goals simp

@[simp] theorem State.pick_keepsWire (c : List (Nat × Nat)) : s.KeepsWire (s.pick c).2 := by
  unfold State.pick
  split <;> simp

@[simp] theorem State.reclaim_keepsWire (home n lim k : Nat) : s.KeepsWire (s.reclaim home n lim k).1 := by
  induction k generalizing s with
  | zero => exact .refl s
  | succ k ih =>
    have hp := s.pick_keepsWire (s.dropCands home lim)
    unfold State.reclaim
    split
    · simp
    · generalize s.pick (s.dropCands home lim) = r at hp ⊢
      obtain ⟨none | i, u⟩ := r <;> simpa [ih] using hp

@[simp] theorem State.evictFor_keepsWire (n k : Nat) : s.KeepsWire (s.evictFor n k) := by
  induction k generalizing s with
  | zero => exact .refl s
  | succ k ih =>
    have hp := s.pick_keepsWire s.evictCands
    unfold State.evictFor
    split
    · simp
    · generalize s.pick s.evictCands = r at hp ⊢
      obtain ⟨none | i, u⟩ := r <;> simpa [ih] using hp

@[simp] theorem State.obtain_keepsWire (home n lim : Nat) (append : Bool) : s.KeepsWire (s.obtain home n lim append).2.1 := by
  unfold State.obtain
  dsimp only
  repeat' split
  all_goals simp

/-! ## Requests that are held or satisfied (R270) -/

@[simp] theorem State.request_keepsWire (kind : LKind) (src : OpSrc) (i : Nat) (words : List Nat) : s.KeepsWire (s.request kind src i words).1 := ⟨rfl, rfl, rfl, rfl, rfl⟩

@[simp] theorem State.holdObj_keepsWire (o : Op) (i : Nat) : s.KeepsWire (s.holdObj o i) := by
  unfold State.holdObj
  repeat' split
  all_goals simp

@[simp] theorem State.holdCap_keepsWire (o : Op) (p : Nat) : s.KeepsWire (s.holdCap o p) := by
  unfold State.holdCap
  split <;> simp

@[simp] theorem State.unpin_keepsWire (o : Op) : s.KeepsWire (s.unpin o) := by rw [s.unpin_frame]; simp

@[simp] theorem State.uncode_keepsWire (o : Op) : s.KeepsWire (s.uncode o) := by
  unfold State.uncode
  split <;> simp

@[simp] theorem State.pinFor_keepsWire (o : Op) (i : Nat) : s.KeepsWire (s.pinFor o i).1 := by
  unfold State.pinFor
  split <;> simp



@[simp] theorem State.refusal_keepsWire (i : Nat) : s.KeepsWire (s.refusal i) := State.ev_keepsWire ..


/-! ## Recompute and recovery (R225, R281 to R284) -/

@[simp] theorem State.startRecipe_keepsWire (i x : Nat) : s.KeepsWire (s.startRecipe i x) := by
  unfold State.startRecipe
  dsimp only
  split <;> simp

@[simp] theorem State.startRecipes_keepsWire : s.KeepsWire s.startRecipes :=
  State.foldl_keepsWire (fun u p => by split <;> simp) _ s

@[simp] theorem State.beginRecompute_keepsWire (src : OpSrc) (i home : Nat) : s.KeepsWire (s.beginRecompute src i home).2.1 := by
  unfold State.beginRecompute
  dsimp only
  split <;> simp

@[simp] theorem State.csumMismatch_keepsWire (src i b : Nat) (inj : Bool) : s.KeepsWire (s.csumMismatch src i b inj) := by
  unfold State.csumMismatch
  split <;> simp

@[simp] theorem State.noCopy_keepsWire (i : Nat) (inj : Bool) : s.KeepsWire (s.noCopy i inj) := State.ev_keepsWire ..

@[simp] theorem State.recoverIn_keepsWire (i src home : Nat) : s.KeepsWire (s.recoverIn i src home) := by
  unfold State.recoverIn State.askPeer
  dsimp only
  repeat' split
  all_goals simp

@[simp] theorem State.usable_keepsWire (i skip : Nat) : s.KeepsWire (s.usable i skip).2 := by
  unfold State.usable
  split <;> simp

@[simp] theorem State.reclaim_if_keepsWire (b : Prop) [Decidable b] (n k : Nat) : s.KeepsWire (if b then s.reclaim 0 n 4 k else (s, [])).1 := by
  split <;> simp

@[simp] theorem State.recoverFrom_keepsWire (i skip : Nat) (wait : Bool) : s.KeepsWire (s.recoverFrom i skip wait).1 := by
  unfold State.recoverFrom
  dsimp only
  by_cases hw : s.warned = true
  · simp [hw]
  rw [if_neg hw]
  split
  · simp
  have hu := s.usable_keepsWire i skip
  generalize s.usable i skip = r at hu ⊢
  obtain ⟨none | src, u⟩ := r
  · simpa using hu
  dsimp only at hu ⊢
  have ha := u.reclaim_if_keepsWire ((s.obj i).home = 0) (s.obj i).size u.objs.length
  generalize (if (s.obj i).home = 0 then u.reclaim 0 (s.obj i).size 4 u.objs.length else (u, [])) = a at ha ⊢
  have hb := a.1.reclaim_if_keepsWire ((s.obj i).home = 1) (s.obj i).size a.1.objs.length
  generalize (if (s.obj i).home = 1 then a.1.reclaim 0 (s.obj i).size 4 a.1.objs.length else (a.1, [])) = b at hb ⊢
  repeat' split
  all_goals simp [hu, ha, hb]

@[simp] theorem State.poison_keepsWire (i addr : Nat) (inj : Bool) : s.KeepsWire (s.poison i addr inj).1 := by
  unfold State.poison
  dsimp only
  repeat' split
  all_goals simp

@[simp] theorem State.verify_keepsWire (src : Nat) (rs : List ObjRef) : s.KeepsWire (s.verify src rs).2.1 := by
  unfold State.verify
  dsimp only
  repeat' split
  all_goals simp



/-! ## Arch operations (R302 to R304) -/

@[simp] theorem State.writeHalf_keepsWire (o : Op) (j : Nat) (b : Bool) (data : List Byte) : s.KeepsWire (s.writeHalf o j b data) := by
  unfold State.writeHalf State.writeCodes
  split
  · exact State.foldl_keepsWire (fun _ _ => by simp) _ s
  · simp

@[simp] theorem State.startColl_keepsWire (o : Op) : s.KeepsWire (s.startColl o) := by
  unfold State.startColl
  dsimp only
  split <;> simp

@[simp] theorem State.launch_keepsWire (o : Op) : s.KeepsWire (s.launch o) := by
  unfold State.launch
  split <;> simp

/-! ## Detections (R100, R189, R249 to R256, R280) -/

@[simp] theorem State.markLine_keepsWire (i blk line : Nat) : s.KeepsWire (s.markLine i blk line) := ⟨rfl, rfl, rfl, rfl, rfl⟩

@[simp] theorem State.markFailed_keepsWire (p seq : Nat) (inj : Bool) : s.KeepsWire (s.markFailed p seq inj) := by
  unfold State.markFailed State.record
  dsimp only
  split <;> simp

@[simp] theorem State.spadDetect_keepsWire (k addr : Nat) (c inj : Bool) : s.KeepsWire (s.spadDetect k addr c inj) := by
  unfold State.spadDetect
  dsimp only
  repeat' split
  all_goals simp

@[simp] theorem State.rowFails_keepsWire (r : RowId) (inj : Bool) : s.KeepsWire (s.rowFails r inj) := by
  unfold State.rowFails
  dsimp only
  repeat' split
  all_goals simp

@[simp] theorem State.ftgCorr_keepsWire (r : RowId) (lane addr : Nat) (inj : Bool) : s.KeepsWire (s.ftgCorr r lane addr inj) := by
  unfold State.ftgCorr
  dsimp only
  split <;> simp

@[simp] theorem State.ftgUncorr_keepsWire (r : RowId) (addr i blk : Nat) (reads inj : Bool) : s.KeepsWire (s.ftgUncorr r addr i blk reads inj) := by
  unfold State.ftgUncorr
  dsimp only
  split <;> simp

@[simp] theorem State.loseEntry_keepsWire (i b : Nat) : s.KeepsWire (s.loseEntry i b) := ⟨rfl, rfl, rfl, rfl, rfl⟩

@[simp] theorem State.sideUncorr_keepsWire (r : RowId) (addr : Nat) (l : List (Nat × Nat)) (stays inj : Bool) :
    s.KeepsWire (s.sideUncorr r addr l stays inj) := by
  unfold State.sideUncorr
  dsimp only
  split
  · simpa using State.foldl_keepsWire (fun _ _ => State.loseEntry_keepsWire ..) l (s.setStack ..)
  · simp

@[simp] theorem State.empty_keepsWire (g : Nat) : s.KeepsWire (s.empty g) := State.foldl_keepsWire (fun _ _ => State.request_keepsWire ..) _ _

@[simp] theorem State.quarantine_keepsWire (src g : Nat) (inj : Bool) : s.KeepsWire (s.quarantine src g inj) := by
  unfold State.quarantine
  dsimp only
  split <;> simp

@[simp] theorem State.ucfUncorr_keepsWire (ch addr i blk : Nat) (inj : Bool) : s.KeepsWire (s.ucfUncorr ch addr i blk inj) := by
  unfold State.ucfUncorr
  dsimp only
  repeat' split
  all_goals simp

@[simp] theorem State.ucfCorr_keepsWire (ch addr : Nat) (inj : Bool) : s.KeepsWire (s.ucfCorr ch addr inj) := State.ev_keepsWire ..
@[simp] theorem State.mtrCorr_keepsWire (slice addr : Nat) (inj : Bool) : s.KeepsWire (s.mtrCorr slice addr inj) := State.ev_keepsWire ..
@[simp] theorem State.mtrUncorr_keepsWire (slice addr case cls handle : Nat) (inj : Bool) : s.KeepsWire (s.mtrUncorr slice addr case cls handle inj) :=
  State.post_keepsWire ..

@[simp] theorem State.reported_keepsWire {f : State → Bool → State} (h : ∀ (u : State) (b : Bool), u.KeepsWire (f u b)) (code src addr unit : Nat) :
    s.KeepsWire (s.reported code src addr unit f) := by
  unfold State.reported
  split <;> simp [h]

@[simp] theorem State.bar2Refuse_keepsWire (r : ObjRef) : s.KeepsWire (s.bar2Refuse r) := by
  unfold State.bar2Refuse
  dsimp only
  split <;> simp [State.hifFault]

end

section
variable (f : Found)

@[simp] theorem Found.poison_keepsWire (i addr : Nat) (inj : Bool) : f.s.KeepsWire (f.poison i addr inj).s := State.poison_keepsWire ..

@[simp] theorem Found.injMismatch_keepsWire (src code at_ addr i b : Nat) {r : State → State} (hr : ∀ u : State, u.KeepsWire (r u)) :
    f.s.KeepsWire (f.injMismatch src code at_ addr i b r).s := by
  unfold Found.injMismatch
  dsimp only
  split <;> simp [hr]

@[simp] theorem Found.foldl_poison_keepsWire (l : List (Nat × Nat)) (inj : Bool) :
    f.s.KeepsWire (l.foldl (fun (f : Found) (p : Nat × Nat) => f.poison p.1 (f.s.blockAddr p.1 p.2) inj) f).s := by
  induction l generalizing f with
  | nil => exact .refl f.s
  | cons p l ih => exact (f.poison_keepsWire ..).trans (ih _)

@[simp] theorem Found.detect_keepsWire (src k : Nat) (rs : List ObjRef) (d : Detect) : f.s.KeepsWire (Found.detect src k rs f d).s := by
  cases d
  all_goals
    unfold Found.detect
    dsimp only
    repeat' split
  all_goals simp [State.foldl_keepsWire]

theorem Found.foldl_detect_keepsWire (src k : Nat) (rs : List ObjRef) (l : List Detect) : f.s.KeepsWire (l.foldl (Found.detect src k rs) f).s := by
  induction l generalizing f with
  | nil => exact .refl f.s
  | cons d l ih => exact (f.detect_keepsWire ..).trans (ih _)

end

@[simp] theorem State.armedAt_keepsWire (s : State) (src : Nat) (rs : List ObjRef) : s.KeepsWire (s.armedAt src rs).2 := by
  unfold State.armedAt
  dsimp only
  repeat' split
  all_goals simp

@[simp] theorem State.detect_keepsWire (s : State) (src k : Nat) (rs : List ObjRef) (ds : List Detect) : s.KeepsWire (s.detect src k rs ds).s := by
  simp [State.detect, Found.foldl_detect_keepsWire]

end Sys2Proof.Machine
end

section
/-! PROOF. Settlement and the host's side (R270, R382): evaluation posts completions, which need a ring, and changes no more of it. -/

namespace Sys2Proof.Machine

/-- `t` has the combine areas of `s`; and where no ring has a configuration, as after a reset of the host interface, the link and the host's memory too. -/
structure State.Unheard (s t : State) : Prop where
  combine : t.mtr.combine = s.mtr.combine
  silent : s.hif.rings = [] → t.hif.rings = [] ∧ t.hif.width = s.hif.width ∧ t.hif.speed = s.hif.speed ∧ t.hostMem = s.hostMem

namespace State.Unheard

variable {s t u : State}

@[simp] theorem of_keepsWire (h : s.KeepsWire t) : s.Unheard t := by
  obtain ⟨hcombine, hrings, hwidth, hspeed, hmem⟩ := h
  exact ⟨hcombine, fun hr => ⟨hrings.trans hr, hwidth, hspeed, hmem⟩⟩

theorem trans (h : s.Unheard t) (k : t.Unheard u) : s.Unheard u := by
  refine ⟨k.combine.trans h.combine, fun hr => ?_⟩
  obtain ⟨ht, hw, hs, hm⟩ := h.silent hr
  obtain ⟨hu, kw, ks, km⟩ := k.silent ht
  exact ⟨hu, kw.trans hw, ks.trans hs, km.trans hm⟩

theorem keepsWire (h : s.Unheard t) (k : t.KeepsWire u) : s.Unheard u := h.trans (.of_keepsWire k)

theorem foldl {α : Type} {f : State → α → State} (h : ∀ (u : State) (a : α), u.Unheard (f u a)) (l : List α) (s : State) : s.Unheard (l.foldl f s) := by
  induction l generalizing s with
  | nil => simp
  | cons a l ih => exact (h s a).trans (ih _)

end State.Unheard

/-! ## Completions (R379) -/

/-- With no ring there is nothing to answer. -/
theorem State.answer_of_no_rings {s : State} (h : s.hif.rings = []) (r c status result : Nat) : s.answer r c status result = s := by
  have hring : s.ring r = {} := by rw [State.ring, h]; rfl
  have hset : s.setRing r {} = s := by
    have hnil : Tab.set {} s.hif.rings r ({} : Ring) = s.hif.rings := by rw [h]; rfl
    rw [State.setRing, hnil]
  rw [State.answer, hring]
  split
  · rfl
  · exact hset

section
variable {q s : State} (h : q.KeepsWire s)
include h

@[simp] theorem State.answer_unheard (r c status result : Nat) : q.Unheard (s.answer r c status result) := by
  refine (State.Unheard.of_keepsWire h).trans ⟨?_, fun hr => ?_⟩
  · rw [(State.answer_reports ..).1]
  · rw [State.answer_of_no_rings hr]
    exact ⟨hr, rfl, rfl, rfl⟩

@[simp] theorem State.endStart_unheard (x status result : Nat) : q.Unheard (s.endStart x status result) := by
  unfold State.endStart
  split <;> simp [h]

@[simp] theorem State.faultCtx_unheard (x code off : Nat) (rec inj : Bool) : q.Unheard (s.faultCtx x code off rec inj) := by
  unfold State.faultCtx
  dsimp only
  refine .keepsWire ?_ (State.select_reselected ..).keepsWire
  split <;> simp [h]

@[simp] theorem State.endHeld_unheard (x : Nat) : q.Unheard (s.endHeld x) := by
  unfold State.endHeld State.endCtx
  split
  · simp [h]
  · exact .keepsWire (by simp [h]) (State.select_reselected ..).keepsWire

@[simp] theorem State.wake_unheard (x adv : Nat) : q.Unheard (s.wake x adv) := by
  unfold State.wake
  dsimp only
  split <;> simp [h]

@[simp] theorem State.ctxGone_unheard (x : Nat) : q.Unheard (s.ctxGone x) := by
  unfold State.ctxGone
  dsimp only
  repeat' split
  all_goals simp [h]

@[simp] theorem State.opGone_unheard (x : Nat) : q.Unheard (s.opGone x) := by
  refine (State.ctxGone_unheard h x).trans ?_
  unfold State.opGone State.preemptDone
  repeat' split
  all_goals simp

/-! ## Operations that end (R107, R270, R273) -/

@[simp] theorem State.endRing_unheard (o : Op) (status result : Nat) : q.Unheard (s.endRing o status result) := by
  unfold State.endRing State.dropOp
  dsimp only
  repeat' split
  all_goals simp [h]

@[simp] theorem State.satisfied_unheard (o : Op) (result : Nat) : q.Unheard (s.satisfied o result) := by
  unfold State.satisfied
  split <;> simp [h]

@[simp] theorem State.refuse_unheard (o : Op) (i : Nat) : q.Unheard (s.refuse o i) := by
  unfold State.refuse
  dsimp only
  split <;> simp [h]

@[simp] theorem State.asyncFault_unheard (o : Op) (code : Nat) (inj : Bool) (key w44 : Option Nat) : q.Unheard (s.asyncFault o code inj key w44) := by
  unfold State.asyncFault State.clearUnits State.dropOp
  dsimp only
  repeat' split
  all_goals simp [h]

@[simp] theorem State.exhausted_unheard (o : Op) (inj : Bool) : q.Unheard (s.exhausted o inj) := by
  unfold State.exhausted
  dsimp only
  repeat' split
  all_goals simp [h]

@[simp] theorem State.awaitCap_unheard (o : Op) (p : Nat) : q.Unheard (s.awaitCap o p) := by
  unfold State.awaitCap
  repeat' split
  all_goals simp [h]

@[simp] theorem State.askRecompute_unheard (o : Op) (i home : Nat) : q.Unheard (s.askRecompute o i home).1 := by
  unfold State.askRecompute
  dsimp only
  repeat' split
  all_goals simp [h]

@[simp] theorem State.beginMove_unheard (o : Op) (i home node : Nat) : q.Unheard (s.beginMove o i home node).1 := by
  unfold State.beginMove State.askPeer
  dsimp only
  repeat' split
  all_goals simp [h]

end

/-! ## State against request (R270) -/

section
variable (s : State) (o : Op) (i : Nat)

theorem State.evalPromote_unheard : s.Unheard (s.evalPromote o i).1 := by
  unfold State.evalPromote
  dsimp only
  repeat' split
  all_goals simp

theorem State.evalDemote_unheard : s.Unheard (s.evalDemote o i).1 := by
  unfold State.evalDemote
  dsimp only
  repeat' split
  all_goals simp

theorem State.evalDrop_unheard : s.Unheard (s.evalDrop o i).1 := by
  unfold State.evalDrop
  dsimp only
  repeat' split
  all_goals simp

theorem State.evalAppend_unheard : s.Unheard (s.evalAppend o i).1 := by
  have hk := s.obtain_keepsWire (s.obj i).home (s.obj i).size (s.obj i).prio true
  unfold State.evalAppend
  dsimp only
  generalize s.obtain (s.obj i).home (s.obj i).size (s.obj i).prio true = r at hk ⊢
  split
  case h_4 => simp
  all_goals
    split
    · simp
    · split
      · refine State.satisfied_unheard ?_ ..
        exact ⟨rfl, rfl, rfl, rfl, rfl⟩
      · split
        · simp
        · split
          · refine State.satisfied_unheard (hk.trans ?_) ..
            exact ⟨rfl, rfl, rfl, rfl, rfl⟩
          · exact State.awaitCap_unheard hk ..

theorem State.evalTrim_unheard : s.Unheard (s.evalTrim o i).1 := by
  unfold State.evalTrim
  dsimp only
  repeat' split
  all_goals simp

theorem State.evalPin_unheard : s.Unheard (s.evalPin o i).1 := by
  unfold State.evalPin
  dsimp only
  split <;> simp

theorem State.evalUnpin_unheard : s.Unheard (s.evalUnpin o i).1 := by
  simp [State.evalUnpin]

/-- What is freed leaves nothing of the host's side but the completions of the commands that stood on it. -/
theorem State.freeObj_unheard : s.Unheard (s.freeObj i).1 := by
  unfold State.freeObj
  dsimp only
  refine .keepsWire (.trans (.of_keepsWire ?_) (.foldl (fun u id => ?_) (s.heldAt i) _)) ⟨rfl, rfl, rfl, rfl, rfl⟩
  · split <;> simp
  · repeat' split
    all_goals simp

theorem State.evalDestroy_unheard : s.Unheard (s.evalDestroy o i).1 := by
  unfold State.evalDestroy
  repeat' split
  all_goals simp [(State.endRing_unheard (State.KeepsWire.refl s) o stOk 0).trans (State.freeObj_unheard _ i)]

theorem State.evalCreate_unheard : s.Unheard (s.evalCreate o).1 := by
  unfold State.evalCreate
  dsimp only
  repeat' split
  all_goals simp

theorem State.evalLeave_unheard : s.Unheard (s.evalLeave o).1 := by
  unfold State.evalLeave
  dsimp only
  repeat' split
  all_goals simp

theorem State.evalRecover_unheard : s.Unheard (s.evalRecover o).1 := by
  unfold State.evalRecover
  dsimp only
  split <;> simp

theorem State.evalRecv_unheard : s.Unheard (s.evalRecv o).1 := by
  unfold State.evalRecv
  repeat' split
  all_goals simp

theorem State.evalHost_unheard : s.Unheard (s.evalHost o).1 := by
  unfold State.evalHost
  dsimp only
  repeat' split
  all_goals simp [State.late, State.hifFault]

theorem State.foldl_pinFor_keepsWire (f : ObjRef → Bool) (l : List ObjRef) :
    s.KeepsWire (l.foldl (fun (p : State × Op) r => if f r then p.1.pinFor p.2 (hIdx r.h) else p) (s, o)).1 := by
  induction l generalizing s o with
  | nil => exact .refl s
  | cons r l ih =>
    rw [List.foldl_cons]
    split
    · exact (s.pinFor_keepsWire o _).trans (ih ..)
    · exact ih s o

theorem State.evalAccess_unheard : s.Unheard (s.evalAccess o).1 := by
  unfold State.evalAccess
  dsimp only
  split
  · split <;> simp
  · have hv : s.KeepsWire (if o.kind.arch then s.verify (srcOf 0x07 o.arcCourse) ((s.refs o).filter (fun r => !r.wr)) else (false, s, [])).2.1 := by
      split <;> simp
    generalize (if o.kind.arch then s.verify (srcOf 0x07 o.arcCourse) ((s.refs o).filter (fun r => !r.wr)) else (false, s, [])) = r at hv ⊢
    split
    · simp [hv]
    · exact .of_keepsWire ((hv.trans (State.foldl_pinFor_keepsWire _ _ (fun r => o.kind.pins && !(o.kind.arch && r.wr)) _)).trans (State.launch_keepsWire ..))

/-! ## Settlement -/

theorem State.eval_unheard : s.Unheard (s.eval o).1 := by
  unfold State.eval
  dsimp only
  split
  · exact s.evalPin_unheard ..
  · exact s.evalUnpin_unheard ..
  · exact s.evalPromote_unheard ..
  · exact s.evalPromote_unheard ..
  · exact s.evalDemote_unheard ..
  · exact s.evalDemote_unheard ..
  · exact s.evalDrop_unheard ..
  · exact s.evalAppend_unheard ..
  · exact s.evalTrim_unheard ..
  · exact s.evalDestroy_unheard ..
  · exact s.evalCreate_unheard ..
  · exact s.evalLeave_unheard ..
  · exact s.evalRecover_unheard ..
  · exact s.evalHost_unheard ..
  · exact s.evalHost_unheard ..
  · exact s.evalRecv_unheard ..
  · exact s.evalAccess_unheard ..

end

theorem State.settleN_unheard (s : State) (n : Nat) (l : List Nat) : s.Unheard (s.settleN n l) := by
  induction n generalizing s l with
  | zero => simp [State.settleN]
  | succ n ih =>
    cases l with
    | nil => simp [State.settleN]
    | cons id rest =>
      unfold State.settleN
      split
      · exact (s.eval_unheard _).trans (ih ..)
      · exact ih ..

theorem State.parkCtx_unheard (s : State) (x : Nat) : s.Unheard (s.parkCtx x) := by
  unfold State.parkCtx State.waitHeld
  repeat' split
  all_goals simp

theorem State.settle_unheard (s : State) (l : List Nat) : s.Unheard (s.settle l) := by
  refine (s.settleN_unheard _ l).trans (.trans (.foldl (fun u x => ?_) _ _) (.foldl State.parkCtx_unheard _ _))
  split <;> simp

end Sys2Proof.Machine
end

section
/-! PROOF. The end of a job, by JOB_STOP or by a reset of the host interface (R196, R326, R382). -/

namespace Sys2Proof.Machine

variable {s t u : State}

/-! ## What ends with the step (R326) -/

theorem State.dropRecompute_keepsWire (s : State) (i : Nat) : s.KeepsWire (s.dropRecompute i) := by
  unfold State.dropRecompute
  dsimp only
  repeat' split
  all_goals simp

theorem State.discardAll_keepsWire (s : State) : s.KeepsWire s.discardAll :=
  (State.foldl_keepsWire (f := fun s x => s.setCtx x { (({} : Ctx)) with ctr := (s.ctx x).ctr, sticky := (s.ctx x).sticky }) (fun _ _ => by simp) s.ctxKeys s).trans
    ⟨rfl, rfl, rfl, rfl, rfl⟩

theorem State.abandon_keepsWire (s : State) : s.KeepsWire s.abandon :=
  (State.foldl_keepsWire State.unpin_keepsWire _ s).trans ⟨rfl, rfl, rfl, rfl, rfl⟩

theorem State.dropRecomputes_keepsWire (s : State) : s.KeepsWire s.dropRecomputes :=
  State.KeepsWire.trans (t := { s with hod := { s.hod with recomputes := [] } }) ⟨rfl, rfl, rfl, rfl, rfl⟩ (State.foldl_keepsWire State.dropRecompute_keepsWire ..)

theorem State.unpinCapture_keepsWire (s : State) : s.KeepsWire s.unpinCapture := by
  rw [State.unpinCapture_frame]
  simp

/-- Once everything has stopped, the overflow of the step and the combine areas are cleared, and the requests that are left are evaluated. -/
theorem State.stopAll_settles (s : State) :
    ∃ (v : State) (l : List Nat), s.stopAll = v.settle l ∧ v.overflow = false ∧ v.mtr.combine = []
      ∧ v.hif = s.discardAll.abandon.dropRecomputes.unpinCapture.hif ∧ v.hostMem = s.discardAll.abandon.dropRecomputes.unpinCapture.hostMem := by
  unfold State.stopAll State.discardAll
  dsimp only
  generalize State.unpinCapture _ = u
  refine ⟨_, _, rfl, ?_, ?_, ?_, ?_⟩
  all_goals rfl

/-- Neither the step's overflow nor the combine areas survive (R196). -/
theorem State.stopAll_cleared (s : State) : s.stopAll.overflow = false ∧ s.stopAll.mtr.combine = [] := by
  obtain ⟨v, l, hstop, hover, hcombine, -, -⟩ := s.stopAll_settles
  rw [hstop]
  exact ⟨((State.Settles.refl v).settle l).overflow.trans hover, (v.settle_unheard l).combine.trans hcombine⟩

/-- With no ring, nothing of it reaches the host. -/
theorem State.stopAll_silent (h : s.hif.rings = []) :
    s.stopAll.hif.rings = [] ∧ s.stopAll.hif.width = s.hif.width ∧ s.stopAll.hif.speed = s.hif.speed ∧ s.stopAll.hostMem = s.hostMem := by
  obtain ⟨v, l, hstop, -, -, hhif, hmem⟩ := s.stopAll_settles
  obtain ⟨-, hrings, hwidth, hspeed, hmem'⟩ :=
    ((s.discardAll_keepsWire.trans (State.abandon_keepsWire _)).trans (State.dropRecomputes_keepsWire _)).trans (State.unpinCapture_keepsWire _)
  rw [← hhif] at hrings hwidth hspeed
  obtain ⟨krings, kwidth, kspeed, kmem⟩ := (v.settle_unheard l).silent (hrings.trans h)
  rw [hstop]
  exact ⟨krings, kwidth.trans hwidth, kspeed.trans hspeed, kmem.trans (hmem.trans hmem')⟩

/-! ## The job (R382) -/

/-- In `t` the job of `s` has ended, with all that belonged to its step. -/
structure State.JobEnded (s t : State) : Prop where
  job : t.msn.job = false
  active : t.kst.active = false
  epoch : t.kst.epoch = s.kst.epoch + 1
  nsb : t.nsb = s.nsb
  overflow : t.overflow = false
  combine : t.mtr.combine = []

/-- Reports to the host leave it ended. -/
theorem State.JobEnded.reports (h : s.JobEnded t) (k : t.Reports u) : s.JobEnded u := by
  rw [k]
  exact ⟨h.job, h.active, h.epoch, h.nsb, h.overflow, h.combine⟩

/-- What mason does once everything has stopped: the job ends, and the ledger is flushed. -/
def State.jobOver (s : State) : State :=
  State.flush { s with
    kst := { s.kst with active := false }
    msn := { s.msn with job := false, preempt := false }
    prs := { s.prs with restore := .none }
    hif := { s.hif with starts := [] } }

theorem State.stopJob_eq (s : State) : s.stopJob = s.stopAll.jobOver := rfl

theorem State.jobOver_spec (s : State) :
    s.jobOver.msn.job = false ∧ s.jobOver.kst = { s.kst with active := false } ∧ s.jobOver.nsb = s.nsb ∧ s.jobOver.overflow = s.overflow ∧ s.KeepsWire s.jobOver := by
  rw [State.jobOver, State.flush_logged]
  exact ⟨rfl, rfl, rfl, rfl, rfl, rfl, rfl, rfl, rfl⟩

theorem State.stopJob_ends (s : State) : s.JobEnded s.stopJob := by
  obtain ⟨hkeep, hepoch⟩ := s.stopAll_spec
  obtain ⟨hover, hcombine⟩ := s.stopAll_cleared
  obtain ⟨hjob, hkst, hnsb, hover', hcombine', -⟩ := s.stopAll.jobOver_spec
  rw [State.stopJob_eq]
  generalize s.stopAll = u at *
  exact ⟨hjob, by rw [hkst], (congrArg Kst.epoch hkst).trans hepoch, hnsb.trans hkeep.nsb, hover'.trans hover, hcombine'.trans hcombine⟩

theorem State.stopJob_silent (h : s.hif.rings = []) :
    s.stopJob.hif.rings = [] ∧ s.stopJob.hif.width = s.hif.width ∧ s.stopJob.hif.speed = s.hif.speed ∧ s.stopJob.hostMem = s.hostMem := by
  obtain ⟨hrings, hwidth, hspeed, hmem⟩ := State.stopAll_silent h
  obtain ⟨-, -, -, -, -, krings, kwidth, kspeed, kmem⟩ := s.stopAll.jobOver_spec
  rw [State.stopJob_eq]
  exact ⟨krings.trans hrings, kwidth.trans hwidth, kspeed.trans hspeed, kmem.trans hmem⟩

theorem State.Reports.foldl {α : Type} {f : State → α → State} (h : ∀ (u : State) (a : α), u.Reports (f u a)) (l : List α) (s : State) : s.Reports (l.foldl f s) := by
  induction l generalizing s with
  | nil => exact .refl s
  | cons a l ih => exact (h s a).trans (ih _)

/-- What aborts the open entries of rings 1 to 31 is reported to the host. -/
theorem State.abortEntries_reports (s : State) : s.Reports s.abortEntries := by
  unfold State.abortEntries
  exact .foldl (fun u _ => .foldl (fun v _ => (v.answer_reports ..).1) _ u) _ s

/-! ## A reset of the host interface (R382, R454) -/

theorem State.uncode_frame (s : State) (o : Op) : s.uncode o = { s with objs := (s.uncode o).objs } := by
  unfold State.uncode
  split <;> rfl

theorem State.foldl_objs_frame {α : Type} {f : State → α → State} (h : ∀ (u : State) (a : α), f u a = { u with objs := (f u a).objs }) (l : List α) (s : State) :
    l.foldl f s = { s with objs := (l.foldl f s).objs } := by
  induction l generalizing s with
  | nil => rfl
  | cons a l ih =>
    rw [List.foldl_cons, ih, h s a]

/-- The job stops with the host interface as at reset: no ring is configured, and the link has no width. -/
theorem State.hifReset_stops (s : State) :
    ∃ u : State, s.hifReset = u.stopJob ∧ u.hif.rings = [] ∧ u.hif.width = 0 ∧ u.hif.speed = 0 ∧ u.hostMem = s.hostMem ∧ u.kst = s.kst := by
  refine ⟨_, rfl, ?_⟩
  rw [State.foldl_objs_frame (fun u o => ?_)]
  · exact ⟨rfl, rfl, rfl, rfl, rfl⟩
  · split
    · exact u.unpin_frame o
    · rw [State.uncode_frame, State.unpin_frame]

/-- A reset of the host interface ends the job, and nothing of it reaches the host. -/
theorem State.hifReset_spec (s : State) :
    s.hifReset.msn.job = false ∧ s.hifReset.hif.rings = [] ∧ s.hifReset.hif.width = 0 ∧ s.hifReset.hif.speed = 0 ∧ s.hifReset.hostMem = s.hostMem
      ∧ s.hifReset.kst.epoch = s.kst.epoch + 1 := by
  obtain ⟨u, hreset, hrings, hwidth, hspeed, hmem, hkst⟩ := s.hifReset_stops
  obtain ⟨krings, kwidth, kspeed, kmem⟩ := State.stopJob_silent hrings
  have hend := u.stopJob_ends
  rw [hreset]
  exact ⟨hend.job, krings, kwidth.trans hwidth, kspeed.trans hspeed, kmem.trans hmem, by rw [hend.epoch, hkst]⟩

theorem State.exec_functionLevelReset (hlink : s.hif.down = false) (hstage : 2 ≤ s.pln.stage) : exec .functionLevelReset s = .next s.hifReset :=
  congrArg Host.Outcome.next (if_neg (by simp [hlink, Nat.not_lt.2 hstage]))

theorem State.exec_perstN (hlink : s.hif.down = false) : exec .perstN s = .next { s.hifReset with hif := { s.hifReset.hif with down := true } } :=
  congrArg Host.Outcome.next (if_neg (ne_true_of_eq_false hlink))

end Sys2Proof.Machine
end

section
/-! PROOF. The obligation on accesses of the host and resets of its interface (R373 to R375, R382, R423, R454). -/

open Sys2Proof Sys2Proof.Machine

/-- Settles O51: each access of the host reaches the branch of its window, and a reset of the host interface leaves a job ended with no ring to answer on. -/
theorem hostAccesses : Obligations.HostAccesses := by
  unfold Obligations.HostAccesses
  intro s
  refine ⟨fun w off len r hup hu hq hbad hw hok hreach hfirst hhome => ?_, fun w off data r hup hu hq hbad hw hok hreach hfirst hkind hcap hhome => ?_,
    fun w off data ds r hup hw hok => ?_, fun w off len data ds hup hwin => ⟨?_, ?_⟩, fun o n i off len hops hk hw hwait => ?_, fun hlink => ?_,
    fun w v hw hlo hhi => ?_, fun hlink hstage => ?_, fun hlink => ?_⟩
  · exact congrArg _ ((hup.hostAccess ..).trans (State.bar2Read_reached hu hq hbad hw hok hreach hfirst hhome))
  · exact congrArg _ ((hup.hostAccess ..).trans (State.bar2Write_reached hu hq hbad hw hok hreach hfirst hkind hcap hhome))
  · refine congrArg _ ((hup.hostAccess ..).trans ?_)
    simp [State.bar2Write, hw, hok]
  · refine congrArg _ ((hup.hostAccess ..).trans ?_)
    simp [State.bar2Read, State.window_invalid hwin]
  · refine congrArg _ ((hup.hostAccess ..).trans ?_)
    simp [State.bar2Write, State.window_invalid hwin]
  · exact State.bar2ReadTimeout_only hops hk hw hwait
  · exact congrArg _ (if_neg (ne_true_of_eq_false hlink))
  · exact congrArg _ (if_pos (by simp [hw, hlo, hhi]))
  · exact ⟨_, State.exec_functionLevelReset hlink hstage, s.hifReset_spec⟩
  · have hexec := State.exec_perstN hlink
    obtain ⟨hjob, hrings, hwidth, -, hmem, -⟩ := s.hifReset_spec
    generalize s.hifReset = u at *
    exact ⟨_, hexec, hjob, hrings, rfl, hwidth, hmem⟩

end

section
/-! PROOF. JOB_START, PREEMPT, RESUME and JOB_STOP (R82, R90, R381, R382, R384, R385), and the obligation. -/

namespace Sys2Proof.Machine

variable {s t u : State} {e : BitVec 512}

/-! ## The core map (R109) -/

theorem State.mapped_congr (h : u.slots = s.slots) (k : Nat) : u.mapped k = s.mapped k := by
  have hslot : u.slot = s.slot := by
    funext p
    rw [State.slot, h, State.slot]
  unfold State.mapped
  rw [hslot]

/-- Whether the map can be built goes by the slots. -/
theorem State.buildMap_isSome (s : State) : s.buildMap.isSome = (List.range 64).all fun k => (s.mapped k).isSome := by
  unfold State.buildMap
  split <;> simp_all

/-- The map stands in the slots, and what else changes is recorded. -/
theorem State.buildMap_reports (h : s.buildMap = some t) : s.Reports t := by
  unfold State.buildMap at h
  split at h
  · rw [← Option.some.inj h]
    refine .trans (.trans (.foldl (fun u p => ?_) _ s) (.foldl (fun u k => ?_) _ _)) (.foldl (fun u k => ?_) _ _)
    · rfl
    · split
      · rfl
      · exact .refl u
    · split
      · split
        · exact .refl u
        · exact (State.Reports.refl u).logged (u.ev_logged _ _ _ _ _ _ (by decide))
      · exact .refl u
  · cases h

/-! ## The preservation engine's objects (R336) -/

/-- What JOB_START has settled before it places the images. -/
structure State.KeepsJob (s t : State) : Prop where
  msn : t.msn = s.msn
  kst : t.kst = s.kst
  nsb : t.nsb = s.nsb
  arc : t.arc = s.arc
  capture : t.prs.capture = s.prs.capture

theorem State.KeepsJob.trans (h : s.KeepsJob t) (k : t.KeepsJob u) : s.KeepsJob u :=
  ⟨k.msn.trans h.msn, k.kst.trans h.kst, k.nsb.trans h.nsb, k.arc.trans h.arc, k.capture.trans h.capture⟩

theorem State.foldl_keepsJob {α : Type} {f : State → α → State} (h : ∀ (u : State) (a : α), u.KeepsJob (f u a)) (l : List α) (s : State) : s.KeepsJob (l.foldl f s) := by
  induction l generalizing s with
  | nil => exact ⟨rfl, rfl, rfl, rfl, rfl⟩
  | cons a l ih => exact (h s a).trans (ih _)

theorem State.hod_keepsJob (s : State) (c : Hod) : s.KeepsJob { s with hod := c } := ⟨rfl, rfl, rfl, rfl, rfl⟩

theorem State.hosted_keepsJob (s : State) (l : List Nat) : s.KeepsJob { s with prs := { s.prs with hosted := l } } := ⟨rfl, rfl, rfl, rfl, rfl⟩

theorem State.freeImages_keepsJob (s : State) : s.KeepsJob s.freeImages := by
  refine .trans (State.foldl_keepsJob (fun u i => ?_) s.prs.hosted s) (State.hosted_keepsJob ..)
  exact ⟨rfl, rfl, rfl, rfl, rfl⟩

theorem State.image_keepsJob (s : State) (home size : Nat) (hosted : Bool) (node : Nat) : s.KeepsJob (s.image home size hosted node) := by
  unfold State.image
  dsimp only
  repeat' split
  all_goals exact ⟨rfl, rfl, rfl, rfl, rfl⟩

theorem State.jobImages_keepsJob (s : State) (j : Job) (a : Arc) : s.KeepsJob (s.jobImages j a) := by
  unfold State.jobImages
  dsimp only
  exact (((s.hod_keepsJob _).trans (State.image_keepsJob ..)).trans (State.image_keepsJob ..)).trans (State.image_keepsJob ..)

/-- Where earlier images lie goes by the object table, capacity and what is noted of them. -/
theorem State.freeImages_congr (hobjs : u.objs = s.objs) (hhod : u.hod = s.hod) (hhosted : u.prs.hosted = s.prs.hosted) :
    u.freeImages.objs = s.freeImages.objs ∧ u.freeImages.hod = s.freeImages.hod := by
  unfold State.freeImages
  rw [hhosted]
  dsimp only
  generalize s.prs.hosted = l
  induction l generalizing s u with
  | nil => exact ⟨hobjs, hhod⟩
  | cons i l ih =>
    have hobj : u.obj i = s.obj i := by rw [State.obj, hobjs, State.obj]
    rw [List.foldl_cons, List.foldl_cons]
    refine ih ?_ ?_ hhosted
    · simp only [State.setObj, hobjs, hobj]
    · simp only [State.setObj, hhod, hobj]

theorem State.jobRoom_congr (hobjs : u.objs = s.objs) (hhod : u.hod = s.hod) (j : Job) : u.jobRoom j = s.jobRoom j := by
  unfold State.jobRoom State.freeIndices
  rw [hobjs, hhod]

/-! ## JOB_START (R382, R385) -/

/-- In `t` the job `j` runs in epoch 0 at the place that topology `a` gives the module. -/
structure State.JobRuns (j : Job) (a : Arc) (t : State) : Prop where
  job : t.msn.job = true
  nsb : t.nsb = { nsbOf ((j.d.drop 16).take 64) with outcome := 0, applied := false }
  node : t.arc.node = a.node
  epoch : t.kst.epoch = 0
  active : t.kst.active = true
  capture : t.prs.capture = .none

theorem State.JobRuns.keepsJob {j : Job} {a : Arc} (h : t.JobRuns j a) (k : t.KeepsJob u) : u.JobRuns j a :=
  ⟨k.msn ▸ h.job, k.nsb.trans h.nsb, k.arc ▸ h.node, k.kst ▸ h.epoch, k.kst ▸ h.active, k.capture.trans h.capture⟩

theorem State.JobRuns.reports {j : Job} {a : Arc} (h : t.JobRuns j a) (k : t.Reports u) : u.JobRuns j a := by
  rw [k]
  exact ⟨h.job, h.nsb, h.node, h.epoch, h.active, h.capture⟩

/-- The state in which JOB_START builds the core map: the topology, the numeric state and the counters are the job's. -/
def State.jobCleared (s : State) (j : Job) : State := ({ s with arc := s.topology j } : State).clearJob j

/-- What stands of the job once the core map is built. -/
structure State.JobSet (j : Job) (a : Arc) (t : State) : Prop where
  nsb : t.nsb = { nsbOf ((j.d.drop 16).take 64) with outcome := 0, applied := false }
  node : t.arc.node = a.node
  epoch : t.kst.epoch = 0

theorem State.jobCleared_set (s : State) (j : Job) : (s.jobCleared j).JobSet j (s.topology j) := ⟨rfl, rfl, rfl⟩

theorem State.JobSet.reports {j : Job} {a : Arc} (h : t.JobSet j a) (k : t.Reports u) : u.JobSet j a := by
  rw [k]
  exact ⟨h.nsb, h.node, h.epoch⟩

/-- The start of the job, before images are placed (R385). -/
def State.jobBegun (s : State) (j : Job) : State :=
  { s with
    kst := { s.kst with active := true }
    mtr := { s.mtr with caWays := fld (j.at 6 1) 2 0, combine := [] }
    hod := { s.hod with dropEn := bitOf (j.at 6 1) 3 }
    arc := { s.arc with sent := false, delivered := false, result := false, orIn := false, orGot := [], orEarly := [], hold := false, holdNext := false
                        issued := [0, 0, 0, 0], done := [0, 0, 0, 0], colls := [], posted := [] }
    msn := { s.msn with job := true }
    prs := s.prs.start j }

theorem State.startJob_eq (s : State) (j : Job) : s.startJob j = (s.jobBegun j).freeImages.jobImages j (s.jobBegun j).arc := rfl

theorem State.JobSet.startJob_runs {j : Job} {a : Arc} (h : t.JobSet j a) : (t.startJob j).JobRuns j a := by
  have hbegun : (t.jobBegun j).JobRuns j a := ⟨rfl, h.nsb, h.node, h.epoch, rfl, rfl⟩
  rw [State.startJob_eq]
  exact (hbegun.keepsJob (State.freeImages_keepsJob _)).keepsJob (State.jobImages_keepsJob ..)

/-- The core map can be built for the job where it can be built at all, and objects and capacity stay. -/
theorem State.jobCleared_buildMap (j : Job) (h : s.buildMap = some t) :
    ∃ w, (s.jobCleared j).buildMap = some w ∧ w.JobSet j (s.topology j) ∧ w.freeImages.jobRoom j = s.freeImages.jobRoom j := by
  have hsome : (s.jobCleared j).buildMap.isSome = true := by
    rw [State.buildMap_isSome, funext (State.mapped_congr (s := s) (u := s.jobCleared j) rfl), ← State.buildMap_isSome, h]
    rfl
  obtain ⟨w, hw⟩ := Option.isSome_iff_exists.1 hsome
  have hr := State.buildMap_reports hw
  refine ⟨w, hw, (s.jobCleared_set j).reports hr, ?_⟩
  have hobjs : w.objs = s.objs := by rw [hr]; rfl
  have hhod : w.hod = s.hod := by rw [hr]; rfl
  have hhosted : w.prs.hosted = s.prs.hosted := by rw [hr]; rfl
  obtain ⟨ho, hc⟩ := State.freeImages_congr hobjs hhod hhosted
  exact State.jobRoom_congr ho hc j

/-- The job description that the object of handle `h` holds. -/
def State.jobAt (s : State) (h : Nat) : Job := { d := s.objRead (hIdx h) 0 256 }

/-- JOB_START past every refusal of R385. -/
theorem State.runJobStart_starts {reports : List Neighbour} {w : State} (hh : entAt e 8 4 < 2 ^ 24) (hjob : s.msn.job = false) (hno : s.pln.noJob = false)
    (hok : s.ringHandleOk (entAt e 8 4) = true) (hkind : (s.obj (hIdx (entAt e 8 4))).kind = .data) (hbytes : 256 ≤ (s.obj (hIdx (entAt e 8 4))).bytes)
    (hbad : (s.jobBad (s.jobAt (entAt e 8 4))).min? = none) (htopo : s.topoMismatch (s.topology (s.jobAt (entAt e 8 4))) reports = none)
    (hmap : (s.jobCleared (s.jobAt (entAt e 8 4))).buildMap = some w) (hroom : w.freeImages.jobRoom (s.jobAt (entAt e 8 4)) = true) (c : Nat) :
    s.runJobStart e c reports = (w.startJob (s.jobAt (entAt e 8 4))).answer 0 c stOk 0 := by
  unfold State.jobCleared State.jobAt at *
  unfold State.runJobStart
  simp only [Nat.not_le.2 hh, if_false, hjob, hno, Bool.or_false, Bool.false_eq_true, hok, hkind, hbytes, beq_self_eq_true, decide_true, Bool.and_true, Bool.not_true, hbad, htopo, hmap, hroom]

/-! ## PREEMPT (R90, R382) -/

theorem State.waitHeld_ctx_ne {x y : Nat} (hy : y ≠ x) (h : (s.ctx y).st ≠ .ready) : (s.waitHeld x).ctx y = s.ctx y := by
  unfold State.waitHeld
  split
  · exact State.leave_ctx_ne hy h
  · rfl

/-- Operations that go leave every context as it is. -/
theorem State.dropOps_ctxs (l : List Op) (s : State) : (l.foldl (fun u o => (u.unpin o).dropOp o.id) s).ctxs = s.ctxs := by
  induction l generalizing s with
  | nil => rfl
  | cons o l ih => rw [List.foldl_cons, ih, State.unpin_frame]; rfl

theorem State.takeBack_ctx_ne {x y : Nat} (hy : y ≠ x) (h : (s.ctx y).st ≠ .ready) : (s.takeBack x).ctx y = s.ctx y := by
  unfold State.takeBack
  split
  · dsimp only
    rw [State.ctx, State.dropOps_ctxs]
    exact State.waitHeld_ctx_ne hy h
  · rfl

theorem State.foldl_takeBack_stopCtx_rests {l : List Nat} {y : Nat} (h : y ∈ l ∨ (s.ctx y).Rests) :
    ((l.foldl (fun u x => (u.takeBack x).stopCtx x) s).ctx y).Rests := by
  induction l generalizing s with
  | nil => simpa using h
  | cons x l ih =>
    refine ih ?_
    by_cases hy : y = x
    · exact .inr (hy ▸ State.stopCtx_rests ..)
    · refine h.imp (fun h => List.mem_of_ne_of_mem hy h) fun h => State.stopCtx_keeps_rests x ?_
      rwa [State.takeBack_ctx_ne hy h.1]

theorem State.preemptDone_ctx (s : State) (x : Nat) : s.preemptDone.ctx x = s.ctx x := by
  unfold State.preemptDone
  split
  · split
    · exact (State.answer_reports ..).1.ctx x
    · rfl
  · rfl

/-- After a preemption no context takes part. -/
theorem State.preemptAll_rests (s : State) (y : Nat) : (s.preemptAll.ctx y).Rests := by
  unfold State.preemptAll
  dsimp only
  rw [State.preemptDone_ctx]
  refine State.foldl_takeBack_stopCtx_rests (Decidable.or_iff_not_imp_left.2 fun h => ?_)
  rw [State.ctx_of_not_mem_keys h]
  simp [Ctx.Rests]

/-- A PREEMPT that no hold delays leaves no context that takes part. -/
theorem State.runPreempt_rests (h : s.held = false) (e : BitVec 512) (c y : Nat) : ((s.runPreempt e c).ctx y).Rests := by
  unfold State.runPreempt
  dsimp only
  rw [if_neg]
  · exact State.preemptAll_rests _ y
  · exact ne_true_of_eq_false h

end Sys2Proof.Machine

open Sys2Proof Sys2Proof.Machine

/-- Settles O46: the refusals of JOB_START are passed one by one, and what each command leaves is read off. -/
theorem jobCommands : Obligations.JobCommands := by
  unfold Obligations.JobCommands
  intro s e h j
  refine ⟨fun reports v ha hh hwait hjob hno hok hkind hbytes hbad htopo hmap hroom => ?_, fun ha hheld => ?_, fun ha hcap => ?_, fun ha => ?_⟩
  · obtain ⟨w, hw, hset, hr⟩ := State.jobCleared_buildMap j hmap
    have he : exec (.jobStart e reports) s = .next ((w.startJob j).answer 0 (s.ring 0).head.toNat stOk 0) :=
      congrArg _ ((ha.ring0_runs_unless _ (by simp [hwait, h])).trans
        (State.runJobStart_starts (s := s.taken e) hh hjob hno hok hkind hbytes hbad htopo hw (hr.trans hroom) _))
    obtain ⟨hrun, hnsb, hnode, hepoch, hactive, hcap⟩ := hset.startJob_runs.reports (State.answer_reports _ 0 (s.ring 0).head.toNat stOk 0).1
    exact ⟨_, he, hrun, hnsb, hnode, hepoch, hactive, hcap⟩
  · have he : exec (.preempt e) s = .next ((s.taken e).runPreempt e (s.ring 0).head.toNat) := congrArg _ (ha.ring0_runs fun s c => s.runPreempt e c)
    exact ⟨_, he, fun x => State.runPreempt_rests (s := s.taken e) hheld e _ x⟩
  · have he : exec (.resume e) s = .next (((s.taken e).ctxKeys.foldl State.resumeCtx (s.taken e)).answer 0 (s.ring 0).head.toNat stOk 0) :=
      congrArg _ ((if_neg (by simp [hcap])).trans (ha.ring0_runs _))
    refine ⟨_, he, fun x hx => ?_⟩
    rw [(State.answer_reports ..).1.ctx]
    exact State.resumeAllCtxs_going (s := s.taken e) hx
  · have he : exec (.jobStop e) s = .next ((s.taken e).stopJob.abortEntries.answer 0 (s.ring 0).head.toNat stOk 0) := by
      show execJobStop e s = _
      rw [execJobStop, ha.ring0_runs]
    have hend := ((s.taken e).stopJob_ends.reports (State.abortEntries_reports _)).reports (State.answer_reports _ 0 (s.ring 0).head.toNat stOk 0).1
    exact ⟨_, he, hend.job, hend.active, hend.epoch, hend.nsb, hend.overflow, hend.combine⟩

end
